-- ==== Sys2Proof/Word.lean ====
section
/-! DEFINITION. The word types of the machine and their plainest readings (00_scope.md rules R10, R11). -/

namespace Sys2Proof

/-- A byte of memory. -/
abbrev Byte := BitVec 8

/-- A 32-bit word: an instruction, or a 32-bit register. -/
abbrev Word := BitVec 32

/-- A 64-bit doubleword: a general register, the program counter, a virtual address. -/
abbrev Dword := BitVec 64

/-- A 36-bit physical address (20_memory.md rule R200). -/
abbrev PAddr := BitVec 36

/-- The number of a general, floating-point or coprocessor register. -/
abbrev RegNum := BitVec 5

end Sys2Proof
end

