-- ==== Sys2Proof/Syntax.lean ====
section
/-! DEFINITION. The abstract syntax: one constructor of `Instr` per row of `spec/opcode_table.json`,
in the table's order, with the fields the row names (30_encoding.md rules R302 to R311).
Register numbers, immediates and code fields keep the width the encoding gives them. -/

namespace Sys2Proof

/-- The instructions of the RM7000. `rs`, `rt`, `rd`, `base`, `index` number general registers (or, for the
coprocessor moves, a coprocessor register), `fs`, `ft`, `fd`, `fr` floating-point registers; `imm` and `offset`
are the low 16 bits, `target` the 26-bit jump field (00_scope.md rule R15). -/
inductive Instr where
  /-- `ADD` (rule R480). -/
  | add (rs rt rd : BitVec 5)
  /-- `ADDU` (rule R481). -/
  | addu (rs rt rd : BitVec 5)
  /-- `SUB` (rule R482). -/
  | sub (rs rt rd : BitVec 5)
  /-- `SUBU` (rule R483). -/
  | subu (rs rt rd : BitVec 5)
  /-- `DADD` (rule R486). -/
  | dadd (rs rt rd : BitVec 5)
  /-- `DADDU` (rule R487). -/
  | daddu (rs rt rd : BitVec 5)
  /-- `DSUB` (rule R488). -/
  | dsub (rs rt rd : BitVec 5)
  /-- `DSUBU` (rule R489). -/
  | dsubu (rs rt rd : BitVec 5)
  /-- `SLT` (rule R492). -/
  | slt (rs rt rd : BitVec 5)
  /-- `SLTU` (rule R493). -/
  | sltu (rs rt rd : BitVec 5)
  /-- `AND` (rule R496). -/
  | and (rs rt rd : BitVec 5)
  /-- `OR` (rule R497). -/
  | or (rs rt rd : BitVec 5)
  /-- `XOR` (rule R498). -/
  | xor (rs rt rd : BitVec 5)
  /-- `NOR` (rule R499). -/
  | nor (rs rt rd : BitVec 5)
  /-- `SLLV` (rule R513). -/
  | sllv (rs rt rd : BitVec 5)
  /-- `SRLV` (rule R514). -/
  | srlv (rs rt rd : BitVec 5)
  /-- `SRAV` (rule R515). -/
  | srav (rs rt rd : BitVec 5)
  /-- `DSLLV` (rule R522). -/
  | dsllv (rs rt rd : BitVec 5)
  /-- `DSRLV` (rule R523). -/
  | dsrlv (rs rt rd : BitVec 5)
  /-- `DSRAV` (rule R524). -/
  | dsrav (rs rt rd : BitVec 5)
  /-- `MOVN` (rule R633). -/
  | movn (rs rt rd : BitVec 5)
  /-- `MOVZ` (rule R634). -/
  | movz (rs rt rd : BitVec 5)
  /-- `SLL` (rule R510). -/
  | sll (rt rd sa : BitVec 5)
  /-- `SRL` (rule R511). -/
  | srl (rt rd sa : BitVec 5)
  /-- `SRA` (rule R512). -/
  | sra (rt rd sa : BitVec 5)
  /-- `DSLL` (rule R516). -/
  | dsll (rt rd sa : BitVec 5)
  /-- `DSRL` (rule R517). -/
  | dsrl (rt rd sa : BitVec 5)
  /-- `DSRA` (rule R518). -/
  | dsra (rt rd sa : BitVec 5)
  /-- `DSLL32` (rule R519). -/
  | dsll32 (rt rd sa : BitVec 5)
  /-- `DSRL32` (rule R520). -/
  | dsrl32 (rt rd sa : BitVec 5)
  /-- `DSRA32` (rule R521). -/
  | dsra32 (rt rd sa : BitVec 5)
  /-- `MULT` (rule R530). -/
  | mult (rs rt : BitVec 5)
  /-- `MULTU` (rule R531). -/
  | multu (rs rt : BitVec 5)
  /-- `DIV` (rule R532). -/
  | div (rs rt : BitVec 5)
  /-- `DIVU` (rule R533). -/
  | divu (rs rt : BitVec 5)
  /-- `DMULT` (rule R534). -/
  | dmult (rs rt : BitVec 5)
  /-- `DMULTU` (rule R535). -/
  | dmultu (rs rt : BitVec 5)
  /-- `DDIV` (rule R536). -/
  | ddiv (rs rt : BitVec 5)
  /-- `DDIVU` (rule R537). -/
  | ddivu (rs rt : BitVec 5)
  /-- `MFHI` (rule R540). -/
  | mfhi (rd : BitVec 5)
  /-- `MTHI` (rule R542). -/
  | mthi (rs : BitVec 5)
  /-- `MFLO` (rule R541). -/
  | mflo (rd : BitVec 5)
  /-- `MTLO` (rule R543). -/
  | mtlo (rs : BitVec 5)
  /-- `JR` (rule R572). -/
  | jr (rs : BitVec 5)
  /-- `JALR` (rule R573). -/
  | jalr (rs rd : BitVec 5)
  /-- `MOVF` (rule R632). -/
  | movf (rs : BitVec 5) (cc : BitVec 3) (rd : BitVec 5)
  /-- `MOVT` (rule R632). -/
  | movt (rs : BitVec 5) (cc : BitVec 3) (rd : BitVec 5)
  /-- `SYSCALL` (rule R600). -/
  | syscall (code : BitVec 20)
  /-- `BREAK` (rule R601). -/
  | brk (code : BitVec 20)
  /-- `SYNC` (rule R603). -/
  | sync (stype : BitVec 5)
  /-- `TGE` (rule R605). -/
  | tge (rs rt : BitVec 5) (code : BitVec 10)
  /-- `TGEU` (rule R606). -/
  | tgeu (rs rt : BitVec 5) (code : BitVec 10)
  /-- `TLT` (rule R607). -/
  | tlt (rs rt : BitVec 5) (code : BitVec 10)
  /-- `TLTU` (rule R608). -/
  | tltu (rs rt : BitVec 5) (code : BitVec 10)
  /-- `TEQ` (rule R609). -/
  | teq (rs rt : BitVec 5) (code : BitVec 10)
  /-- `TNE` (rule R610). -/
  | tne (rs rt : BitVec 5) (code : BitVec 10)
  /-- `BLTZ` (rule R578). -/
  | bltz (rs : BitVec 5) (offset : BitVec 16)
  /-- `BGEZ` (rule R579). -/
  | bgez (rs : BitVec 5) (offset : BitVec 16)
  /-- `BLTZL` (rule R586). -/
  | bltzl (rs : BitVec 5) (offset : BitVec 16)
  /-- `BGEZL` (rule R587). -/
  | bgezl (rs : BitVec 5) (offset : BitVec 16)
  /-- `BLTZAL` (rule R580). -/
  | bltzal (rs : BitVec 5) (offset : BitVec 16)
  /-- `BGEZAL` (rule R581). -/
  | bgezal (rs : BitVec 5) (offset : BitVec 16)
  /-- `BLTZALL` (rule R588). -/
  | bltzall (rs : BitVec 5) (offset : BitVec 16)
  /-- `BGEZALL` (rule R589). -/
  | bgezall (rs : BitVec 5) (offset : BitVec 16)
  /-- `TGEI` (rule R611). -/
  | tgei (rs : BitVec 5) (imm : BitVec 16)
  /-- `TGEIU` (rule R612). -/
  | tgeiu (rs : BitVec 5) (imm : BitVec 16)
  /-- `TLTI` (rule R613). -/
  | tlti (rs : BitVec 5) (imm : BitVec 16)
  /-- `TLTIU` (rule R614). -/
  | tltiu (rs : BitVec 5) (imm : BitVec 16)
  /-- `TEQI` (rule R615). -/
  | teqi (rs : BitVec 5) (imm : BitVec 16)
  /-- `TNEI` (rule R616). -/
  | tnei (rs : BitVec 5) (imm : BitVec 16)
  /-- `J` (rule R570). -/
  | j (target : BitVec 26)
  /-- `JAL` (rule R571). -/
  | jal (target : BitVec 26)
  /-- `BEQ` (rule R574). -/
  | beq (rs rt : BitVec 5) (offset : BitVec 16)
  /-- `BNE` (rule R575). -/
  | bne (rs rt : BitVec 5) (offset : BitVec 16)
  /-- `BLEZ` (rule R576). -/
  | blez (rs : BitVec 5) (offset : BitVec 16)
  /-- `BGTZ` (rule R577). -/
  | bgtz (rs : BitVec 5) (offset : BitVec 16)
  /-- `BEQL` (rule R582). -/
  | beql (rs rt : BitVec 5) (offset : BitVec 16)
  /-- `BNEL` (rule R583). -/
  | bnel (rs rt : BitVec 5) (offset : BitVec 16)
  /-- `BLEZL` (rule R584). -/
  | blezl (rs : BitVec 5) (offset : BitVec 16)
  /-- `BGTZL` (rule R585). -/
  | bgtzl (rs : BitVec 5) (offset : BitVec 16)
  /-- `ADDI` (rule R484). -/
  | addi (rs rt : BitVec 5) (imm : BitVec 16)
  /-- `ADDIU` (rule R485). -/
  | addiu (rs rt : BitVec 5) (imm : BitVec 16)
  /-- `SLTI` (rule R494). -/
  | slti (rs rt : BitVec 5) (imm : BitVec 16)
  /-- `SLTIU` (rule R495). -/
  | sltiu (rs rt : BitVec 5) (imm : BitVec 16)
  /-- `ANDI` (rule R500). -/
  | andi (rs rt : BitVec 5) (imm : BitVec 16)
  /-- `ORI` (rule R501). -/
  | ori (rs rt : BitVec 5) (imm : BitVec 16)
  /-- `XORI` (rule R502). -/
  | xori (rs rt : BitVec 5) (imm : BitVec 16)
  /-- `DADDI` (rule R490). -/
  | daddi (rs rt : BitVec 5) (imm : BitVec 16)
  /-- `DADDIU` (rule R491). -/
  | daddiu (rs rt : BitVec 5) (imm : BitVec 16)
  /-- `LUI` (rule R503). -/
  | lui (rt : BitVec 5) (imm : BitVec 16)
  /-- `LB` (rule R414). -/
  | lb (base rt : BitVec 5) (offset : BitVec 16)
  /-- `LBU` (rule R415). -/
  | lbu (base rt : BitVec 5) (offset : BitVec 16)
  /-- `LH` (rule R416). -/
  | lh (base rt : BitVec 5) (offset : BitVec 16)
  /-- `LHU` (rule R417). -/
  | lhu (base rt : BitVec 5) (offset : BitVec 16)
  /-- `LW` (rule R418). -/
  | lw (base rt : BitVec 5) (offset : BitVec 16)
  /-- `LWU` (rule R419). -/
  | lwu (base rt : BitVec 5) (offset : BitVec 16)
  /-- `LD` (rule R420). -/
  | ld (base rt : BitVec 5) (offset : BitVec 16)
  /-- `SB` (rule R421). -/
  | sb (base rt : BitVec 5) (offset : BitVec 16)
  /-- `SH` (rule R422). -/
  | sh (base rt : BitVec 5) (offset : BitVec 16)
  /-- `SW` (rule R423). -/
  | sw (base rt : BitVec 5) (offset : BitVec 16)
  /-- `SD` (rule R424). -/
  | sd (base rt : BitVec 5) (offset : BitVec 16)
  /-- `LWL` (rule R430). -/
  | lwl (base rt : BitVec 5) (offset : BitVec 16)
  /-- `LWR` (rule R431). -/
  | lwr (base rt : BitVec 5) (offset : BitVec 16)
  /-- `SWL` (rule R432). -/
  | swl (base rt : BitVec 5) (offset : BitVec 16)
  /-- `SWR` (rule R433). -/
  | swr (base rt : BitVec 5) (offset : BitVec 16)
  /-- `LDL` (rule R434). -/
  | ldl (base rt : BitVec 5) (offset : BitVec 16)
  /-- `LDR` (rule R435). -/
  | ldr (base rt : BitVec 5) (offset : BitVec 16)
  /-- `SDL` (rule R436). -/
  | sdl (base rt : BitVec 5) (offset : BitVec 16)
  /-- `SDR` (rule R437). -/
  | sdr (base rt : BitVec 5) (offset : BitVec 16)
  /-- `LL` (rule R440). -/
  | ll (base rt : BitVec 5) (offset : BitVec 16)
  /-- `LLD` (rule R441). -/
  | lld (base rt : BitVec 5) (offset : BitVec 16)
  /-- `SC` (rule R442). -/
  | sc (base rt : BitVec 5) (offset : BitVec 16)
  /-- `SCD` (rule R443). -/
  | scd (base rt : BitVec 5) (offset : BitVec 16)
  /-- `CACHE_Index_Invalidate_I` (rule R386). -/
  | cacheIndexInvalidateI (base : BitVec 5) (offset : BitVec 16)
  /-- `CACHE_Index_Writeback_Invalidate_D` (rule R387). -/
  | cacheIndexWritebackInvalidateD (base : BitVec 5) (offset : BitVec 16)
  /-- `CACHE_Flash_Invalidate_T` (rule R388). -/
  | cacheFlashInvalidateT (base : BitVec 5) (offset : BitVec 16)
  /-- `CACHE_Index_Writeback_Invalidate_S` (rule R387). -/
  | cacheIndexWritebackInvalidateS (base : BitVec 5) (offset : BitVec 16)
  /-- `CACHE_Index_Load_Tag_I` (rule R389). -/
  | cacheIndexLoadTagI (base : BitVec 5) (offset : BitVec 16)
  /-- `CACHE_Index_Load_Tag_D` (rule R389). -/
  | cacheIndexLoadTagD (base : BitVec 5) (offset : BitVec 16)
  /-- `CACHE_Index_Load_Tag_T` (rule R389). -/
  | cacheIndexLoadTagT (base : BitVec 5) (offset : BitVec 16)
  /-- `CACHE_Index_Load_Tag_S` (rule R389). -/
  | cacheIndexLoadTagS (base : BitVec 5) (offset : BitVec 16)
  /-- `CACHE_Index_Store_Tag_I` (rule R390). -/
  | cacheIndexStoreTagI (base : BitVec 5) (offset : BitVec 16)
  /-- `CACHE_Index_Store_Tag_D` (rule R390). -/
  | cacheIndexStoreTagD (base : BitVec 5) (offset : BitVec 16)
  /-- `CACHE_Index_Store_Tag_T` (rule R390). -/
  | cacheIndexStoreTagT (base : BitVec 5) (offset : BitVec 16)
  /-- `CACHE_Index_Store_Tag_S` (rule R390). -/
  | cacheIndexStoreTagS (base : BitVec 5) (offset : BitVec 16)
  /-- `CACHE_Create_Dirty_Exclusive_D` (rule R391). -/
  | cacheCreateDirtyExclusiveD (base : BitVec 5) (offset : BitVec 16)
  /-- `CACHE_Hit_Invalidate_I` (rule R392). -/
  | cacheHitInvalidateI (base : BitVec 5) (offset : BitVec 16)
  /-- `CACHE_Hit_Invalidate_D` (rule R392). -/
  | cacheHitInvalidateD (base : BitVec 5) (offset : BitVec 16)
  /-- `CACHE_Hit_Invalidate_S` (rule R392). -/
  | cacheHitInvalidateS (base : BitVec 5) (offset : BitVec 16)
  /-- `CACHE_Fill_I` (rule R394). -/
  | cacheFillI (base : BitVec 5) (offset : BitVec 16)
  /-- `CACHE_Hit_Writeback_Invalidate_D` (rule R393). -/
  | cacheHitWritebackInvalidateD (base : BitVec 5) (offset : BitVec 16)
  /-- `CACHE_Page_Invalidate_T` (rule R395). -/
  | cachePageInvalidateT (base : BitVec 5) (offset : BitVec 16)
  /-- `CACHE_Hit_Writeback_Invalidate_S` (rule R393). -/
  | cacheHitWritebackInvalidateS (base : BitVec 5) (offset : BitVec 16)
  /-- `CACHE_Hit_Writeback_I` (rule R396). -/
  | cacheHitWritebackI (base : BitVec 5) (offset : BitVec 16)
  /-- `CACHE_Hit_Writeback_D` (rule R396). -/
  | cacheHitWritebackD (base : BitVec 5) (offset : BitVec 16)
  /-- `CACHE_Hit_Writeback_S` (rule R396). -/
  | cacheHitWritebackS (base : BitVec 5) (offset : BitVec 16)
  /-- `CACHE_op_0x0C__undefined` (rule R382). -/
  | cacheOp0C (base : BitVec 5) (offset : BitVec 16)
  /-- `CACHE_op_0x0E__undefined` (rule R382). -/
  | cacheOp0E (base : BitVec 5) (offset : BitVec 16)
  /-- `CACHE_op_0x0F__undefined` (rule R382). -/
  | cacheOp0F (base : BitVec 5) (offset : BitVec 16)
  /-- `CACHE_op_0x12__undefined` (rule R382). -/
  | cacheOp12 (base : BitVec 5) (offset : BitVec 16)
  /-- `CACHE_op_0x1A__undefined` (rule R382). -/
  | cacheOp1A (base : BitVec 5) (offset : BitVec 16)
  /-- `CACHE_op_0x1C__undefined` (rule R382). -/
  | cacheOp1C (base : BitVec 5) (offset : BitVec 16)
  /-- `CACHE_op_0x1D__undefined` (rule R382). -/
  | cacheOp1D (base : BitVec 5) (offset : BitVec 16)
  /-- `CACHE_op_0x1E__undefined` (rule R382). -/
  | cacheOp1E (base : BitVec 5) (offset : BitVec 16)
  /-- `CACHE_op_0x1F__undefined` (rule R382). -/
  | cacheOp1F (base : BitVec 5) (offset : BitVec 16)
  /-- `PREF` (rule R640). -/
  | pref (base hint : BitVec 5) (offset : BitVec 16)
  /-- `LWC2` (rule R620). -/
  | lwc2 (base rt : BitVec 5) (offset : BitVec 16)
  /-- `LDC2` (rule R620). -/
  | ldc2 (base rt : BitVec 5) (offset : BitVec 16)
  /-- `SWC2` (rule R620). -/
  | swc2 (base rt : BitVec 5) (offset : BitVec 16)
  /-- `SDC2` (rule R620). -/
  | sdc2 (base rt : BitVec 5) (offset : BitVec 16)
  /-- `COP2` (rule R620). -/
  | cop2 (cofun : BitVec 26)
  /-- `MAD` (rule R401). -/
  | mad (rs rt : BitVec 5)
  /-- `MADU` (rule R402). -/
  | madu (rs rt : BitVec 5)
  /-- `MUL` (rule R403). -/
  | mul (rs rt rd : BitVec 5)
  /-- `MFC0` (rule R352). -/
  | mfc0 (rt rd : BitVec 5)
  /-- `DMFC0` (rule R354). -/
  | dmfc0 (rt rd : BitVec 5)
  /-- `CFC0` (rule R362). -/
  | cfc0 (rt rd : BitVec 5)
  /-- `MTC0` (rule R353). -/
  | mtc0 (rt rd : BitVec 5)
  /-- `DMTC0` (rule R355). -/
  | dmtc0 (rt rd : BitVec 5)
  /-- `CTC0` (rule R363). -/
  | ctc0 (rt rd : BitVec 5)
  /-- `TLBR` (rule R359). -/
  | tlbr
  /-- `TLBWI` (rule R360). -/
  | tlbwi
  /-- `TLBWR` (rule R361). -/
  | tlbwr
  /-- `TLBP` (rule R358). -/
  | tlbp
  /-- `ERET` (rule R356). -/
  | eret
  /-- `WAIT` (rule R357). -/
  | wait
  /-- `MFC1` (rule R690). -/
  | mfc1 (rt fs : BitVec 5)
  /-- `DMFC1` (rule R692). -/
  | dmfc1 (rt fs : BitVec 5)
  /-- `CFC1` (rule R694). -/
  | cfc1 (rt fs : BitVec 5)
  /-- `MTC1` (rule R691). -/
  | mtc1 (rt fs : BitVec 5)
  /-- `DMTC1` (rule R693). -/
  | dmtc1 (rt fs : BitVec 5)
  /-- `CTC1` (rule R695). -/
  | ctc1 (rt fs : BitVec 5)
  /-- `BC1F` (rule R736). -/
  | bc1f (cc : BitVec 3) (offset : BitVec 16)
  /-- `BC1T` (rule R737). -/
  | bc1t (cc : BitVec 3) (offset : BitVec 16)
  /-- `BC1FL` (rule R738). -/
  | bc1fl (cc : BitVec 3) (offset : BitVec 16)
  /-- `BC1TL` (rule R739). -/
  | bc1tl (cc : BitVec 3) (offset : BitVec 16)
  /-- `LWC1` (rule R680). -/
  | lwc1 (base ft : BitVec 5) (offset : BitVec 16)
  /-- `LDC1` (rule R681). -/
  | ldc1 (base ft : BitVec 5) (offset : BitVec 16)
  /-- `SWC1` (rule R682). -/
  | swc1 (base ft : BitVec 5) (offset : BitVec 16)
  /-- `SDC1` (rule R683). -/
  | sdc1 (base ft : BitVec 5) (offset : BitVec 16)
  /-- `ADD.S` (rule R700). -/
  | addS (ft fs fd : BitVec 5)
  /-- `ADD.D` (rule R700). -/
  | addD (ft fs fd : BitVec 5)
  /-- `SUB.S` (rule R701). -/
  | subS (ft fs fd : BitVec 5)
  /-- `SUB.D` (rule R701). -/
  | subD (ft fs fd : BitVec 5)
  /-- `MUL.S` (rule R702). -/
  | mulS (ft fs fd : BitVec 5)
  /-- `MUL.D` (rule R702). -/
  | mulD (ft fs fd : BitVec 5)
  /-- `DIV.S` (rule R703). -/
  | divS (ft fs fd : BitVec 5)
  /-- `DIV.D` (rule R703). -/
  | divD (ft fs fd : BitVec 5)
  /-- `SQRT.S` (rule R704). -/
  | sqrtS (fs fd : BitVec 5)
  /-- `SQRT.D` (rule R704). -/
  | sqrtD (fs fd : BitVec 5)
  /-- `ABS.S` (rule R705). -/
  | absS (fs fd : BitVec 5)
  /-- `ABS.D` (rule R705). -/
  | absD (fs fd : BitVec 5)
  /-- `MOV.S` (rule R706). -/
  | movS (fs fd : BitVec 5)
  /-- `MOV.D` (rule R706). -/
  | movD (fs fd : BitVec 5)
  /-- `NEG.S` (rule R707). -/
  | negS (fs fd : BitVec 5)
  /-- `NEG.D` (rule R707). -/
  | negD (fs fd : BitVec 5)
  /-- `RECIP.S` (rule R708). -/
  | recipS (fs fd : BitVec 5)
  /-- `RECIP.D` (rule R708). -/
  | recipD (fs fd : BitVec 5)
  /-- `RSQRT.S` (rule R709). -/
  | rsqrtS (fs fd : BitVec 5)
  /-- `RSQRT.D` (rule R709). -/
  | rsqrtD (fs fd : BitVec 5)
  /-- `ROUND.L.S` (rule R724). -/
  | roundLS (fs fd : BitVec 5)
  /-- `ROUND.L.D` (rule R724). -/
  | roundLD (fs fd : BitVec 5)
  /-- `TRUNC.L.S` (rule R725). -/
  | truncLS (fs fd : BitVec 5)
  /-- `TRUNC.L.D` (rule R725). -/
  | truncLD (fs fd : BitVec 5)
  /-- `CEIL.L.S` (rule R726). -/
  | ceilLS (fs fd : BitVec 5)
  /-- `CEIL.L.D` (rule R726). -/
  | ceilLD (fs fd : BitVec 5)
  /-- `FLOOR.L.S` (rule R727). -/
  | floorLS (fs fd : BitVec 5)
  /-- `FLOOR.L.D` (rule R727). -/
  | floorLD (fs fd : BitVec 5)
  /-- `ROUND.W.S` (rule R720). -/
  | roundWS (fs fd : BitVec 5)
  /-- `ROUND.W.D` (rule R720). -/
  | roundWD (fs fd : BitVec 5)
  /-- `TRUNC.W.S` (rule R721). -/
  | truncWS (fs fd : BitVec 5)
  /-- `TRUNC.W.D` (rule R721). -/
  | truncWD (fs fd : BitVec 5)
  /-- `CEIL.W.S` (rule R722). -/
  | ceilWS (fs fd : BitVec 5)
  /-- `CEIL.W.D` (rule R722). -/
  | ceilWD (fs fd : BitVec 5)
  /-- `FLOOR.W.S` (rule R723). -/
  | floorWS (fs fd : BitVec 5)
  /-- `FLOOR.W.D` (rule R723). -/
  | floorWD (fs fd : BitVec 5)
  /-- `CVT.W.S` (rule R718). -/
  | cvtWS (fs fd : BitVec 5)
  /-- `CVT.W.D` (rule R718). -/
  | cvtWD (fs fd : BitVec 5)
  /-- `CVT.L.S` (rule R719). -/
  | cvtLS (fs fd : BitVec 5)
  /-- `CVT.L.D` (rule R719). -/
  | cvtLD (fs fd : BitVec 5)
  /-- `CVT.S.D` (rule R716). -/
  | cvtSD (fs fd : BitVec 5)
  /-- `CVT.S.W` (rule R716). -/
  | cvtSW (fs fd : BitVec 5)
  /-- `CVT.S.L` (rule R716). -/
  | cvtSL (fs fd : BitVec 5)
  /-- `CVT.D.S` (rule R717). -/
  | cvtDS (fs fd : BitVec 5)
  /-- `CVT.D.W` (rule R717). -/
  | cvtDW (fs fd : BitVec 5)
  /-- `CVT.D.L` (rule R717). -/
  | cvtDL (fs fd : BitVec 5)
  /-- `MOVF.S` (rule R741). -/
  | movfS (cc : BitVec 3) (fs fd : BitVec 5)
  /-- `MOVT.S` (rule R742). -/
  | movtS (cc : BitVec 3) (fs fd : BitVec 5)
  /-- `MOVZ.S` (rule R744). -/
  | movzS (rt fs fd : BitVec 5)
  /-- `MOVN.S` (rule R743). -/
  | movnS (rt fs fd : BitVec 5)
  /-- `MOVF.D` (rule R741). -/
  | movfD (cc : BitVec 3) (fs fd : BitVec 5)
  /-- `MOVT.D` (rule R742). -/
  | movtD (cc : BitVec 3) (fs fd : BitVec 5)
  /-- `MOVZ.D` (rule R744). -/
  | movzD (rt fs fd : BitVec 5)
  /-- `MOVN.D` (rule R743). -/
  | movnD (rt fs fd : BitVec 5)
  /-- `C.F.S` (rule R730). -/
  | cFS (ft fs : BitVec 5) (cc : BitVec 3)
  /-- `C.UN.S` (rule R730). -/
  | cUnS (ft fs : BitVec 5) (cc : BitVec 3)
  /-- `C.EQ.S` (rule R730). -/
  | cEqS (ft fs : BitVec 5) (cc : BitVec 3)
  /-- `C.UEQ.S` (rule R730). -/
  | cUeqS (ft fs : BitVec 5) (cc : BitVec 3)
  /-- `C.OLT.S` (rule R730). -/
  | cOltS (ft fs : BitVec 5) (cc : BitVec 3)
  /-- `C.ULT.S` (rule R730). -/
  | cUltS (ft fs : BitVec 5) (cc : BitVec 3)
  /-- `C.OLE.S` (rule R730). -/
  | cOleS (ft fs : BitVec 5) (cc : BitVec 3)
  /-- `C.ULE.S` (rule R730). -/
  | cUleS (ft fs : BitVec 5) (cc : BitVec 3)
  /-- `C.SF.S` (rule R730). -/
  | cSfS (ft fs : BitVec 5) (cc : BitVec 3)
  /-- `C.NGLE.S` (rule R730). -/
  | cNgleS (ft fs : BitVec 5) (cc : BitVec 3)
  /-- `C.SEQ.S` (rule R730). -/
  | cSeqS (ft fs : BitVec 5) (cc : BitVec 3)
  /-- `C.NGL.S` (rule R730). -/
  | cNglS (ft fs : BitVec 5) (cc : BitVec 3)
  /-- `C.LT.S` (rule R730). -/
  | cLtS (ft fs : BitVec 5) (cc : BitVec 3)
  /-- `C.NGE.S` (rule R730). -/
  | cNgeS (ft fs : BitVec 5) (cc : BitVec 3)
  /-- `C.LE.S` (rule R730). -/
  | cLeS (ft fs : BitVec 5) (cc : BitVec 3)
  /-- `C.NGT.S` (rule R730). -/
  | cNgtS (ft fs : BitVec 5) (cc : BitVec 3)
  /-- `C.F.D` (rule R730). -/
  | cFD (ft fs : BitVec 5) (cc : BitVec 3)
  /-- `C.UN.D` (rule R730). -/
  | cUnD (ft fs : BitVec 5) (cc : BitVec 3)
  /-- `C.EQ.D` (rule R730). -/
  | cEqD (ft fs : BitVec 5) (cc : BitVec 3)
  /-- `C.UEQ.D` (rule R730). -/
  | cUeqD (ft fs : BitVec 5) (cc : BitVec 3)
  /-- `C.OLT.D` (rule R730). -/
  | cOltD (ft fs : BitVec 5) (cc : BitVec 3)
  /-- `C.ULT.D` (rule R730). -/
  | cUltD (ft fs : BitVec 5) (cc : BitVec 3)
  /-- `C.OLE.D` (rule R730). -/
  | cOleD (ft fs : BitVec 5) (cc : BitVec 3)
  /-- `C.ULE.D` (rule R730). -/
  | cUleD (ft fs : BitVec 5) (cc : BitVec 3)
  /-- `C.SF.D` (rule R730). -/
  | cSfD (ft fs : BitVec 5) (cc : BitVec 3)
  /-- `C.NGLE.D` (rule R730). -/
  | cNgleD (ft fs : BitVec 5) (cc : BitVec 3)
  /-- `C.SEQ.D` (rule R730). -/
  | cSeqD (ft fs : BitVec 5) (cc : BitVec 3)
  /-- `C.NGL.D` (rule R730). -/
  | cNglD (ft fs : BitVec 5) (cc : BitVec 3)
  /-- `C.LT.D` (rule R730). -/
  | cLtD (ft fs : BitVec 5) (cc : BitVec 3)
  /-- `C.NGE.D` (rule R730). -/
  | cNgeD (ft fs : BitVec 5) (cc : BitVec 3)
  /-- `C.LE.D` (rule R730). -/
  | cLeD (ft fs : BitVec 5) (cc : BitVec 3)
  /-- `C.NGT.D` (rule R730). -/
  | cNgtD (ft fs : BitVec 5) (cc : BitVec 3)
  /-- `LWXC1` (rule R684). -/
  | lwxc1 (base index fd : BitVec 5)
  /-- `LDXC1` (rule R685). -/
  | ldxc1 (base index fd : BitVec 5)
  /-- `SWXC1` (rule R686). -/
  | swxc1 (base index fs : BitVec 5)
  /-- `SDXC1` (rule R687). -/
  | sdxc1 (base index fs : BitVec 5)
  /-- `PREFX` (rule R640). -/
  | prefx (base index hint : BitVec 5)
  /-- `MADD.S` (rule R711). -/
  | maddS (fr ft fs fd : BitVec 5)
  /-- `MADD.D` (rule R711). -/
  | maddD (fr ft fs fd : BitVec 5)
  /-- `MSUB.S` (rule R712). -/
  | msubS (fr ft fs fd : BitVec 5)
  /-- `MSUB.D` (rule R712). -/
  | msubD (fr ft fs fd : BitVec 5)
  /-- `NMADD.S` (rule R713). -/
  | nmaddS (fr ft fs fd : BitVec 5)
  /-- `NMADD.D` (rule R713). -/
  | nmaddD (fr ft fs fd : BitVec 5)
  /-- `NMSUB.S` (rule R714). -/
  | nmsubS (fr ft fs fd : BitVec 5)
  /-- `NMSUB.D` (rule R714). -/
  | nmsubD (fr ft fs fd : BitVec 5)
deriving DecidableEq, Repr

end Sys2Proof
end

