-- ==== Sys2Proof/Decode.lean ====
section
/-! DEFINITION. Decoding (30_encoding.md rules R300 to R314): total on every word, a reserved encoding is
rejected by the name of its class. Fields that should be zero are ignored (rule R314). After it, the encoder,
written from the same tables, with the should-be-zero fields 0. -/

namespace Sys2Proof

/-- The classes of reserved encodings (rule R312). Each is rejected by name; the step turns it into the
exception the class's rule names. -/
inductive Reserved where
  /-- An undefined major opcode, bits 31:26 (rule R304). -/
  | majorOpcode
  /-- An undefined `SPECIAL` function (rule R305). -/
  | special
  /-- An undefined `REGIMM` sub-opcode (rule R306). -/
  | regimm
  /-- An undefined `COP0` encoding (rule R307). -/
  | cop0
  /-- An undefined `COP1` encoding; `fmt` is bits 25:21, `funct` bits 5:0 (rules R308, R309). -/
  | cop1 (fmt : BitVec 5) (funct : BitVec 6)
  /-- An undefined `COP1X` function (rule R310). -/
  | cop1x
  /-- An undefined function of opcode 28 (rule R311). -/
  | rm7000
  /-- Fewer than four bytes were given: no instruction word. -/
  | truncated
deriving DecidableEq, Repr

/-- Bits 31:26, the major opcode (rule R301). -/
def opF (w : Word) : BitVec 6 := w.extractLsb' 26 6
/-- Bits 25:21. -/
def rsF (w : Word) : BitVec 5 := w.extractLsb' 21 5
/-- Bits 20:16. -/
def rtF (w : Word) : BitVec 5 := w.extractLsb' 16 5
/-- Bits 15:11. -/
def rdF (w : Word) : BitVec 5 := w.extractLsb' 11 5
/-- Bits 10:6. -/
def saF (w : Word) : BitVec 5 := w.extractLsb' 6 5
/-- Bits 5:0, the function field. -/
def functF (w : Word) : BitVec 6 := w.extractLsb' 0 6
/-- Bits 15:0, the immediate or offset. -/
def immF (w : Word) : BitVec 16 := w.extractLsb' 0 16
/-- Bits 25:0, the jump target or the coprocessor-2 function. -/
def targetF (w : Word) : BitVec 26 := w.extractLsb' 0 26
/-- Bits 25:6, the software code of `SYSCALL` and `BREAK`. -/
def codeF (w : Word) : BitVec 20 := w.extractLsb' 6 20
/-- Bits 15:6, the software code of the register traps. -/
def trapCodeF (w : Word) : BitVec 10 := w.extractLsb' 6 10
/-- Bits 20:18, the condition code of the moves and branches. -/
def ccHiF (w : Word) : BitVec 3 := (rtF w).extractLsb' 2 3
/-- Bits 17:16: `nd` (or a zero) and `tf`. -/
def tfF (w : Word) : BitVec 2 := (rtF w).extractLsb' 0 2
/-- Bits 10:8, the condition code a compare writes. -/
def ccLoF (w : Word) : BitVec 3 := (saF w).extractLsb' 2 3

/-- `SPECIAL` (rule R305); function 1 is `MOVCI`. -/
def decodeSpecial (w : Word) : Except Reserved Instr :=
  match (functF w).toNat with
  | 0 => .ok (.sll (rtF w) (rdF w) (saF w))
  | 1 => match (tfF w).toNat with
    | 0 => .ok (.movf (rsF w) (ccHiF w) (rdF w))
    | 1 => .ok (.movt (rsF w) (ccHiF w) (rdF w))
    | _ => .error .special
  | 2 => .ok (.srl (rtF w) (rdF w) (saF w))
  | 3 => .ok (.sra (rtF w) (rdF w) (saF w))
  | 4 => .ok (.sllv (rsF w) (rtF w) (rdF w))
  | 6 => .ok (.srlv (rsF w) (rtF w) (rdF w))
  | 7 => .ok (.srav (rsF w) (rtF w) (rdF w))
  | 8 => .ok (.jr (rsF w))
  | 9 => .ok (.jalr (rsF w) (rdF w))
  | 10 => .ok (.movz (rsF w) (rtF w) (rdF w))
  | 11 => .ok (.movn (rsF w) (rtF w) (rdF w))
  | 12 => .ok (.syscall (codeF w))
  | 13 => .ok (.brk (codeF w))
  | 15 => .ok (.sync (saF w))
  | 16 => .ok (.mfhi (rdF w))
  | 17 => .ok (.mthi (rsF w))
  | 18 => .ok (.mflo (rdF w))
  | 19 => .ok (.mtlo (rsF w))
  | 20 => .ok (.dsllv (rsF w) (rtF w) (rdF w))
  | 22 => .ok (.dsrlv (rsF w) (rtF w) (rdF w))
  | 23 => .ok (.dsrav (rsF w) (rtF w) (rdF w))
  | 24 => .ok (.mult (rsF w) (rtF w))
  | 25 => .ok (.multu (rsF w) (rtF w))
  | 26 => .ok (.div (rsF w) (rtF w))
  | 27 => .ok (.divu (rsF w) (rtF w))
  | 28 => .ok (.dmult (rsF w) (rtF w))
  | 29 => .ok (.dmultu (rsF w) (rtF w))
  | 30 => .ok (.ddiv (rsF w) (rtF w))
  | 31 => .ok (.ddivu (rsF w) (rtF w))
  | 32 => .ok (.add (rsF w) (rtF w) (rdF w))
  | 33 => .ok (.addu (rsF w) (rtF w) (rdF w))
  | 34 => .ok (.sub (rsF w) (rtF w) (rdF w))
  | 35 => .ok (.subu (rsF w) (rtF w) (rdF w))
  | 36 => .ok (.and (rsF w) (rtF w) (rdF w))
  | 37 => .ok (.or (rsF w) (rtF w) (rdF w))
  | 38 => .ok (.xor (rsF w) (rtF w) (rdF w))
  | 39 => .ok (.nor (rsF w) (rtF w) (rdF w))
  | 42 => .ok (.slt (rsF w) (rtF w) (rdF w))
  | 43 => .ok (.sltu (rsF w) (rtF w) (rdF w))
  | 44 => .ok (.dadd (rsF w) (rtF w) (rdF w))
  | 45 => .ok (.daddu (rsF w) (rtF w) (rdF w))
  | 46 => .ok (.dsub (rsF w) (rtF w) (rdF w))
  | 47 => .ok (.dsubu (rsF w) (rtF w) (rdF w))
  | 48 => .ok (.tge (rsF w) (rtF w) (trapCodeF w))
  | 49 => .ok (.tgeu (rsF w) (rtF w) (trapCodeF w))
  | 50 => .ok (.tlt (rsF w) (rtF w) (trapCodeF w))
  | 51 => .ok (.tltu (rsF w) (rtF w) (trapCodeF w))
  | 52 => .ok (.teq (rsF w) (rtF w) (trapCodeF w))
  | 54 => .ok (.tne (rsF w) (rtF w) (trapCodeF w))
  | 56 => .ok (.dsll (rtF w) (rdF w) (saF w))
  | 58 => .ok (.dsrl (rtF w) (rdF w) (saF w))
  | 59 => .ok (.dsra (rtF w) (rdF w) (saF w))
  | 60 => .ok (.dsll32 (rtF w) (rdF w) (saF w))
  | 62 => .ok (.dsrl32 (rtF w) (rdF w) (saF w))
  | 63 => .ok (.dsra32 (rtF w) (rdF w) (saF w))
  | _ => .error .special

/-- `REGIMM` (rule R306). -/
def decodeRegimm (w : Word) : Except Reserved Instr :=
  match (rtF w).toNat with
  | 0 => .ok (.bltz (rsF w) (immF w))
  | 1 => .ok (.bgez (rsF w) (immF w))
  | 2 => .ok (.bltzl (rsF w) (immF w))
  | 3 => .ok (.bgezl (rsF w) (immF w))
  | 8 => .ok (.tgei (rsF w) (immF w))
  | 9 => .ok (.tgeiu (rsF w) (immF w))
  | 10 => .ok (.tlti (rsF w) (immF w))
  | 11 => .ok (.tltiu (rsF w) (immF w))
  | 12 => .ok (.teqi (rsF w) (immF w))
  | 14 => .ok (.tnei (rsF w) (immF w))
  | 16 => .ok (.bltzal (rsF w) (immF w))
  | 17 => .ok (.bgezal (rsF w) (immF w))
  | 18 => .ok (.bltzall (rsF w) (immF w))
  | 19 => .ok (.bgezall (rsF w) (immF w))
  | _ => .error .regimm

/-- `COP0` (rule R307): bit 25 selects between the moves and the operations. -/
def decodeCop0 (w : Word) : Except Reserved Instr :=
  if (rsF w).getLsbD 4 then
    match (functF w).toNat with
    | 1 => .ok .tlbr
    | 2 => .ok .tlbwi
    | 6 => .ok .tlbwr
    | 8 => .ok .tlbp
    | 24 => .ok .eret
    | 32 => .ok .wait
    | _ => .error .cop0
  else
    match (rsF w).toNat with
    | 0 => .ok (.mfc0 (rtF w) (rdF w))
    | 1 => .ok (.dmfc0 (rtF w) (rdF w))
    | 2 => .ok (.cfc0 (rtF w) (rdF w))
    | 4 => .ok (.mtc0 (rtF w) (rdF w))
    | 5 => .ok (.dmtc0 (rtF w) (rdF w))
    | 6 => .ok (.ctc0 (rtF w) (rdF w))
    | _ => .error .cop0

/-- The `COP1` function map with `fmt` = S (rule R309). -/
noncomputable def decodeFmtS (w : Word) : Except Reserved Instr :=
  match (functF w).toNat with
  | 0 => .ok (.addS (rtF w) (rdF w) (saF w))
  | 1 => .ok (.subS (rtF w) (rdF w) (saF w))
  | 2 => .ok (.mulS (rtF w) (rdF w) (saF w))
  | 3 => .ok (.divS (rtF w) (rdF w) (saF w))
  | 4 => .ok (.sqrtS (rdF w) (saF w))
  | 5 => .ok (.absS (rdF w) (saF w))
  | 6 => .ok (.movS (rdF w) (saF w))
  | 7 => .ok (.negS (rdF w) (saF w))
  | 8 => .ok (.roundLS (rdF w) (saF w))
  | 9 => .ok (.truncLS (rdF w) (saF w))
  | 10 => .ok (.ceilLS (rdF w) (saF w))
  | 11 => .ok (.floorLS (rdF w) (saF w))
  | 12 => .ok (.roundWS (rdF w) (saF w))
  | 13 => .ok (.truncWS (rdF w) (saF w))
  | 14 => .ok (.ceilWS (rdF w) (saF w))
  | 15 => .ok (.floorWS (rdF w) (saF w))
  | 17 => match (tfF w).toNat with
    | 0 => .ok (.movfS (ccHiF w) (rdF w) (saF w))
    | 1 => .ok (.movtS (ccHiF w) (rdF w) (saF w))
    | _ => .error (.cop1 (rsF w) (functF w))
  | 18 => .ok (.movzS (rtF w) (rdF w) (saF w))
  | 19 => .ok (.movnS (rtF w) (rdF w) (saF w))
  | 21 => .ok (.recipS (rdF w) (saF w))
  | 22 => .ok (.rsqrtS (rdF w) (saF w))
  | 33 => .ok (.cvtDS (rdF w) (saF w))
  | 36 => .ok (.cvtWS (rdF w) (saF w))
  | 37 => .ok (.cvtLS (rdF w) (saF w))
  | 48 => .ok (.cFS (rtF w) (rdF w) (ccLoF w))
  | 49 => .ok (.cUnS (rtF w) (rdF w) (ccLoF w))
  | 50 => .ok (.cEqS (rtF w) (rdF w) (ccLoF w))
  | 51 => .ok (.cUeqS (rtF w) (rdF w) (ccLoF w))
  | 52 => .ok (.cOltS (rtF w) (rdF w) (ccLoF w))
  | 53 => .ok (.cUltS (rtF w) (rdF w) (ccLoF w))
  | 54 => .ok (.cOleS (rtF w) (rdF w) (ccLoF w))
  | 55 => .ok (.cUleS (rtF w) (rdF w) (ccLoF w))
  | 56 => .ok (.cSfS (rtF w) (rdF w) (ccLoF w))
  | 57 => .ok (.cNgleS (rtF w) (rdF w) (ccLoF w))
  | 58 => .ok (.cSeqS (rtF w) (rdF w) (ccLoF w))
  | 59 => .ok (.cNglS (rtF w) (rdF w) (ccLoF w))
  | 60 => .ok (.cLtS (rtF w) (rdF w) (ccLoF w))
  | 61 => .ok (.cNgeS (rtF w) (rdF w) (ccLoF w))
  | 62 => .ok (.cLeS (rtF w) (rdF w) (ccLoF w))
  | 63 => .ok (.cNgtS (rtF w) (rdF w) (ccLoF w))
  | _ => .error (.cop1 (rsF w) (functF w))

/-- The `COP1` function map with `fmt` = D (rule R309). -/
noncomputable def decodeFmtD (w : Word) : Except Reserved Instr :=
  match (functF w).toNat with
  | 0 => .ok (.addD (rtF w) (rdF w) (saF w))
  | 1 => .ok (.subD (rtF w) (rdF w) (saF w))
  | 2 => .ok (.mulD (rtF w) (rdF w) (saF w))
  | 3 => .ok (.divD (rtF w) (rdF w) (saF w))
  | 4 => .ok (.sqrtD (rdF w) (saF w))
  | 5 => .ok (.absD (rdF w) (saF w))
  | 6 => .ok (.movD (rdF w) (saF w))
  | 7 => .ok (.negD (rdF w) (saF w))
  | 8 => .ok (.roundLD (rdF w) (saF w))
  | 9 => .ok (.truncLD (rdF w) (saF w))
  | 10 => .ok (.ceilLD (rdF w) (saF w))
  | 11 => .ok (.floorLD (rdF w) (saF w))
  | 12 => .ok (.roundWD (rdF w) (saF w))
  | 13 => .ok (.truncWD (rdF w) (saF w))
  | 14 => .ok (.ceilWD (rdF w) (saF w))
  | 15 => .ok (.floorWD (rdF w) (saF w))
  | 17 => match (tfF w).toNat with
    | 0 => .ok (.movfD (ccHiF w) (rdF w) (saF w))
    | 1 => .ok (.movtD (ccHiF w) (rdF w) (saF w))
    | _ => .error (.cop1 (rsF w) (functF w))
  | 18 => .ok (.movzD (rtF w) (rdF w) (saF w))
  | 19 => .ok (.movnD (rtF w) (rdF w) (saF w))
  | 21 => .ok (.recipD (rdF w) (saF w))
  | 22 => .ok (.rsqrtD (rdF w) (saF w))
  | 32 => .ok (.cvtSD (rdF w) (saF w))
  | 36 => .ok (.cvtWD (rdF w) (saF w))
  | 37 => .ok (.cvtLD (rdF w) (saF w))
  | 48 => .ok (.cFD (rtF w) (rdF w) (ccLoF w))
  | 49 => .ok (.cUnD (rtF w) (rdF w) (ccLoF w))
  | 50 => .ok (.cEqD (rtF w) (rdF w) (ccLoF w))
  | 51 => .ok (.cUeqD (rtF w) (rdF w) (ccLoF w))
  | 52 => .ok (.cOltD (rtF w) (rdF w) (ccLoF w))
  | 53 => .ok (.cUltD (rtF w) (rdF w) (ccLoF w))
  | 54 => .ok (.cOleD (rtF w) (rdF w) (ccLoF w))
  | 55 => .ok (.cUleD (rtF w) (rdF w) (ccLoF w))
  | 56 => .ok (.cSfD (rtF w) (rdF w) (ccLoF w))
  | 57 => .ok (.cNgleD (rtF w) (rdF w) (ccLoF w))
  | 58 => .ok (.cSeqD (rtF w) (rdF w) (ccLoF w))
  | 59 => .ok (.cNglD (rtF w) (rdF w) (ccLoF w))
  | 60 => .ok (.cLtD (rtF w) (rdF w) (ccLoF w))
  | 61 => .ok (.cNgeD (rtF w) (rdF w) (ccLoF w))
  | 62 => .ok (.cLeD (rtF w) (rdF w) (ccLoF w))
  | 63 => .ok (.cNgtD (rtF w) (rdF w) (ccLoF w))
  | _ => .error (.cop1 (rsF w) (functF w))

/-- The `COP1` function map with `fmt` = W (rule R309). -/
def decodeFmtW (w : Word) : Except Reserved Instr :=
  match (functF w).toNat with
  | 32 => .ok (.cvtSW (rdF w) (saF w))
  | 33 => .ok (.cvtDW (rdF w) (saF w))
  | _ => .error (.cop1 (rsF w) (functF w))

/-- The `COP1` function map with `fmt` = L (rule R309). -/
def decodeFmtL (w : Word) : Except Reserved Instr :=
  match (functF w).toNat with
  | 32 => .ok (.cvtSL (rdF w) (saF w))
  | 33 => .ok (.cvtDL (rdF w) (saF w))
  | _ => .error (.cop1 (rsF w) (functF w))

/-- `BC1` (rule R308): bits 17:16 are `nd` and `tf`. -/
def decodeBc1 (w : Word) : Instr :=
  match (tfF w).toNat with
  | 0 => .bc1f (ccHiF w) (immF w)
  | 1 => .bc1t (ccHiF w) (immF w)
  | 2 => .bc1fl (ccHiF w) (immF w)
  | _ => .bc1tl (ccHiF w) (immF w)

/-- `COP1` (rule R308). -/
noncomputable def decodeCop1 (w : Word) : Except Reserved Instr :=
  match (rsF w).toNat with
  | 0 => .ok (.mfc1 (rtF w) (rdF w))
  | 1 => .ok (.dmfc1 (rtF w) (rdF w))
  | 2 => .ok (.cfc1 (rtF w) (rdF w))
  | 4 => .ok (.mtc1 (rtF w) (rdF w))
  | 5 => .ok (.dmtc1 (rtF w) (rdF w))
  | 6 => .ok (.ctc1 (rtF w) (rdF w))
  | 8 => .ok (decodeBc1 w)
  | 16 => decodeFmtS w
  | 17 => decodeFmtD w
  | 20 => decodeFmtW w
  | 21 => decodeFmtL w
  | _ => .error (.cop1 (rsF w) (functF w))

/-- `COP1X` (rule R310). -/
noncomputable def decodeCop1x (w : Word) : Except Reserved Instr :=
  match (functF w).toNat with
  | 0 => .ok (.lwxc1 (rsF w) (rtF w) (saF w))
  | 1 => .ok (.ldxc1 (rsF w) (rtF w) (saF w))
  | 8 => .ok (.swxc1 (rsF w) (rtF w) (rdF w))
  | 9 => .ok (.sdxc1 (rsF w) (rtF w) (rdF w))
  | 15 => .ok (.prefx (rsF w) (rtF w) (rdF w))
  | 32 => .ok (.maddS (rsF w) (rtF w) (rdF w) (saF w))
  | 33 => .ok (.maddD (rsF w) (rtF w) (rdF w) (saF w))
  | 40 => .ok (.msubS (rsF w) (rtF w) (rdF w) (saF w))
  | 41 => .ok (.msubD (rsF w) (rtF w) (rdF w) (saF w))
  | 48 => .ok (.nmaddS (rsF w) (rtF w) (rdF w) (saF w))
  | 49 => .ok (.nmaddD (rsF w) (rtF w) (rdF w) (saF w))
  | 56 => .ok (.nmsubS (rsF w) (rtF w) (rdF w) (saF w))
  | 57 => .ok (.nmsubD (rsF w) (rtF w) (rdF w) (saF w))
  | _ => .error .cop1x

/-- Opcode 28, the RM7000 integer additions (rule R311). -/
def decodeRm7000 (w : Word) : Except Reserved Instr :=
  match (functF w).toNat with
  | 0 => .ok (.mad (rsF w) (rtF w))
  | 1 => .ok (.madu (rsF w) (rtF w))
  | 2 => .ok (.mul (rsF w) (rtF w) (rdF w))
  | _ => .error .rm7000

/-- `CACHE`: the 5-bit `op` field is bits 20:16, one constructor per value (41_cache_instruction.md rule R382). -/
def decodeCache (w : Word) : Instr :=
  match (rtF w).toNat with
  | 0 => .cacheIndexInvalidateI (rsF w) (immF w)
  | 1 => .cacheIndexWritebackInvalidateD (rsF w) (immF w)
  | 2 => .cacheFlashInvalidateT (rsF w) (immF w)
  | 3 => .cacheIndexWritebackInvalidateS (rsF w) (immF w)
  | 4 => .cacheIndexLoadTagI (rsF w) (immF w)
  | 5 => .cacheIndexLoadTagD (rsF w) (immF w)
  | 6 => .cacheIndexLoadTagT (rsF w) (immF w)
  | 7 => .cacheIndexLoadTagS (rsF w) (immF w)
  | 8 => .cacheIndexStoreTagI (rsF w) (immF w)
  | 9 => .cacheIndexStoreTagD (rsF w) (immF w)
  | 10 => .cacheIndexStoreTagT (rsF w) (immF w)
  | 11 => .cacheIndexStoreTagS (rsF w) (immF w)
  | 12 => .cacheOp0C (rsF w) (immF w)
  | 13 => .cacheCreateDirtyExclusiveD (rsF w) (immF w)
  | 14 => .cacheOp0E (rsF w) (immF w)
  | 15 => .cacheOp0F (rsF w) (immF w)
  | 16 => .cacheHitInvalidateI (rsF w) (immF w)
  | 17 => .cacheHitInvalidateD (rsF w) (immF w)
  | 18 => .cacheOp12 (rsF w) (immF w)
  | 19 => .cacheHitInvalidateS (rsF w) (immF w)
  | 20 => .cacheFillI (rsF w) (immF w)
  | 21 => .cacheHitWritebackInvalidateD (rsF w) (immF w)
  | 22 => .cachePageInvalidateT (rsF w) (immF w)
  | 23 => .cacheHitWritebackInvalidateS (rsF w) (immF w)
  | 24 => .cacheHitWritebackI (rsF w) (immF w)
  | 25 => .cacheHitWritebackD (rsF w) (immF w)
  | 26 => .cacheOp1A (rsF w) (immF w)
  | 27 => .cacheHitWritebackS (rsF w) (immF w)
  | 28 => .cacheOp1C (rsF w) (immF w)
  | 29 => .cacheOp1D (rsF w) (immF w)
  | 30 => .cacheOp1E (rsF w) (immF w)
  | _ => .cacheOp1F (rsF w) (immF w)

/-- The decoder: the major opcode map of rule R304. -/
noncomputable def decode (w : Word) : Except Reserved Instr :=
  match (opF w).toNat with
  | 0 => decodeSpecial w
  | 1 => decodeRegimm w
  | 2 => .ok (.j (targetF w))
  | 3 => .ok (.jal (targetF w))
  | 4 => .ok (.beq (rsF w) (rtF w) (immF w))
  | 5 => .ok (.bne (rsF w) (rtF w) (immF w))
  | 6 => .ok (.blez (rsF w) (immF w))
  | 7 => .ok (.bgtz (rsF w) (immF w))
  | 8 => .ok (.addi (rsF w) (rtF w) (immF w))
  | 9 => .ok (.addiu (rsF w) (rtF w) (immF w))
  | 10 => .ok (.slti (rsF w) (rtF w) (immF w))
  | 11 => .ok (.sltiu (rsF w) (rtF w) (immF w))
  | 12 => .ok (.andi (rsF w) (rtF w) (immF w))
  | 13 => .ok (.ori (rsF w) (rtF w) (immF w))
  | 14 => .ok (.xori (rsF w) (rtF w) (immF w))
  | 15 => .ok (.lui (rtF w) (immF w))
  | 16 => decodeCop0 w
  | 17 => decodeCop1 w
  | 18 => .ok (.cop2 (targetF w))
  | 19 => decodeCop1x w
  | 20 => .ok (.beql (rsF w) (rtF w) (immF w))
  | 21 => .ok (.bnel (rsF w) (rtF w) (immF w))
  | 22 => .ok (.blezl (rsF w) (immF w))
  | 23 => .ok (.bgtzl (rsF w) (immF w))
  | 24 => .ok (.daddi (rsF w) (rtF w) (immF w))
  | 25 => .ok (.daddiu (rsF w) (rtF w) (immF w))
  | 26 => .ok (.ldl (rsF w) (rtF w) (immF w))
  | 27 => .ok (.ldr (rsF w) (rtF w) (immF w))
  | 28 => decodeRm7000 w
  | 32 => .ok (.lb (rsF w) (rtF w) (immF w))
  | 33 => .ok (.lh (rsF w) (rtF w) (immF w))
  | 34 => .ok (.lwl (rsF w) (rtF w) (immF w))
  | 35 => .ok (.lw (rsF w) (rtF w) (immF w))
  | 36 => .ok (.lbu (rsF w) (rtF w) (immF w))
  | 37 => .ok (.lhu (rsF w) (rtF w) (immF w))
  | 38 => .ok (.lwr (rsF w) (rtF w) (immF w))
  | 39 => .ok (.lwu (rsF w) (rtF w) (immF w))
  | 40 => .ok (.sb (rsF w) (rtF w) (immF w))
  | 41 => .ok (.sh (rsF w) (rtF w) (immF w))
  | 42 => .ok (.swl (rsF w) (rtF w) (immF w))
  | 43 => .ok (.sw (rsF w) (rtF w) (immF w))
  | 44 => .ok (.sdl (rsF w) (rtF w) (immF w))
  | 45 => .ok (.sdr (rsF w) (rtF w) (immF w))
  | 46 => .ok (.swr (rsF w) (rtF w) (immF w))
  | 47 => .ok (decodeCache w)
  | 48 => .ok (.ll (rsF w) (rtF w) (immF w))
  | 49 => .ok (.lwc1 (rsF w) (rtF w) (immF w))
  | 50 => .ok (.lwc2 (rsF w) (rtF w) (immF w))
  | 51 => .ok (.pref (rsF w) (rtF w) (immF w))
  | 52 => .ok (.lld (rsF w) (rtF w) (immF w))
  | 53 => .ok (.ldc1 (rsF w) (rtF w) (immF w))
  | 54 => .ok (.ldc2 (rsF w) (rtF w) (immF w))
  | 55 => .ok (.ld (rsF w) (rtF w) (immF w))
  | 56 => .ok (.sc (rsF w) (rtF w) (immF w))
  | 57 => .ok (.swc1 (rsF w) (rtF w) (immF w))
  | 58 => .ok (.swc2 (rsF w) (rtF w) (immF w))
  | 60 => .ok (.scd (rsF w) (rtF w) (immF w))
  | 61 => .ok (.sdc1 (rsF w) (rtF w) (immF w))
  | 62 => .ok (.sdc2 (rsF w) (rtF w) (immF w))
  | 63 => .ok (.sd (rsF w) (rtF w) (immF w))
  | _ => .error .majorOpcode

/-- An instruction word from the four bytes at its address, in the base byte order (20_memory.md rule R254). -/
def wordOfBytes (bigEndian : Bool) (b0 b1 b2 b3 : Byte) : Word :=
  if bigEndian then b0 ++ b1 ++ b2 ++ b3 else b3 ++ b2 ++ b1 ++ b0

/-- The bytes of an instruction word, lowest address first (20_memory.md rule R254). -/
def bytesOfWord (bigEndian : Bool) (w : Word) : List Byte :=
  let bs := [w.extractLsb' 24 8, w.extractLsb' 16 8, w.extractLsb' 8 8, w.extractLsb' 0 8]
  if bigEndian then bs else bs.reverse

/-- Decoding of any bytes; fewer than four are refused by name. -/
noncomputable def decodeBytes (bigEndian : Bool) : List Byte → Except Reserved Instr
  | b0 :: b1 :: b2 :: b3 :: _ => decode (wordOfBytes bigEndian b0 b1 b2 b3)
  | _ => .error .truncated

/-- The instruction the decoder reads from an instruction whose low `nbits` bits are `w`, bit 0 the least
significant; every bit above is 0. The word is laid out as a big-endian machine stores it and read back. -/
noncomputable def decodeTableWord (nbits w : Nat) : Option Instr :=
  (decodeBytes true (bytesOfWord true (BitVec.ofNat 32 (w % 2 ^ nbits)))).toOption

/-- R-type layout (rule R302). -/
def rType (op : BitVec 6) (rs rt rd sa : BitVec 5) (funct : BitVec 6) : Word :=
  op ++ rs ++ rt ++ rd ++ sa ++ funct
/-- I-type layout (rule R302). -/
def iType (op : BitVec 6) (rs rt : BitVec 5) (imm : BitVec 16) : Word := op ++ rs ++ rt ++ imm
/-- J-type layout (rule R302). -/
def jType (op : BitVec 6) (target : BitVec 26) : Word := op ++ target
/-- `SYSCALL` and `BREAK`: a 20-bit code in bits 25:6. -/
def codeType (code : BitVec 20) (funct : BitVec 6) : Word := 0#6 ++ code ++ funct
/-- The register traps: a 10-bit code in bits 15:6. -/
def trapType (rs rt : BitVec 5) (code : BitVec 10) (funct : BitVec 6) : Word := 0#6 ++ rs ++ rt ++ code ++ funct
/-- The `rt` slot of the condition-code moves and branches: `cc` in bits 20:18, then bits 17:16. -/
def ccSlot (cc : BitVec 3) (sel : BitVec 2) : BitVec 5 := cc ++ sel

/-- The encoder: the word of an instruction, its should-be-zero fields 0. -/
def encode : Instr → Word
  | .add rs rt rd => rType 0#6 rs rt rd 0#5 32#6
  | .addu rs rt rd => rType 0#6 rs rt rd 0#5 33#6
  | .sub rs rt rd => rType 0#6 rs rt rd 0#5 34#6
  | .subu rs rt rd => rType 0#6 rs rt rd 0#5 35#6
  | .dadd rs rt rd => rType 0#6 rs rt rd 0#5 44#6
  | .daddu rs rt rd => rType 0#6 rs rt rd 0#5 45#6
  | .dsub rs rt rd => rType 0#6 rs rt rd 0#5 46#6
  | .dsubu rs rt rd => rType 0#6 rs rt rd 0#5 47#6
  | .slt rs rt rd => rType 0#6 rs rt rd 0#5 42#6
  | .sltu rs rt rd => rType 0#6 rs rt rd 0#5 43#6
  | .and rs rt rd => rType 0#6 rs rt rd 0#5 36#6
  | .or rs rt rd => rType 0#6 rs rt rd 0#5 37#6
  | .xor rs rt rd => rType 0#6 rs rt rd 0#5 38#6
  | .nor rs rt rd => rType 0#6 rs rt rd 0#5 39#6
  | .sllv rs rt rd => rType 0#6 rs rt rd 0#5 4#6
  | .srlv rs rt rd => rType 0#6 rs rt rd 0#5 6#6
  | .srav rs rt rd => rType 0#6 rs rt rd 0#5 7#6
  | .dsllv rs rt rd => rType 0#6 rs rt rd 0#5 20#6
  | .dsrlv rs rt rd => rType 0#6 rs rt rd 0#5 22#6
  | .dsrav rs rt rd => rType 0#6 rs rt rd 0#5 23#6
  | .movn rs rt rd => rType 0#6 rs rt rd 0#5 11#6
  | .movz rs rt rd => rType 0#6 rs rt rd 0#5 10#6
  | .sll rt rd sa => rType 0#6 0#5 rt rd sa 0#6
  | .srl rt rd sa => rType 0#6 0#5 rt rd sa 2#6
  | .sra rt rd sa => rType 0#6 0#5 rt rd sa 3#6
  | .dsll rt rd sa => rType 0#6 0#5 rt rd sa 56#6
  | .dsrl rt rd sa => rType 0#6 0#5 rt rd sa 58#6
  | .dsra rt rd sa => rType 0#6 0#5 rt rd sa 59#6
  | .dsll32 rt rd sa => rType 0#6 0#5 rt rd sa 60#6
  | .dsrl32 rt rd sa => rType 0#6 0#5 rt rd sa 62#6
  | .dsra32 rt rd sa => rType 0#6 0#5 rt rd sa 63#6
  | .mult rs rt => rType 0#6 rs rt 0#5 0#5 24#6
  | .multu rs rt => rType 0#6 rs rt 0#5 0#5 25#6
  | .div rs rt => rType 0#6 rs rt 0#5 0#5 26#6
  | .divu rs rt => rType 0#6 rs rt 0#5 0#5 27#6
  | .dmult rs rt => rType 0#6 rs rt 0#5 0#5 28#6
  | .dmultu rs rt => rType 0#6 rs rt 0#5 0#5 29#6
  | .ddiv rs rt => rType 0#6 rs rt 0#5 0#5 30#6
  | .ddivu rs rt => rType 0#6 rs rt 0#5 0#5 31#6
  | .mfhi rd => rType 0#6 0#5 0#5 rd 0#5 16#6
  | .mthi rs => rType 0#6 rs 0#5 0#5 0#5 17#6
  | .mflo rd => rType 0#6 0#5 0#5 rd 0#5 18#6
  | .mtlo rs => rType 0#6 rs 0#5 0#5 0#5 19#6
  | .jr rs => rType 0#6 rs 0#5 0#5 0#5 8#6
  | .jalr rs rd => rType 0#6 rs 0#5 rd 0#5 9#6
  | .movf rs cc rd => rType 0#6 rs (ccSlot cc 0#2) rd 0#5 1#6
  | .movt rs cc rd => rType 0#6 rs (ccSlot cc 1#2) rd 0#5 1#6
  | .syscall code => codeType code 12#6
  | .brk code => codeType code 13#6
  | .sync stype => rType 0#6 0#5 0#5 0#5 stype 15#6
  | .tge rs rt code => trapType rs rt code 48#6
  | .tgeu rs rt code => trapType rs rt code 49#6
  | .tlt rs rt code => trapType rs rt code 50#6
  | .tltu rs rt code => trapType rs rt code 51#6
  | .teq rs rt code => trapType rs rt code 52#6
  | .tne rs rt code => trapType rs rt code 54#6
  | .bltz rs offset => iType 1#6 rs 0#5 offset
  | .bgez rs offset => iType 1#6 rs 1#5 offset
  | .bltzl rs offset => iType 1#6 rs 2#5 offset
  | .bgezl rs offset => iType 1#6 rs 3#5 offset
  | .bltzal rs offset => iType 1#6 rs 16#5 offset
  | .bgezal rs offset => iType 1#6 rs 17#5 offset
  | .bltzall rs offset => iType 1#6 rs 18#5 offset
  | .bgezall rs offset => iType 1#6 rs 19#5 offset
  | .tgei rs imm => iType 1#6 rs 8#5 imm
  | .tgeiu rs imm => iType 1#6 rs 9#5 imm
  | .tlti rs imm => iType 1#6 rs 10#5 imm
  | .tltiu rs imm => iType 1#6 rs 11#5 imm
  | .teqi rs imm => iType 1#6 rs 12#5 imm
  | .tnei rs imm => iType 1#6 rs 14#5 imm
  | .j target => jType 2#6 target
  | .jal target => jType 3#6 target
  | .beq rs rt offset => iType 4#6 rs rt offset
  | .bne rs rt offset => iType 5#6 rs rt offset
  | .blez rs offset => iType 6#6 rs 0#5 offset
  | .bgtz rs offset => iType 7#6 rs 0#5 offset
  | .beql rs rt offset => iType 20#6 rs rt offset
  | .bnel rs rt offset => iType 21#6 rs rt offset
  | .blezl rs offset => iType 22#6 rs 0#5 offset
  | .bgtzl rs offset => iType 23#6 rs 0#5 offset
  | .addi rs rt imm => iType 8#6 rs rt imm
  | .addiu rs rt imm => iType 9#6 rs rt imm
  | .slti rs rt imm => iType 10#6 rs rt imm
  | .sltiu rs rt imm => iType 11#6 rs rt imm
  | .andi rs rt imm => iType 12#6 rs rt imm
  | .ori rs rt imm => iType 13#6 rs rt imm
  | .xori rs rt imm => iType 14#6 rs rt imm
  | .daddi rs rt imm => iType 24#6 rs rt imm
  | .daddiu rs rt imm => iType 25#6 rs rt imm
  | .lui rt imm => iType 15#6 0#5 rt imm
  | .lb base rt offset => iType 32#6 base rt offset
  | .lbu base rt offset => iType 36#6 base rt offset
  | .lh base rt offset => iType 33#6 base rt offset
  | .lhu base rt offset => iType 37#6 base rt offset
  | .lw base rt offset => iType 35#6 base rt offset
  | .lwu base rt offset => iType 39#6 base rt offset
  | .ld base rt offset => iType 55#6 base rt offset
  | .sb base rt offset => iType 40#6 base rt offset
  | .sh base rt offset => iType 41#6 base rt offset
  | .sw base rt offset => iType 43#6 base rt offset
  | .sd base rt offset => iType 63#6 base rt offset
  | .lwl base rt offset => iType 34#6 base rt offset
  | .lwr base rt offset => iType 38#6 base rt offset
  | .swl base rt offset => iType 42#6 base rt offset
  | .swr base rt offset => iType 46#6 base rt offset
  | .ldl base rt offset => iType 26#6 base rt offset
  | .ldr base rt offset => iType 27#6 base rt offset
  | .sdl base rt offset => iType 44#6 base rt offset
  | .sdr base rt offset => iType 45#6 base rt offset
  | .ll base rt offset => iType 48#6 base rt offset
  | .lld base rt offset => iType 52#6 base rt offset
  | .sc base rt offset => iType 56#6 base rt offset
  | .scd base rt offset => iType 60#6 base rt offset
  | .cacheIndexInvalidateI base offset => iType 47#6 base 0#5 offset
  | .cacheIndexWritebackInvalidateD base offset => iType 47#6 base 1#5 offset
  | .cacheFlashInvalidateT base offset => iType 47#6 base 2#5 offset
  | .cacheIndexWritebackInvalidateS base offset => iType 47#6 base 3#5 offset
  | .cacheIndexLoadTagI base offset => iType 47#6 base 4#5 offset
  | .cacheIndexLoadTagD base offset => iType 47#6 base 5#5 offset
  | .cacheIndexLoadTagT base offset => iType 47#6 base 6#5 offset
  | .cacheIndexLoadTagS base offset => iType 47#6 base 7#5 offset
  | .cacheIndexStoreTagI base offset => iType 47#6 base 8#5 offset
  | .cacheIndexStoreTagD base offset => iType 47#6 base 9#5 offset
  | .cacheIndexStoreTagT base offset => iType 47#6 base 10#5 offset
  | .cacheIndexStoreTagS base offset => iType 47#6 base 11#5 offset
  | .cacheCreateDirtyExclusiveD base offset => iType 47#6 base 13#5 offset
  | .cacheHitInvalidateI base offset => iType 47#6 base 16#5 offset
  | .cacheHitInvalidateD base offset => iType 47#6 base 17#5 offset
  | .cacheHitInvalidateS base offset => iType 47#6 base 19#5 offset
  | .cacheFillI base offset => iType 47#6 base 20#5 offset
  | .cacheHitWritebackInvalidateD base offset => iType 47#6 base 21#5 offset
  | .cachePageInvalidateT base offset => iType 47#6 base 22#5 offset
  | .cacheHitWritebackInvalidateS base offset => iType 47#6 base 23#5 offset
  | .cacheHitWritebackI base offset => iType 47#6 base 24#5 offset
  | .cacheHitWritebackD base offset => iType 47#6 base 25#5 offset
  | .cacheHitWritebackS base offset => iType 47#6 base 27#5 offset
  | .cacheOp0C base offset => iType 47#6 base 12#5 offset
  | .cacheOp0E base offset => iType 47#6 base 14#5 offset
  | .cacheOp0F base offset => iType 47#6 base 15#5 offset
  | .cacheOp12 base offset => iType 47#6 base 18#5 offset
  | .cacheOp1A base offset => iType 47#6 base 26#5 offset
  | .cacheOp1C base offset => iType 47#6 base 28#5 offset
  | .cacheOp1D base offset => iType 47#6 base 29#5 offset
  | .cacheOp1E base offset => iType 47#6 base 30#5 offset
  | .cacheOp1F base offset => iType 47#6 base 31#5 offset
  | .pref base hint offset => iType 51#6 base hint offset
  | .lwc2 base rt offset => iType 50#6 base rt offset
  | .ldc2 base rt offset => iType 54#6 base rt offset
  | .swc2 base rt offset => iType 58#6 base rt offset
  | .sdc2 base rt offset => iType 62#6 base rt offset
  | .cop2 cofun => jType 18#6 cofun
  | .mad rs rt => rType 28#6 rs rt 0#5 0#5 0#6
  | .madu rs rt => rType 28#6 rs rt 0#5 0#5 1#6
  | .mul rs rt rd => rType 28#6 rs rt rd 0#5 2#6
  | .mfc0 rt rd => rType 16#6 0#5 rt rd 0#5 0#6
  | .dmfc0 rt rd => rType 16#6 1#5 rt rd 0#5 0#6
  | .cfc0 rt rd => rType 16#6 2#5 rt rd 0#5 0#6
  | .mtc0 rt rd => rType 16#6 4#5 rt rd 0#5 0#6
  | .dmtc0 rt rd => rType 16#6 5#5 rt rd 0#5 0#6
  | .ctc0 rt rd => rType 16#6 6#5 rt rd 0#5 0#6
  | .tlbr => rType 16#6 16#5 0#5 0#5 0#5 1#6
  | .tlbwi => rType 16#6 16#5 0#5 0#5 0#5 2#6
  | .tlbwr => rType 16#6 16#5 0#5 0#5 0#5 6#6
  | .tlbp => rType 16#6 16#5 0#5 0#5 0#5 8#6
  | .eret => rType 16#6 16#5 0#5 0#5 0#5 24#6
  | .wait => rType 16#6 16#5 0#5 0#5 0#5 32#6
  | .mfc1 rt fs => rType 17#6 0#5 rt fs 0#5 0#6
  | .dmfc1 rt fs => rType 17#6 1#5 rt fs 0#5 0#6
  | .cfc1 rt fs => rType 17#6 2#5 rt fs 0#5 0#6
  | .mtc1 rt fs => rType 17#6 4#5 rt fs 0#5 0#6
  | .dmtc1 rt fs => rType 17#6 5#5 rt fs 0#5 0#6
  | .ctc1 rt fs => rType 17#6 6#5 rt fs 0#5 0#6
  | .bc1f cc offset => iType 17#6 8#5 (ccSlot cc 0#2) offset
  | .bc1t cc offset => iType 17#6 8#5 (ccSlot cc 1#2) offset
  | .bc1fl cc offset => iType 17#6 8#5 (ccSlot cc 2#2) offset
  | .bc1tl cc offset => iType 17#6 8#5 (ccSlot cc 3#2) offset
  | .lwc1 base ft offset => iType 49#6 base ft offset
  | .ldc1 base ft offset => iType 53#6 base ft offset
  | .swc1 base ft offset => iType 57#6 base ft offset
  | .sdc1 base ft offset => iType 61#6 base ft offset
  | .addS ft fs fd => rType 17#6 16#5 ft fs fd 0#6
  | .addD ft fs fd => rType 17#6 17#5 ft fs fd 0#6
  | .subS ft fs fd => rType 17#6 16#5 ft fs fd 1#6
  | .subD ft fs fd => rType 17#6 17#5 ft fs fd 1#6
  | .mulS ft fs fd => rType 17#6 16#5 ft fs fd 2#6
  | .mulD ft fs fd => rType 17#6 17#5 ft fs fd 2#6
  | .divS ft fs fd => rType 17#6 16#5 ft fs fd 3#6
  | .divD ft fs fd => rType 17#6 17#5 ft fs fd 3#6
  | .sqrtS fs fd => rType 17#6 16#5 0#5 fs fd 4#6
  | .sqrtD fs fd => rType 17#6 17#5 0#5 fs fd 4#6
  | .absS fs fd => rType 17#6 16#5 0#5 fs fd 5#6
  | .absD fs fd => rType 17#6 17#5 0#5 fs fd 5#6
  | .movS fs fd => rType 17#6 16#5 0#5 fs fd 6#6
  | .movD fs fd => rType 17#6 17#5 0#5 fs fd 6#6
  | .negS fs fd => rType 17#6 16#5 0#5 fs fd 7#6
  | .negD fs fd => rType 17#6 17#5 0#5 fs fd 7#6
  | .recipS fs fd => rType 17#6 16#5 0#5 fs fd 21#6
  | .recipD fs fd => rType 17#6 17#5 0#5 fs fd 21#6
  | .rsqrtS fs fd => rType 17#6 16#5 0#5 fs fd 22#6
  | .rsqrtD fs fd => rType 17#6 17#5 0#5 fs fd 22#6
  | .roundLS fs fd => rType 17#6 16#5 0#5 fs fd 8#6
  | .roundLD fs fd => rType 17#6 17#5 0#5 fs fd 8#6
  | .truncLS fs fd => rType 17#6 16#5 0#5 fs fd 9#6
  | .truncLD fs fd => rType 17#6 17#5 0#5 fs fd 9#6
  | .ceilLS fs fd => rType 17#6 16#5 0#5 fs fd 10#6
  | .ceilLD fs fd => rType 17#6 17#5 0#5 fs fd 10#6
  | .floorLS fs fd => rType 17#6 16#5 0#5 fs fd 11#6
  | .floorLD fs fd => rType 17#6 17#5 0#5 fs fd 11#6
  | .roundWS fs fd => rType 17#6 16#5 0#5 fs fd 12#6
  | .roundWD fs fd => rType 17#6 17#5 0#5 fs fd 12#6
  | .truncWS fs fd => rType 17#6 16#5 0#5 fs fd 13#6
  | .truncWD fs fd => rType 17#6 17#5 0#5 fs fd 13#6
  | .ceilWS fs fd => rType 17#6 16#5 0#5 fs fd 14#6
  | .ceilWD fs fd => rType 17#6 17#5 0#5 fs fd 14#6
  | .floorWS fs fd => rType 17#6 16#5 0#5 fs fd 15#6
  | .floorWD fs fd => rType 17#6 17#5 0#5 fs fd 15#6
  | .cvtWS fs fd => rType 17#6 16#5 0#5 fs fd 36#6
  | .cvtWD fs fd => rType 17#6 17#5 0#5 fs fd 36#6
  | .cvtLS fs fd => rType 17#6 16#5 0#5 fs fd 37#6
  | .cvtLD fs fd => rType 17#6 17#5 0#5 fs fd 37#6
  | .cvtSD fs fd => rType 17#6 17#5 0#5 fs fd 32#6
  | .cvtSW fs fd => rType 17#6 20#5 0#5 fs fd 32#6
  | .cvtSL fs fd => rType 17#6 21#5 0#5 fs fd 32#6
  | .cvtDS fs fd => rType 17#6 16#5 0#5 fs fd 33#6
  | .cvtDW fs fd => rType 17#6 20#5 0#5 fs fd 33#6
  | .cvtDL fs fd => rType 17#6 21#5 0#5 fs fd 33#6
  | .movfS cc fs fd => rType 17#6 16#5 (ccSlot cc 0#2) fs fd 17#6
  | .movtS cc fs fd => rType 17#6 16#5 (ccSlot cc 1#2) fs fd 17#6
  | .movzS rt fs fd => rType 17#6 16#5 rt fs fd 18#6
  | .movnS rt fs fd => rType 17#6 16#5 rt fs fd 19#6
  | .movfD cc fs fd => rType 17#6 17#5 (ccSlot cc 0#2) fs fd 17#6
  | .movtD cc fs fd => rType 17#6 17#5 (ccSlot cc 1#2) fs fd 17#6
  | .movzD rt fs fd => rType 17#6 17#5 rt fs fd 18#6
  | .movnD rt fs fd => rType 17#6 17#5 rt fs fd 19#6
  | .cFS ft fs cc => rType 17#6 16#5 ft fs (ccSlot cc 0#2) 48#6
  | .cUnS ft fs cc => rType 17#6 16#5 ft fs (ccSlot cc 0#2) 49#6
  | .cEqS ft fs cc => rType 17#6 16#5 ft fs (ccSlot cc 0#2) 50#6
  | .cUeqS ft fs cc => rType 17#6 16#5 ft fs (ccSlot cc 0#2) 51#6
  | .cOltS ft fs cc => rType 17#6 16#5 ft fs (ccSlot cc 0#2) 52#6
  | .cUltS ft fs cc => rType 17#6 16#5 ft fs (ccSlot cc 0#2) 53#6
  | .cOleS ft fs cc => rType 17#6 16#5 ft fs (ccSlot cc 0#2) 54#6
  | .cUleS ft fs cc => rType 17#6 16#5 ft fs (ccSlot cc 0#2) 55#6
  | .cSfS ft fs cc => rType 17#6 16#5 ft fs (ccSlot cc 0#2) 56#6
  | .cNgleS ft fs cc => rType 17#6 16#5 ft fs (ccSlot cc 0#2) 57#6
  | .cSeqS ft fs cc => rType 17#6 16#5 ft fs (ccSlot cc 0#2) 58#6
  | .cNglS ft fs cc => rType 17#6 16#5 ft fs (ccSlot cc 0#2) 59#6
  | .cLtS ft fs cc => rType 17#6 16#5 ft fs (ccSlot cc 0#2) 60#6
  | .cNgeS ft fs cc => rType 17#6 16#5 ft fs (ccSlot cc 0#2) 61#6
  | .cLeS ft fs cc => rType 17#6 16#5 ft fs (ccSlot cc 0#2) 62#6
  | .cNgtS ft fs cc => rType 17#6 16#5 ft fs (ccSlot cc 0#2) 63#6
  | .cFD ft fs cc => rType 17#6 17#5 ft fs (ccSlot cc 0#2) 48#6
  | .cUnD ft fs cc => rType 17#6 17#5 ft fs (ccSlot cc 0#2) 49#6
  | .cEqD ft fs cc => rType 17#6 17#5 ft fs (ccSlot cc 0#2) 50#6
  | .cUeqD ft fs cc => rType 17#6 17#5 ft fs (ccSlot cc 0#2) 51#6
  | .cOltD ft fs cc => rType 17#6 17#5 ft fs (ccSlot cc 0#2) 52#6
  | .cUltD ft fs cc => rType 17#6 17#5 ft fs (ccSlot cc 0#2) 53#6
  | .cOleD ft fs cc => rType 17#6 17#5 ft fs (ccSlot cc 0#2) 54#6
  | .cUleD ft fs cc => rType 17#6 17#5 ft fs (ccSlot cc 0#2) 55#6
  | .cSfD ft fs cc => rType 17#6 17#5 ft fs (ccSlot cc 0#2) 56#6
  | .cNgleD ft fs cc => rType 17#6 17#5 ft fs (ccSlot cc 0#2) 57#6
  | .cSeqD ft fs cc => rType 17#6 17#5 ft fs (ccSlot cc 0#2) 58#6
  | .cNglD ft fs cc => rType 17#6 17#5 ft fs (ccSlot cc 0#2) 59#6
  | .cLtD ft fs cc => rType 17#6 17#5 ft fs (ccSlot cc 0#2) 60#6
  | .cNgeD ft fs cc => rType 17#6 17#5 ft fs (ccSlot cc 0#2) 61#6
  | .cLeD ft fs cc => rType 17#6 17#5 ft fs (ccSlot cc 0#2) 62#6
  | .cNgtD ft fs cc => rType 17#6 17#5 ft fs (ccSlot cc 0#2) 63#6
  | .lwxc1 base index fd => rType 19#6 base index 0#5 fd 0#6
  | .ldxc1 base index fd => rType 19#6 base index 0#5 fd 1#6
  | .swxc1 base index fs => rType 19#6 base index fs 0#5 8#6
  | .sdxc1 base index fs => rType 19#6 base index fs 0#5 9#6
  | .prefx base index hint => rType 19#6 base index hint 0#5 15#6
  | .maddS fr ft fs fd => rType 19#6 fr ft fs fd 32#6
  | .maddD fr ft fs fd => rType 19#6 fr ft fs fd 33#6
  | .msubS fr ft fs fd => rType 19#6 fr ft fs fd 40#6
  | .msubD fr ft fs fd => rType 19#6 fr ft fs fd 41#6
  | .nmaddS fr ft fs fd => rType 19#6 fr ft fs fd 48#6
  | .nmaddD fr ft fs fd => rType 19#6 fr ft fs fd 49#6
  | .nmsubS fr ft fs fd => rType 19#6 fr ft fs fd 56#6
  | .nmsubD fr ft fs fd => rType 19#6 fr ft fs fd 57#6

end Sys2Proof
end

