-- ==== Sys2Proof/Config.lean ====
section
/-! DEFINITION. What an implementation fixes, and the free values. The fixed numbers are those of
00_scope.md rule R8 and the bit positions of 92_eei_decisions.md D21; the `opaque` constants have no body,
so nothing can be proved of the value they give (log entries 13, 26). Parameters that a cold reset chooses
are plain data in `Machine.State`. -/

namespace Sys2Proof.Config

/-- The `n`-th unspecified value the machine draws (`any(64)`, 00_scope.md rule R14). DESIGN CHOICE, log entry 13. -/
opaque freeWord : Nat → Dword

/-- The contents of a cache line nothing has written since the caches became unspecified: by cache number
(0 I, 1 D, 2 T, 3 S), by the generation of unspecified contents, by line number (20_memory.md rule R290(b)).
DESIGN CHOICE, log entry 26. -/
opaque unknownLine : (cache epoch line : Nat) → BitVec 320

/-- The lost mapping from a line's tag to `TagHi` (10_state.md rule R150). -/
opaque tagHiEncode : (cache : Nat) → (tag : BitVec 24) → Word

/-- The lost mapping from `TagHi` to a line's tag (10_state.md rule R150). -/
opaque tagHiDecode : (cache : Nat) → (bits : Word) → BitVec 24

/-- The predecode bits the processor computes for an instruction-cache line (10_state.md rule R149). -/
opaque preDecode : BitVec 256 → BitVec 12

/-- `Imp`, the implementation number of `PRId` and `FCR0` (00_scope.md rule R3). -/
def imp : Byte := 0x27

/-- The reset vector (00_scope.md rule R8; 60_exceptions.md rule R777). -/
def resetVector : Dword := 0xFFFFFFFFBFC00000

/-- `INTCTL_TE_BIT` (92_eei_decisions.md D21). -/
def intctlTeBit : Nat := 7
/-- `PERF_CE_BIT` (D21). -/
def perfCeBit : Nat := 10
/-- `PERF_UM_BIT` (D21). -/
def perfUmBit : Nat := 9
/-- `PERF_KM_BIT` (D21). -/
def perfKmBit : Nat := 8
/-- `WATCH_ST_BIT` (D21). -/
def watchStBit : Nat := 63
/-- `WATCH_LD_BIT` (D21). -/
def watchLdBit : Nat := 62
/-- `WATCH_IN_BIT` (D21). -/
def watchInBit : Nat := 61
/-- `WMASK_W2_BIT` (D21). -/
def wmaskW2Bit : Nat := 1
/-- `WMASK_W1_BIT` (D21). -/
def wmaskW1Bit : Nat := 0

/-- The single-precision generated quiet NaN, `QNAN_S` (48_fpu.md rule R664; 92_eei_decisions.md D60). -/
def qnanS : Word := 0x7FBFFFFF
/-- The double-precision generated quiet NaN, `QNAN_D` (48_fpu.md rule R664; D60). -/
def qnanD : Dword := 0x7FF7FFFFFFFFFFFF

end Sys2Proof.Config
end

