-- ==== Sys2Proof/Machine/State.lean ====
section
/-! DEFINITION. The state of the machine as plain data: everything 10_state.md gives it, the parameters and
host inputs of 00_scope.md rule R9 and 10_state.md rule R182, the reasons a step can stop, and the state right
after a cold reset. Registers with fields are structures of the fields that exist, so reserved bits read 0 by
construction (10_state.md rule R62). -/

namespace Sys2Proof.Machine

/-! ## Why a step can stop -/

/-- The hazards of 70_reset_and_hazards.md that `HAZARD_CHECK` = strict checks. -/
inductive HazardKind where
  /-- rule R900 -/ | tlbwr
  /-- rule R901 -/ | tlbwi
  /-- rule R902 -/ | tlbr
  /-- rule R903 -/ | tlbp
  /-- rule R904 -/ | jtlbUse
  /-- rule R905 -/ | eret
  /-- rule R905, 92_eei_decisions.md D71 -/ | statusUse
  /-- rule R906 -/ | kseg0Use
  /-- rule R907 -/ | lockDataMiss
  /-- rule R908 -/ | lockInstructionMiss
  /-- rules R908, R913(d) -/ | lockWhileCached
  /-- rule R913(d) -/ | cacheOwnLine
  /-- rule R910 -/ | tlbModifyMapped
  /-- rule R912 -/ | controlInSlot
deriving DecidableEq, Repr

/-- The spec's `UNDEFINED` behaviours (93_implementation_defined.md, treatment `refuse`), one name each: the
machine has no defined successor, so the model stops. All are safe: nothing can be proved of what follows. -/
inductive Fault where
  /-- Raised by a translation or `TLBP` that finds two matching entries (20_memory.md rule R246). Safe. -/
  | multipleTlbMatch
  /-- Raised by a mapped translation that consults an entry with an illegal `Mask` (20_memory.md rule R247). Safe. -/
  | illegalPageMask
  /-- Raised by an access with cache attribute 4 or 5 (20_memory.md rule R262). Safe. -/
  | reservedCacheAttribute
  /-- Raised by a step with `KSU` = 11, `EXL` = `ERL` = 0 (60_exceptions.md rule R840). Safe. -/
  | reservedMode
  /-- Raised by a vectored interrupt with a reserved `IntControl.VS` (60_exceptions.md rule R855). Safe. -/
  | reservedVectorSpacing
  /-- Raised by a jump or branch in a delay slot (45_jump_branch.md rule R561). Safe. -/
  | branchInDelaySlot
  /-- Raised by `ERET` in a delay slot (40_cp0_instructions.md rule R356). Safe. -/
  | eretInDelaySlot
  /-- Raised by a prefetch whose address leaves its base register's region (47_mips4_additions.md rule R640). Safe. -/
  | prefetchRegion
  /-- Raised by `TLBR`, `TLBWI` with `Index` at or above `TLBENTRIES` (40_cp0_instructions.md rules R359, R360). Safe. -/
  | tlbIndexOutOfRange
  /-- Raised by `TLBWR` with `Wired` above the top entry (40_cp0_instructions.md rule R361). Safe. -/
  | wiredOutOfRange
  /-- Raised by an odd FPR number with `FR` = 0 in a formatted operand or a doubleword transfer (48_fpu.md rule R662). Safe. -/
  | oddFpr
  /-- Raised by `Page_Invalidate_T` at an address that is not page-aligned (41_cache_instruction.md rule R395). Safe. -/
  | unalignedPageInvalidate
  /-- Raised by an access to a line software wrote the state Pending (primary) or Reserved (tertiary) to (93 A21),
  explicit caches only; log entry 26. Safe. -/
  | reservedCacheState
  /-- Raised by a fetch from a line whose `PreDec` software altered (93 A3), explicit caches only. Safe. -/
  | preDecodeAltered
  /-- Raised by a cold reset whose mode stream selects a reserved value (70_reset_and_hazards.md rule R874). Safe. -/
  | reservedModeStream
  /-- Raised under `HAZARD_CHECK` = strict when a hazard distance is not kept (70 rule R896). Safe. -/
  | hazard (kind : HazardKind)
deriving DecidableEq, Repr

/-- Accesses the model gives no meaning to, by name. -/
inductive Refusal where
  /-- Raised by an arm of `exec` whose instruction has no meaning yet. Safe. -/
  | notModelled (mnemonic : String)
  /-- Raised by an access to a device window of `PMAP`: what the device does is the platform's
  (20_memory.md rule R251). Safe. -/
  | deviceAccess
  /-- Raised by the `CACHE` codes marked "NA" or not listed (41_cache_instruction.md rule R382). Safe. -/
  | cacheOpUndefined
  /-- Raised by a secondary or tertiary `CACHE` operation when that cache is absent (rule R382). Safe. -/
  | cacheAbsent
deriving DecidableEq, Repr

/-! ## Coprocessor 0 registers -/

/-- `Status` (10_state.md rule R133). -/
structure Status where
  xx : Bool
  cu2 : Bool
  cu1 : Bool
  cu0 : Bool
  co : Bool
  fr : Bool
  re : Bool
  bev : Bool
  sr : Bool
  ch : Bool
  ce : Bool
  de : Bool
  im : BitVec 8
  kx : Bool
  sx : Bool
  ux : Bool
  ksu : BitVec 2
  erl : Bool
  exl : Bool
  ie : Bool
deriving DecidableEq, Repr

/-- The storage bits of `Cause` (10_state.md rule R134); `IP[13:2]` are a view of the interrupt sources. -/
structure Cause where
  bd : Bool
  ce : BitVec 2
  w2 : Bool
  w1 : Bool
  iv : Bool
  ip1 : Bool
  ip0 : Bool
  excCode : BitVec 5
deriving DecidableEq, Repr

/-- `EntryHi` (10_state.md rule R131). -/
structure EntryHi where
  r : BitVec 2
  vpn2 : BitVec 27
  asid : BitVec 8
deriving DecidableEq, Repr

/-- `EntryLo0`, `EntryLo1` (10_state.md rules R123, R124). -/
structure EntryLo where
  pfn : BitVec 24
  c : BitVec 3
  d : Bool
  v : Bool
  g : Bool
deriving DecidableEq, Repr

/-- `Index` (10_state.md rule R121). -/
structure IndexReg where
  p : Bool
  index : BitVec 6
deriving DecidableEq, Repr

/-- `Context` (10_state.md rule R125). -/
structure Context where
  pteBase : BitVec 41
  badVpn2 : BitVec 19
deriving DecidableEq, Repr

/-- `XContext` (10_state.md rule R141). -/
structure XContext where
  pteBase : BitVec 31
  r : BitVec 2
  badVpn2 : BitVec 27
deriving DecidableEq, Repr

/-- The writable fields of `Config` (10_state.md rule R137). -/
structure ConfigReg where
  te : Bool
  se : Bool
  k0 : BitVec 3
deriving DecidableEq, Repr

/-- `Watch1`, `Watch2` (10_state.md rules R139, R140). -/
structure Watch where
  st : Bool
  ld : Bool
  ifetch : Bool
  pa : BitVec 34
deriving DecidableEq, Repr

/-- `WatchMask` (10_state.md rule R145). -/
structure WatchMask where
  mask : BitVec 30
  w2 : Bool
  w1 : Bool
deriving DecidableEq, Repr

/-- `PerfControl` (10_state.md rule R143). -/
structure PerfControl where
  ce : Bool
  um : Bool
  km : Bool
  csf : BitVec 5
deriving DecidableEq, Repr

/-- `ECC` (10_state.md rule R147). -/
structure EccReg where
  ss : Bool
  i : Bool
  d : Bool
  s : Bool
  ea1 : BitVec 4
  ea0 : BitVec 4
  par : BitVec 8
deriving DecidableEq, Repr

/-- `CacheErr` (10_state.md rule R148). -/
structure CacheErr where
  er : Bool
  ec : Bool
  ed : Bool
  et : Bool
  ee : Bool
  eb : Bool
  ei : Bool
  e1 : Bool
  e0 : Bool
  idx : BitVec 19
deriving DecidableEq, Repr

/-- `IntControl` (10_state.md rule R162). -/
structure IntControl where
  im : BitVec 8
  te : Bool
  vs : BitVec 5
deriving DecidableEq, Repr

/-- The CP0 registers of both sets (10_state.md rules R121 to R165). `Info`, `PRId` and the read-only part of
`Config` are computed from the parameters. -/
structure Cp0 where
  index : IndexReg
  random : BitVec 6
  entryLo0 : EntryLo
  entryLo1 : EntryLo
  context : Context
  pageMask : BitVec 12
  wired : BitVec 6
  badVAddr : Dword
  count : Word
  entryHi : EntryHi
  compare : Word
  status : Status
  cause : Cause
  epc : Dword
  config : ConfigReg
  llAddr : Word
  watch1 : Watch
  watch2 : Watch
  xcontext : XContext
  perfControl : PerfControl
  watchMask : WatchMask
  perfCount : Word
  ecc : EccReg
  cacheErr : CacheErr
  tagLo : Word
  tagHi : Word
  errorEpc : Dword
  iplLo : Word
  iplHi : BitVec 24
  intControl : IntControl
  dErrAddr0 : Word
  dErrAddr1 : Word
deriving DecidableEq, Repr

/-- One half (even or odd page) of a JTLB entry. -/
structure TlbPage where
  pfn : BitVec 24
  c : BitVec 3
  d : Bool
  v : Bool
deriving DecidableEq, Repr

/-- A JTLB entry (10_state.md rule R170). -/
structure TlbEntry where
  mask : BitVec 12
  r : BitVec 2
  vpn2 : BitVec 27
  asid : BitVec 8
  g : Bool
  even : TlbPage
  odd : TlbPage
deriving DecidableEq, Repr

/-! ## Floating-point unit -/

/-- Five IEEE exception bits, in the order of the `FCR31` fields (10_state.md rule R53). -/
structure FpFlags where
  v : Bool
  z : Bool
  o : Bool
  u : Bool
  i : Bool
deriving DecidableEq, Repr

/-- `FCR31` (10_state.md rule R53). `cc` has condition bit `n` at bit `n`. -/
structure Fcr31 where
  cc : BitVec 8
  fs : Bool
  causeE : Bool
  cause : FpFlags
  enables : FpFlags
  flags : FpFlags
  rm : BitVec 2
deriving DecidableEq, Repr

/-- The floating-point unit (10_state.md rules R50 to R55). -/
structure Fpu where
  fgr : Vector Dword 32
  fcr31 : Fcr31
deriving DecidableEq, Repr

/-! ## Caches (explicit level only) -/

/-- A primary data-cache line (20_memory.md rule R291); byte `k` of the line is bits `8k+7 : 8k` of `data`, its
parity bit `k` of `par`; `p` and `sp` are the parity of the tag and of the state. -/
structure DLine where
  tag : BitVec 24
  state : BitVec 2
  w : Bool
  b : Bool
  l : Bool
  f : Bool
  p : Bool
  sp : Bool
  par : BitVec 32
  data : BitVec 256
deriving DecidableEq, Repr

/-- A primary instruction-cache line (20_memory.md rule R291). `preDec` is `none` while the hardware's own
predecode bits stand, `some` what software stored; the parity of word `k` is bit `k` of `par`. -/
structure ILine where
  tag : BitVec 24
  state : BitVec 2
  l : Bool
  f : Bool
  p : Bool
  par : BitVec 8
  preDec : Option (BitVec 12)
  data : BitVec 256
deriving DecidableEq, Repr

/-- A secondary-cache line (20_memory.md rule R292): a tag of 24 bits, `pAddr[35:12]`; the parity of doubleword `k` is
bit `k` of `par`. -/
structure SLine where
  tag : BitVec 24
  state : BitVec 3
  l : Bool
  f : Bool
  p : Bool
  sp : Bool
  par : BitVec 4
  data : BitVec 256
deriving DecidableEq, Repr

/-- A tertiary-cache line (20_memory.md rule R292); the parity of doubleword `k` is bit `k` of `par`. -/
structure TLine where
  tag : BitVec 17
  state : BitVec 2
  par : BitVec 4
  data : BitVec 256
deriving DecidableEq, Repr

/-- The caches (10_state.md rule R186): the lines written since their contents last became unspecified, by
line number, numbers strictly rising; a line not listed holds `Config.unknownLine`, but in the tertiary cache after
a flash invalidate (`tcInvalid`) it is Invalid. -/
structure Caches where
  epoch : Nat
  tcEpoch : Nat
  tcInvalid : Bool
  icache : List (Nat × ILine)
  dcache : List (Nat × DLine)
  scache : List (Nat × SLine)
  tcache : List (Nat × TLine)
deriving DecidableEq, Repr

/-! ## Parameters and host inputs -/

/-- The kinds of physical memory `PMAP` distinguishes (20_memory.md rule R251). -/
inductive RegionKind where
  | ram
  | rom
  | device
  | hole
deriving DecidableEq, Repr

/-- A region of the physical address space: `size` bytes from `base`. -/
structure Region where
  base : Nat
  size : Nat
  kind : RegionKind
deriving DecidableEq, Repr

/-- The events `LL_BREAK` may name (92_eei_decisions.md D11). -/
inductive LinkEvent where
  | externalWrite
  | cacheOp
  | invalidate
deriving DecidableEq, Repr

/-- The parameters of 00_scope.md rule R9 and 92_eei_decisions.md Part 2. -/
structure Params where
  bigEndian : Bool
  jtlb64 : Bool
  rev : BitVec 8
  scPresent : Bool
  tcPresent : Bool
  tcSize : BitVec 2
  tmrIntEn : Bool
  sysCkRatio : BitVec 3
  halfClock : Bool
  epPattern : BitVec 4
  writeMode : BitVec 2
  drvOut : BitVec 2
  tcRamType : Bool
  nonPend : Bool
  pmap : List Region
  countStep : Nat
  perfStep : Nat
  llBreak : List LinkEvent
  strictHazards : Bool
  explicitCaches : Bool
  tcBits : Nat
deriving DecidableEq, Repr

/-- The fields of `CacheErr` that describe a parity error and that only the board knows (10_state.md rule R148):
data or tag field, first doubleword of a bus transaction, data error beside an instruction error, secondary error
while a store miss refills. -/
structure ParityBits where
  ed : Bool
  et : Bool
  ee : Bool
  eb : Bool
  ei : Bool
deriving DecidableEq, Repr

/-- The destination of a non-blocking load that failed (60_exceptions.md rule R812). -/
inductive LoadDest where
  | none
  | gpr (r : RegNum)
  | fpr (r : RegNum) (isWide : Bool)
deriving DecidableEq, Repr

/-- An imprecise error (60_exceptions.md rule R812): bus error or parity error with its fields, its physical address,
which `DErrAddr` register reports it, and the destination of the failing load, if there is one. -/
structure ImpreciseError where
  bus : Bool
  bits : ParityBits
  addr : PAddr
  second : Bool
  dest : LoadDest
deriving DecidableEq, Repr

/-- What the board can do between two instructions (10_state.md rule R182; 60_exceptions.md rules R772, R812,
R853, R862). One event is consumed per step. -/
inductive HostEvent where
  /-- Nothing happens at this step. -/
  | quiet
  /-- `ColdReset*` asserted then deasserted, with the mode stream and the `BigEndian` pin (70 rule R870). -/
  | coldReset (mode : BitVec 256) (bigEndianPin : Bool)
  /-- `Reset*` asserted then negated (60 rule R780). -/
  | softReset
  /-- New levels of `Int*[9:0]` and `NMI*`, 1 = asserted (10_state rule R182). -/
  | pins (int : BitVec 10) (nmi : Bool)
  /-- An external request write (60 rule R853). -/
  | externalWrite (addr : PAddr) (data : Word)
  /-- Any other external request (60 rule R862). -/
  | nullRequest
  /-- An imprecise error (60 rule R812): it stays pending until it is reported (10_state rule R188). -/
  | impreciseError (e : ImpreciseError)
  /-- A parity error on the instruction fetch of this step, if it makes one (60 rule R811). -/
  | fetchParity (bits : ParityBits)
  /-- Another bus master writes a byte of memory (20 rule R274). -/
  | dmaWrite (addr : PAddr) (value : Byte)
  /-- An event `LL_BREAK` may name (60 rule R860). -/
  | linkEvent (kind : LinkEvent)
  /-- Whether the system bus is idle (40 rule R357). -/
  | busIdle (idle : Bool)
  /-- A new `COUNT_STEP` (92_eei_decisions.md D13). -/
  | setCountStep (n : Nat)
  /-- A new `PERF_STEP` (92_eei_decisions.md D40). -/
  | setPerfStep (n : Nat)
deriving DecidableEq, Repr

/-- A control register written in a delay slot (70 rule R912): `FCR31`, or a CP0 register of either set. -/
inductive ControlWrite where
  | fcr31
  | cp0 (n : RegNum)
  | cp0Control (n : RegNum)
deriving DecidableEq, Repr

/-- How many more instructions each hazard window of 70_reset_and_hazards.md stays open; for each recent write of
`Status`, how many instructions its window stays open and what `Status` was before it; and the control register
written in the delay slot just executed. The model's own field (log entry 34). -/
structure Hazards where
  tlbwr : Nat
  tlbwi : Nat
  tlbr : Nat
  tlbp : Nat
  jtlbUse : Nat
  eret : Nat
  kseg0Use : Nat
  lockD : Nat
  lockI : Nat
  statusUse : List (Nat × Status)
  controlInSlot : Option ControlWrite
deriving DecidableEq, Repr

/-- The whole machine. -/
structure State where
  /-- `GPR[0..31]` (10_state rule R40); entry 0 is read and written through `Ops` only. -/
  gpr : Vector Dword 32
  /-- `HI` (10_state rule R42). -/
  hi : Dword
  /-- `LO` (10_state rule R42). -/
  lo : Dword
  /-- `PC` (10_state rule R43). -/
  pc : Dword
  /-- `inDelaySlot` (10_state rule R44). -/
  inDelaySlot : Bool
  /-- `branchTarget` (10_state rule R44). -/
  branchTarget : Dword
  /-- The CP0 registers. -/
  cp0 : Cp0
  /-- The floating-point unit. -/
  fpu : Fpu
  /-- The JTLB (10_state rule R170); entries at and above `TLBENTRIES` do not exist. -/
  tlb : Vector TlbEntry 64
  /-- `LLbit` (10_state rule R180). -/
  llBit : Bool
  /-- The Interrupt register (10_state rule R181). -/
  intReg : BitVec 11
  /-- `IntPin[9:0]` (10_state rule R182). -/
  intPin : BitVec 10
  /-- `NMI*` asserted (10_state rule R182). -/
  nmiPin : Bool
  /-- The NMI level of the previous step (60_exceptions rule R781). -/
  nmiLevel : Bool
  /-- `TimerPending` (10_state rule R184). -/
  timerPending : Bool
  /-- `Standby` (10_state rule R187). -/
  standby : Bool
  /-- The system bus is idle (40_cp0_instructions rule R357). -/
  busIdle : Bool
  /-- The caches (10_state rule R186). -/
  caches : Caches
  /-- Physical memory (20_memory rule R251): the bytes that differ from what an unlisted address reads as. -/
  mem : List Host.Cell
  /-- Earlier values of bytes stored with a write-back attribute and not yet written back
  (41_cache_instruction rule R398); the model's own field (log entry 25). -/
  stale : List Host.Cell
  /-- The parameters, latched at cold reset (10_state rule R183). -/
  params : Params
  /-- The imprecise errors not yet reported (10_state rule R188), oldest first. -/
  pendingErrors : List ImpreciseError
  /-- What the board does at the coming steps. -/
  events : List HostEvent
  /-- How many free values have been drawn; the model's own field (log entry 13). -/
  freeCount : Nat
  /-- The open hazard windows. -/
  hazards : Hazards
deriving DecidableEq, Repr

/-! ## The state right after a cold reset -/

/-- `Status` after a cold reset: `ERL` = `BEV` = 1, `SR` = `CO` = 0, the rest DESIGN CHOICE 0 (log entry 3). -/
def Status.reset : Status :=
  { xx := false, cu2 := false, cu1 := false, cu0 := false, co := false, fr := false, re := false, bev := true,
    sr := false, ch := false, ce := false, de := false, im := 0, kx := false, sx := false, ux := false,
    ksu := 0, erl := true, exl := false, ie := false }

/-- `Cause` after a cold reset (10_state.md rule R190). -/
def Cause.reset : Cause :=
  { bd := false, ce := 0, w2 := false, w1 := false, iv := false, ip1 := false, ip0 := false, excCode := 0 }

/-- A Watch register that never matches (10_state.md rule R190). -/
def Watch.reset : Watch := { st := false, ld := false, ifetch := false, pa := 0 }

/-- `EntryLo` as the model names it at reset (log entry 4). -/
def EntryLo.reset : EntryLo := { pfn := 0, c := 0, d := false, v := false, g := false }

/-- The CP0 registers after a cold reset (10_state.md rules R190, R191; log entries 3, 4, 5 for the values the
spec leaves unspecified). `top` is `TLBENTRIES - 1`. -/
def Cp0.reset (top : BitVec 6) : Cp0 :=
  { index := { p := false, index := 0 }
    random := top
    entryLo0 := EntryLo.reset
    entryLo1 := EntryLo.reset
    context := { pteBase := 0, badVpn2 := 0 }
    pageMask := 0
    wired := 0
    badVAddr := 0
    count := 0
    entryHi := { r := 0, vpn2 := 0, asid := 0 }
    compare := 0
    status := Status.reset
    cause := Cause.reset
    epc := 0
    config := { te := false, se := false, k0 := 0 }
    llAddr := 0
    watch1 := Watch.reset
    watch2 := Watch.reset
    xcontext := { pteBase := 0, r := 0, badVpn2 := 0 }
    perfControl := { ce := false, um := false, km := false, csf := 0 }
    watchMask := { mask := 0, w2 := false, w1 := false }
    perfCount := 0
    ecc := { ss := false, i := false, d := false, s := false, ea1 := 0, ea0 := 0, par := 0 }
    cacheErr := { er := false, ec := false, ed := false, et := false, ee := false, eb := false, ei := false,
                  e1 := false, e0 := false, idx := 0 }
    tagLo := 0
    tagHi := 0
    errorEpc := 0
    iplLo := 0
    iplHi := 0
    intControl := { im := 0, te := false, vs := 0 }
    dErrAddr0 := 0
    dErrAddr1 := 0 }

/-- No IEEE exception bit set. -/
def FpFlags.none : FpFlags := { v := false, z := false, o := false, u := false, i := false }

/-- The floating-point unit as the model names it at reset (log entry 2). -/
def Fpu.reset : Fpu :=
  { fgr := Vector.replicate 32 0
    fcr31 := { cc := 0, fs := false, causeE := false, cause := .none, enables := .none, flags := .none, rm := 0 } }

/-- Entry `i` of the JTLB as the model names it at reset, in the manner of Appendix F's `tlb_init`: an invalid entry whose
`VPN2` lies in `kseg1`, different from every other entry's (10_state.md rule R171; log entry 6). -/
def TlbEntry.reset (i : Nat) : TlbEntry :=
  let page : TlbPage := { pfn := 0, c := 0, d := false, v := false }
  { mask := 0, r := 3, vpn2 := 0x7FD0000 + BitVec.ofNat 27 i, asid := 0, g := false, even := page, odd := page }

/-- The platform parameters at reset (log entries 9 to 12, 28). -/
def Params.reset : Params :=
  { bigEndian := true, jtlb64 := false, rev := 0x20, scPresent := true, tcPresent := false, tcSize := 0,
    tmrIntEn := false, sysCkRatio := 0, halfClock := false, epPattern := 0, writeMode := 0, drvOut := 0,
    tcRamType := false, nonPend := false, pmap := [{ base := 0, size := 2 ^ 36, kind := .ram }],
    countStep := 1, perfStep := 1, llBreak := [], strictHazards := false, explicitCaches := false, tcBits := 19 }

/-- No hazard window is open. -/
def Hazards.closed : Hazards :=
  { tlbwr := 0, tlbwi := 0, tlbr := 0, tlbp := 0, jtlbUse := 0, eret := 0, kseg0Use := 0, lockD := 0, lockI := 0,
    statusUse := [], controlInSlot := none }

/-- The machine right after a cold reset (10_state.md rules R190, R191). -/
def State.reset : State :=
  { gpr := Vector.replicate 32 0
    hi := 0
    lo := 0
    pc := Config.resetVector
    inDelaySlot := false
    branchTarget := 0
    cp0 := Cp0.reset 47
    fpu := Fpu.reset
    tlb := ⟨((List.range 64).map TlbEntry.reset).toArray, by simp⟩
    llBit := false
    intReg := 0
    intPin := 0
    nmiPin := false
    nmiLevel := false
    timerPending := false
    standby := false
    busIdle := true
    caches := { epoch := 0, tcEpoch := 0, tcInvalid := false, icache := [], dcache := [], scache := [], tcache := [] }
    mem := []
    stale := []
    params := Params.reset
    pendingErrors := []
    events := []
    freeCount := 0
    hazards := Hazards.closed }

end Sys2Proof.Machine
end

