-- ==== Sys2Proof/Machine/Bits.lean ====
section
/-! DEFINITION. The register views: how each structure of `State` reads as a register of 32 or 64 bits, with
reserved bits 0, and what a software write of such a register stores (10_state.md rules R53, R62, R121 to R165;
40_cp0_instructions.md rule R351(b)). -/

namespace Sys2Proof.Machine

/-- One bit as a bit vector. -/
def bv1 (b : Bool) : BitVec 1 := BitVec.ofBool b

/-- A bit at a position of a 32-bit register. -/
def bit32 (b : Bool) (pos : Nat) : Word := (BitVec.ofBool b).zeroExtend 32 <<< pos

/-- A bit at a position of a 64-bit register. -/
def bit64 (b : Bool) (pos : Nat) : Dword := (BitVec.ofBool b).zeroExtend 64 <<< pos

/-- `sext64` of a 32-bit value (00_scope.md rule R11). -/
def sext32 (w : Word) : Dword := w.signExtend 64

/-- `sext64` of a 16-bit immediate or offset (30_encoding.md rule R315). -/
def sext16 (i : BitVec 16) : Dword := i.signExtend 64

/-- `x[31:0]`. -/
def low32 (x : Dword) : Word := x.truncate 32

/-- `x[63:32]`. -/
def high32 (x : Dword) : Word := x.extractLsb' 32 32

/-- `WordValue(x)`: `x` is the sign extension of its low word (44_computational.md rule R471). -/
def wordValue (x : Dword) : Bool := sext32 (low32 x) == x

/-- `Status` as a register (10_state.md rule R133). -/
def Status.toWord (s : Status) : Word :=
  bv1 s.xx ++ bv1 s.cu2 ++ bv1 s.cu1 ++ bv1 s.cu0 ++ bv1 s.co ++ bv1 s.fr ++
    bv1 s.re ++ 0#2 ++ bv1 s.bev ++ 0#1 ++ bv1 s.sr ++ 0#1 ++ bv1 s.ch ++ bv1 s.ce ++
    bv1 s.de ++ s.im ++ bv1 s.kx ++ bv1 s.sx ++ bv1 s.ux ++ s.ksu ++ bv1 s.erl ++
    bv1 s.exl ++ bv1 s.ie

/-- What a write of `Status` stores: every field (10_state.md rule R133). -/
def Status.ofWord (w : Word) : Status :=
  { xx := w.getLsbD 31, cu2 := w.getLsbD 30, cu1 := w.getLsbD 29, cu0 := w.getLsbD 28, co := w.getLsbD 27
    fr := w.getLsbD 26, re := w.getLsbD 25, bev := w.getLsbD 22, sr := w.getLsbD 20, ch := w.getLsbD 18
    ce := w.getLsbD 17, de := w.getLsbD 16, im := w.extractLsb' 8 8, kx := w.getLsbD 7, sx := w.getLsbD 6
    ux := w.getLsbD 5, ksu := w.extractLsb' 3 2, erl := w.getLsbD 2, exl := w.getLsbD 1, ie := w.getLsbD 0 }

/-- `Cause` as a register, with the interrupt sources `IP[13:2]` (10_state.md rule R134). -/
def Cause.toWord (c : Cause) (ip : BitVec 12) : Word :=
  bv1 c.bd ++ 0#1 ++ c.ce ++ 0#1 ++ bv1 c.w2 ++ bv1 c.w1 ++ bv1 c.iv ++ 0#2 ++ ip ++
    bv1 c.ip1 ++ bv1 c.ip0 ++ 0#1 ++ c.excCode ++ 0#2

/-- A write of `Cause` changes `IV`, `IP1`, `IP0`, `W2`, `W1` only (92_eei_decisions.md D4). -/
def Cause.write (c : Cause) (w : Word) : Cause :=
  { c with w2 := w.getLsbD 26, w1 := w.getLsbD 25, iv := w.getLsbD 24, ip1 := w.getLsbD 9, ip0 := w.getLsbD 8 }

/-- `EntryHi` as a register (10_state.md rule R131). -/
def EntryHi.toDword (e : EntryHi) : Dword := e.r ++ 0#22 ++ e.vpn2 ++ 0#5 ++ e.asid

/-- What a write of `EntryHi` stores. -/
def EntryHi.ofDword (w : Dword) : EntryHi :=
  { r := w.extractLsb' 62 2, vpn2 := w.extractLsb' 13 27, asid := w.extractLsb' 0 8 }

/-- `EntryLo0`, `EntryLo1` as a register (10_state.md rule R123). -/
def EntryLo.toDword (e : EntryLo) : Dword :=
  0#34 ++ e.pfn ++ e.c ++ bv1 e.d ++ bv1 e.v ++ bv1 e.g

/-- What a write of `EntryLo0` or `EntryLo1` stores. -/
def EntryLo.ofDword (w : Dword) : EntryLo :=
  { pfn := w.extractLsb' 6 24, c := w.extractLsb' 3 3, d := w.getLsbD 2, v := w.getLsbD 1, g := w.getLsbD 0 }

/-- `Index` as a register (10_state.md rule R121). -/
def IndexReg.toWord (x : IndexReg) : Word := bv1 x.p ++ 0#25 ++ x.index

/-- A write of `Index` changes the `Index` field only (92_eei_decisions.md D4). -/
def IndexReg.write (x : IndexReg) (w : Word) : IndexReg := { x with index := w.extractLsb' 0 6 }

/-- `Context` as a register (10_state.md rule R125). -/
def Context.toDword (c : Context) : Dword := c.pteBase ++ c.badVpn2 ++ 0#4

/-- A write of `Context` changes `PTEBase` only (92_eei_decisions.md D4). -/
def Context.write (c : Context) (w : Dword) : Context := { c with pteBase := w.extractLsb' 23 41 }

/-- `XContext` as a register (10_state.md rule R141). -/
def XContext.toDword (c : XContext) : Dword := c.pteBase ++ c.r ++ c.badVpn2 ++ 0#4

/-- A write of `XContext` changes `PTEBase` only (92_eei_decisions.md D4). -/
def XContext.write (c : XContext) (w : Dword) : XContext := { c with pteBase := w.extractLsb' 33 31 }

/-- `PageMask` as a register (10_state.md rule R126). -/
def pageMaskWord (mask : BitVec 12) : Word := 0#7 ++ mask ++ 0#13

/-- `Info` as a register: the mode-bit fields, the constants and `AE` reading 0 (10_state.md rule R128). -/
def infoWord (p : Params) : Word :=
  0#3 ++ bv1 p.tcRamType ++ p.drvOut ++ bv1 p.nonPend ++ p.writeMode ++ 4#6 ++ 4#6 ++ 4#6 ++ 2#4 ++ 0#1

/-- `PRId` and `FCR0`: `Imp` and `Rev` (10_state.md rules R52, R136). -/
def pridWord (p : Params) : Word := 0#16 ++ Config.imp ++ p.rev

/-- `Config` as a register (10_state.md rule R137); `CLK` exists in revision 2.x only. -/
def ConfigReg.toWord (c : ConfigReg) (p : Params) : Word :=
  bv1 (!p.scPresent) ++ p.sysCkRatio ++ p.epPattern ++ 1#2 ++ p.tcSize ++ 0#2 ++ bv1 (!p.tcPresent) ++
    bv1 (p.halfClock && decide (0x20 ≤ p.rev.toNat)) ++ bv1 p.bigEndian ++ 1#1 ++ 1#1 ++ bv1 c.te ++
    2#3 ++ 2#3 ++ 1#1 ++ 1#1 ++ bv1 c.se ++ c.k0

/-- A write of `Config` changes bits 12, 3 and 2:0 (10_state.md rule R137). -/
def ConfigReg.ofWord (w : Word) : ConfigReg :=
  { te := w.getLsbD 12, se := w.getLsbD 3, k0 := w.extractLsb' 0 3 }

/-- `Watch1`, `Watch2` as a register (10_state.md rule R139). -/
def Watch.toDword (x : Watch) : Dword :=
  bit64 x.st Config.watchStBit ||| bit64 x.ld Config.watchLdBit ||| bit64 x.ifetch Config.watchInBit |||
    (x.pa.zeroExtend 64 <<< 2)

/-- What a write of a Watch register stores. -/
def Watch.ofDword (w : Dword) : Watch :=
  { st := w.getLsbD Config.watchStBit, ld := w.getLsbD Config.watchLdBit, ifetch := w.getLsbD Config.watchInBit
    pa := w.extractLsb' 2 34 }

/-- `WatchMask` as a register (10_state.md rule R145). -/
def WatchMask.toWord (x : WatchMask) : Word :=
  (x.mask.zeroExtend 32 <<< 2) ||| bit32 x.w2 Config.wmaskW2Bit ||| bit32 x.w1 Config.wmaskW1Bit

/-- What a write of `WatchMask` stores. -/
def WatchMask.ofWord (w : Word) : WatchMask :=
  { mask := w.extractLsb' 2 30, w2 := w.getLsbD Config.wmaskW2Bit, w1 := w.getLsbD Config.wmaskW1Bit }

/-- `PerfControl` as a register (10_state.md rule R143). -/
def PerfControl.toWord (x : PerfControl) : Word :=
  bit32 x.ce Config.perfCeBit ||| bit32 x.um Config.perfUmBit ||| bit32 x.km Config.perfKmBit ||| x.csf.zeroExtend 32

/-- What a write of `PerfControl` stores. -/
def PerfControl.ofWord (w : Word) : PerfControl :=
  { ce := w.getLsbD Config.perfCeBit, um := w.getLsbD Config.perfUmBit, km := w.getLsbD Config.perfKmBit
    csf := w.extractLsb' 0 5 }

/-- `ECC` as a register (10_state.md rule R147). -/
def EccReg.toWord (x : EccReg) : Word :=
  0#3 ++ bv1 x.ss ++ bv1 x.i ++ bv1 x.d ++ bv1 x.s ++ 0#1 ++ x.ea1 ++ x.ea0 ++ 0#8 ++ x.par

/-- A write of `ECC` leaves `EA1` and `EA0` alone (92_eei_decisions.md D4). -/
def EccReg.write (x : EccReg) (w : Word) : EccReg :=
  { x with ss := w.getLsbD 28, i := w.getLsbD 27, d := w.getLsbD 26, s := w.getLsbD 25, par := w.extractLsb' 0 8 }

/-- `CacheErr` as a register (10_state.md rule R148). -/
def CacheErr.toWord (x : CacheErr) : Word :=
  bv1 x.er ++ bv1 x.ec ++ bv1 x.ed ++ bv1 x.et ++ 0#1 ++ bv1 x.ee ++ bv1 x.eb ++
    bv1 x.ei ++ bv1 x.e1 ++ bv1 x.e0 ++ x.idx ++ 0#3

/-- `IntControl` as a register (10_state.md rule R162). -/
def IntControl.toWord (x : IntControl) : Word :=
  (0#16 ++ x.im ++ 0#3 ++ x.vs) ||| bit32 x.te Config.intctlTeBit

/-- What a write of `IntControl` stores. -/
def IntControl.ofWord (w : Word) : IntControl :=
  { im := w.extractLsb' 8 8, te := w.getLsbD Config.intctlTeBit, vs := w.extractLsb' 0 5 }

/-- Five exception bits as a field, `V` highest. -/
def FpFlags.toBits (x : FpFlags) : BitVec 5 :=
  bv1 x.v ++ bv1 x.z ++ bv1 x.o ++ bv1 x.u ++ bv1 x.i

/-- Five exception bits from a field. -/
def FpFlags.ofBits (b : BitVec 5) : FpFlags :=
  { v := b.getLsbD 4, z := b.getLsbD 3, o := b.getLsbD 2, u := b.getLsbD 1, i := b.getLsbD 0 }

/-- `FCR31` as a register (10_state.md rule R53). -/
def Fcr31.toWord (x : Fcr31) : Word :=
  x.cc.extractLsb' 1 7 ++ bv1 x.fs ++ x.cc.extractLsb' 0 1 ++ 0#5 ++ bv1 x.causeE ++ x.cause.toBits ++
    x.enables.toBits ++ x.flags.toBits ++ x.rm

/-- What a write of `FCR31` stores; bits 22:18 are ignored (10_state.md rule R54). -/
def Fcr31.ofWord (w : Word) : Fcr31 :=
  { cc := w.extractLsb' 25 7 ++ w.extractLsb' 23 1, fs := w.getLsbD 24, causeE := w.getLsbD 17
    cause := .ofBits (w.extractLsb' 12 5), enables := .ofBits (w.extractLsb' 7 5)
    flags := .ofBits (w.extractLsb' 2 5), rm := w.extractLsb' 0 2 }

end Sys2Proof.Machine
end

