-- ==== Sys2Proof/Machine/Ops.lean ====
section
/-! DEFINITION. The shared operations over the state: free values, general registers, the operating mode and
its permissions, the advance of the program counter, taking an exception and returning from one, the resets. -/

namespace Sys2Proof.Machine

/-- What a step or a meaning answers. -/
abbrev Out := Host.Outcome State Fault Refusal

/-! ## Free values (log entry 13) -/

/-- The `k`-th unspecified value from here: nothing is known of it. -/
def State.free (s : State) (k : Nat) : Dword := Config.freeWord (s.freeCount + k)

/-- `n` free values have been used up. -/
def State.drew (s : State) (n : Nat) : State := { s with freeCount := s.freeCount + n }

/-! ## Registers -/

/-- `GPR[r]`; `GPR[0]` reads 0 (10_state.md rule R40). -/
def readGpr (s : State) (r : RegNum) : Dword := if r = 0 then 0 else s.gpr[r.toNat]'r.isLt

/-- `GPR[r] <- v`; a write of `GPR[0]` is discarded (10_state.md rule R40). -/
def writeGpr (s : State) (r : RegNum) (v : Dword) : State :=
  if r = 0 then s else { s with gpr := s.gpr.set r.toNat v r.isLt }

/-- The status register of a state. -/
def State.status (s : State) : Status := s.cp0.status

/-! ## Modes and permissions (60_exceptions.md section 7) -/

/-- The operating modes; `reserved` is `KSU` = 11 with `EXL` = `ERL` = 0, in which no instruction executes. -/
inductive Mode where
  | kernel
  | supervisor
  | user
  | reserved
deriving DecidableEq, Repr

/-- `mode()` (60_exceptions.md rule R840). -/
def mode (s : State) : Mode :=
  if s.status.erl || s.status.exl then .kernel
  else match s.status.ksu.toNat with
    | 0 => .kernel
    | 1 => .supervisor
    | 2 => .user
    | _ => .reserved

/-- `Is64()` (60_exceptions.md rule R842). -/
def is64 (s : State) : Bool :=
  match mode s with
  | .kernel => true
  | .supervisor => s.status.sx
  | .user => s.status.ux
  | .reserved => false

/-- `IsMIPS4()` (60_exceptions.md rule R843). -/
def isMips4 (s : State) : Bool :=
  match mode s with
  | .kernel => true
  | .supervisor => true
  | .user => s.status.xx
  | .reserved => false

/-- `CP0Usable` (40_cp0_instructions.md rule R350). -/
def cp0Usable (s : State) : Bool := mode s == .kernel || s.status.cu0

/-- `BigEndianCPU` (20_memory.md rules R252, R253). -/
def bigEndianCpu (s : State) : Bool :=
  xor s.params.bigEndian (s.status.re && mode s == .user)

/-- The number of JTLB entries (00_scope.md rule R8). -/
def tlbSize (s : State) : Nat := if s.params.jtlb64 then 64 else 48

/-- The upper bound of `Random`, `TLBENTRIES - 1` (10_state.md rule R122). -/
def tlbTop (s : State) : BitVec 6 := if s.params.jtlb64 then 63 else 47

/-! ## The program counter (45_jump_branch.md rule R560) -/

/-- The next instruction after one that completes. -/
def advance (s : State) : State :=
  if s.inDelaySlot then { s with pc := s.branchTarget, inDelaySlot := false } else { s with pc := s.pc + 4 }

/-- Execute the delay slot, then continue at `target`. -/
def enterSlot (target : Dword) (s : State) : State :=
  { s with pc := s.pc + 4, inDelaySlot := true, branchTarget := target }

/-- A branch-likely that is not taken skips its delay slot. -/
def nullifySlot (s : State) : State := { s with pc := s.pc + 8 }

/-! ## Exceptions -/

/-- The exceptions of the general entry sequence (60_exceptions.md rule R775). The Boolean of a memory
exception is true for a store. -/
inductive Exc where
  /-- `Int`, with the vector offset of rule R855. -/
  | int (offset : Dword)
  /-- `TLBMod` (rule R802). -/
  | tlbMod (va : Dword)
  /-- TLB Refill and XTLB Refill (rule R800); which vector follows from the address. -/
  | tlbRefill (store : Bool) (xtlb : Bool) (va : Dword)
  /-- TLB Invalid (rule R801). -/
  | tlbInvalid (store : Bool) (va : Dword)
  /-- Address Error (rule R794). -/
  | adE (store : Bool) (va : Dword)
  /-- Precise instruction bus error (rule R815). -/
  | ibe (pa : PAddr)
  /-- Precise data bus error (rule R815). -/
  | dbe (pa : PAddr)
  /-- Imprecise data bus error (rule R812). -/
  | dbeImprecise
  /-- System Call (rule R822). -/
  | sys
  /-- Breakpoint (rule R823). -/
  | bp
  /-- Reserved Instruction (rule R824). -/
  | ri
  /-- Coprocessor Unusable (rule R825). -/
  | cpU (unit : BitVec 2)
  /-- Integer Overflow (rule R820). -/
  | ov
  /-- Trap (rule R821). -/
  | tr
  /-- Floating-Point (rule R826). -/
  | fpe
  /-- Instruction Watch (rule R854), with `W1`, `W2`. -/
  | iwe (w1 w2 : Bool)
  /-- Data Watch (rule R854), with `W1`, `W2`. -/
  | dwe (w1 w2 : Bool)
deriving DecidableEq, Repr

/-- `Cause.ExcCode`, Table 13.9 (60_exceptions.md rule R775). -/
def excCode : Exc → BitVec 5
  | .int _ => 0
  | .tlbMod _ => 1
  | .tlbRefill store _ _ => if store then 3 else 2
  | .tlbInvalid store _ => if store then 3 else 2
  | .adE store _ => if store then 5 else 4
  | .ibe _ => 6
  | .dbe _ => 7
  | .dbeImprecise => 7
  | .sys => 8
  | .bp => 9
  | .ri => 10
  | .cpU _ => 11
  | .ov => 12
  | .tr => 13
  | .fpe => 15
  | .iwe _ _ => 16
  | .dwe _ _ => 23

/-- The vector offset with `EXL` = 0 (60_exceptions.md rules R777, R790). -/
def excOffset : Exc → Dword
  | .int offset => offset
  | .tlbRefill _ xtlb _ => if xtlb then 0x080 else 0x000
  | _ => 0x180

/-- The base of the exception vectors (60_exceptions.md rule R777). -/
def vectorBase (s : State) : Dword :=
  if s.status.bev then 0xFFFFFFFFBFC00200 else 0xFFFFFFFF80000000

/-- Where execution restarts: the instruction, or the branch before it (60_exceptions.md rule R790). -/
def restartPc (s : State) : Dword := if s.inDelaySlot then s.pc - 4 else s.pc

/-- The registers the three TLB exceptions load (60_exceptions.md rule R803); `EntryLo0` and `EntryLo1` are undefined
after them: free values (10_state.md rule R123; 93_implementation_defined.md A13; log entry 33). -/
def loadTlbFault (va : Dword) (s : State) : State :=
  { s.drew 2 with cp0 := { s.cp0 with
      badVAddr := va
      entryHi := { s.cp0.entryHi with r := va.extractLsb' 62 2, vpn2 := va.extractLsb' 13 27 }
      context := { s.cp0.context with badVpn2 := va.extractLsb' 13 19 }
      xcontext := { s.cp0.xcontext with r := va.extractLsb' 62 2, badVpn2 := va.extractLsb' 13 27 }
      entryLo0 := .ofDword (s.free 0)
      entryLo1 := .ofDword (s.free 1) } }

/-- What an Address Error leaves: `BadVAddr`, and free values in the `VPN` fields and in `EntryLo0`, `EntryLo1`
(60_exceptions.md rule R794; 93_implementation_defined.md A13; log entry 33). -/
def loadAddressError (va : Dword) (s : State) : State :=
  { s.drew 5 with cp0 := { s.cp0 with
      badVAddr := va
      entryHi := { s.cp0.entryHi with r := (s.free 0).extractLsb' 62 2, vpn2 := (s.free 0).extractLsb' 13 27 }
      context := { s.cp0.context with badVpn2 := (s.free 1).extractLsb' 13 19 }
      xcontext := { s.cp0.xcontext with r := (s.free 2).extractLsb' 62 2, badVpn2 := (s.free 2).extractLsb' 13 27 }
      entryLo0 := .ofDword (s.free 3)
      entryLo1 := .ofDword (s.free 4) } }

/-- A precise bus error clears `CacheErr.EC` and records the index (60_exceptions.md rule R815). -/
def loadBusError (pa : PAddr) (s : State) : State :=
  { s with cp0 := { s.cp0 with cacheErr := { s.cp0.cacheErr with ec := false, idx := pa.extractLsb' 3 19 } } }

/-- What an exception writes besides the general sequence. -/
def loadExc (e : Exc) (s : State) : State :=
  match e with
  | .tlbMod va => loadTlbFault va s
  | .tlbRefill _ _ va => loadTlbFault va s
  | .tlbInvalid _ va => loadTlbFault va s
  | .adE _ va => loadAddressError va s
  | .ibe pa => loadBusError pa s
  | .dbe pa => loadBusError pa s
  | .iwe w1 w2 => { s with cp0 := { s.cp0 with cause := { s.cp0.cause with w1 := w1, w2 := w2 } } }
  | .dwe w1 w2 => { s with cp0 := { s.cp0 with cause := { s.cp0.cause with w1 := w1, w2 := w2 } } }
  | _ => s

/-- `Cause.CE`: the unit number of a Coprocessor Unusable exception, else a free value (92_eei_decisions.md D69). -/
def loadCe (e : Exc) (s : State) : State :=
  match e with
  | .cpU unit => { s with cp0 := { s.cp0 with cause := { s.cp0.cause with ce := unit } } }
  | _ => { s.drew 1 with cp0 := { s.cp0 with cause := { s.cp0.cause with ce := (s.free 0).truncate 2 } } }

/-- The general sequence once the exception's own registers are loaded (60_exceptions.md rule R790): with `EXL` = 0
`EPC`, `BD` and the exception's vector, with `EXL` = 1 the general vector; it also empties the hazard windows
(70_reset_and_hazards.md rule R896). -/
def enterGeneral (code : BitVec 5) (offset : Dword) (s : State) : State :=
  { s with
    pc := vectorBase s + (if s.status.exl then 0x180 else offset)
    inDelaySlot := false
    hazards := Hazards.closed
    cp0 := { s.cp0 with
      epc := if s.status.exl then s.cp0.epc else restartPc s
      cause := { s.cp0.cause with
        bd := if s.status.exl then s.cp0.cause.bd else s.inDelaySlot
        excCode := code }
      status := { s.cp0.status with exl := true } } }

/-- Taking an exception of the general class (60_exceptions.md rule R790). -/
def takeException (e : Exc) (s : State) : State :=
  enterGeneral (excCode e) (excOffset e) (loadCe e (loadExc e s))

/-- Exception return (40_cp0_instructions.md rule R356; 60_exceptions.md rule R792). -/
def returnFromException (s : State) : State :=
  if s.status.erl then
    { s with
      pc := s.cp0.errorEpc
      llBit := false
      hazards := Hazards.closed
      cp0 := { s.cp0 with status := { s.cp0.status with erl := false } } }
  else
    { s with
      pc := s.cp0.epc
      llBit := false
      hazards := Hazards.closed
      cp0 := { s.cp0 with status := { s.cp0.status with exl := false } } }

/-- Soft Reset and NMI, Figure 13.18 (60_exceptions.md rules R780, R781). -/
def enterSoftReset (s : State) : State :=
  { s with
    pc := Config.resetVector
    inDelaySlot := false
    standby := false
    hazards := Hazards.closed
    cp0 := { s.cp0 with
      errorEpc := restartPc s
      status := { s.cp0.status with bev := true, sr := true, erl := true } } }

/-- Cache Error entry, Figure 13.17, once `CacheErr` is loaded (60_exceptions.md rule R810). -/
def enterCacheError (s : State) : State :=
  { s with
    pc := if s.status.bev then 0xFFFFFFFFBFC00300 else 0xFFFFFFFFA0000100
    inDelaySlot := false
    hazards := Hazards.closed
    cp0 := { s.cp0 with
      errorEpc := restartPc s
      status := { s.cp0.status with erl := true } } }

/-! ## Answers -/

/-- Why an operation inside a meaning does not complete: an exception to take (with the state it is taken in),
a precise cache error, or a stop. -/
inductive Stop where
  | exc (e : Exc) (s : State)
  | cacheError (s : State)
  | fault (f : Fault)
  | refused (r : Refusal)

/-- The answer of a meaning whose operation did not complete. -/
def Stop.answer : Stop → Out
  | .exc e s => .next (takeException e s)
  | .cacheError s => .next (enterCacheError s)
  | .fault f => .fault f
  | .refused r => .refused r

/-- Continue with the value of an operation, or answer why it did not complete. -/
def onOk {α : Type} (x : Except Stop α) (k : α → Out) : Out :=
  match x with
  | .ok a => k a
  | .error e => e.answer

/-- The instruction raises an exception. -/
def raise (e : Exc) (s : State) : Out := .next (takeException e s)

/-- The instruction completes in `s`. -/
def complete (s : State) : Out := .next (advance s)

/-- The instruction completes by writing a general register. -/
def writeResult (r : RegNum) (v : Dword) (s : State) : Out := complete (writeGpr s r v)

/-- MIPS III operations raise Reserved Instruction when disabled (30_encoding.md rule R313). -/
def requireIs64 (s : State) (k : Out) : Out := if is64 s then k else raise .ri s

/-- The integer-side MIPS IV operations raise Reserved Instruction when disabled (30_encoding.md rule R313). -/
def requireMips4 (s : State) (k : Out) : Out := if isMips4 s then k else raise .ri s

/-- CP0 operations raise Coprocessor Unusable when CP0 is not usable (40_cp0_instructions.md rule R350). -/
def requireCp0 (s : State) (k : Out) : Out := if cp0Usable s then k else raise (.cpU 0) s

/-- CP1 operations raise Coprocessor Unusable when `CU1` = 0 (60_exceptions.md rule R825). -/
def requireCu1 (s : State) (k : Out) : Out := if s.status.cu1 then k else raise (.cpU 1) s

/-- A jump or branch: continue at `target` after the delay slot; illegal in a delay slot
(45_jump_branch.md rules R560, R561). -/
def jumpTo (target : Dword) (s : State) : Out :=
  if s.inDelaySlot then .fault .branchInDelaySlot else .next (enterSlot target s)

/-- An ordinary conditional branch: the slot executes whether or not it is taken (45_jump_branch.md rule R560). -/
def branch (taken : Bool) (target : Dword) (s : State) : Out :=
  jumpTo (if taken then target else s.pc + 8) s

/-- A branch-likely: not taken, it nullifies its slot (45_jump_branch.md rule R560). -/
def branchLikely (taken : Bool) (target : Dword) (s : State) : Out :=
  if taken then jumpTo target s
  else if s.inDelaySlot then .fault .branchInDelaySlot else .next (nullifySlot s)

end Sys2Proof.Machine
end

