-- ==== Sys2Proof/Machine/Interrupt.lean ====
section
/-! DEFINITION. Interrupt sources, masks, priorities and vectors (60_exceptions.md section 8). -/

namespace Sys2Proof.Machine

/-- The level of external interrupt `k`: its pin or its Interrupt register bit (60_exceptions.md rule R850). -/
def intLevel (s : State) (k : Nat) : Bool := s.intPin.getLsbD k || s.intReg.getLsbD k

/-- Interrupt source `n` (60_exceptions.md rules R850 to R852). -/
def intSource (s : State) (n : Nat) : Bool :=
  match n with
  | 0 => s.cp0.cause.ip0
  | 1 => s.cp0.cause.ip1
  | 7 => if s.params.tmrIntEn then intLevel s 5 else s.timerPending
  | 12 => s.timerPending && s.cp0.intControl.te
  | 13 => s.cp0.perfCount.getLsbD 31
  | n => decide (2 ≤ n ∧ n ≤ 11) && intLevel s (n - 2)

/-- `IP[13:2]` as `Cause` shows them, `IP2` in bit 0. -/
def ipView (s : State) : BitVec 12 :=
  bv1 (intSource s 13) ++ bv1 (intSource s 12) ++ bv1 (intSource s 11) ++ bv1 (intSource s 10) ++
    bv1 (intSource s 9) ++ bv1 (intSource s 8) ++ bv1 (intSource s 7) ++ bv1 (intSource s 6) ++
    bv1 (intSource s 5) ++ bv1 (intSource s 4) ++ bv1 (intSource s 3) ++ bv1 (intSource s 2)

/-- `Cause` as it reads (10_state.md rule R134). -/
def causeWord (s : State) : Word := s.cp0.cause.toWord (ipView s)

/-- `mask[n]` (60_exceptions.md rule R855). -/
def intMask (s : State) (n : Nat) : Bool :=
  if n < 8 then s.status.im.getLsbD n else s.cp0.intControl.im.getLsbD (n - 8)

/-- `pend[n]`. -/
def intPending (s : State) (n : Nat) : Bool := intSource s n && intMask s n

/-- `enabled`: `IE` = 1, `EXL` = `ERL` = 0. -/
def intEnabled (s : State) : Bool := s.status.ie && !s.status.exl && !s.status.erl

/-- The pending sources. -/
def pendingSources (s : State) : List Nat := (List.range 14).filter (intPending s)

/-- `IntRequest` (60_exceptions.md rule R855). -/
def intRequest (s : State) : Bool := intEnabled s && !(pendingSources s).isEmpty

/-- `IPL(n)` (60_exceptions.md rule R855). -/
def intLevelOf (s : State) (n : Nat) : Nat :=
  if n < 8 then (s.cp0.iplLo.extractLsb' (4 * n) 4).toNat else (s.cp0.iplHi.extractLsb' (4 * (n - 8)) 4).toNat

/-- `IPL(winner)`: the numerically smallest priority level of the pending sources; a tie has one vector
(60_exceptions.md rule R855). -/
def winningLevel (s : State) : Nat := (pendingSources s).foldr (fun n m => min (intLevelOf s n) m) 15

/-- `SPACING`, `none` for the reserved values of `VS`. -/
def vectorSpacing (vs : BitVec 5) : Option Nat :=
  if vs = 0x00 then some 0 else if vs = 0x01 then some 0x020 else if vs = 0x02 then some 0x040
  else if vs = 0x04 then some 0x080 else if vs = 0x08 then some 0x100 else if vs = 0x10 then some 0x200
  else none

/-- The Interrupt exception (60_exceptions.md rule R856); a reserved spacing makes a vectored one `UNDEFINED`. -/
def takeInterrupt (s : State) : Out :=
  if s.cp0.cause.iv then
    match vectorSpacing s.cp0.intControl.vs with
    | some sp => .next (takeException (.int (BitVec.ofNat 64 (0x200 + winningLevel s * sp))) s)
    | none => .fault .reservedVectorSpacing
  else .next (takeException (.int 0x180) s)

/-- The level whose rise requests an NMI (60_exceptions.md rule R781). -/
def nmiNow (s : State) : Bool := s.nmiPin || s.intReg.getLsbD 10

/-- The write of the Interrupt register by an external request, selected bits only (60_exceptions.md rule R853). -/
def writeIntReg (old : BitVec 11) (data : Word) : BitVec 11 :=
  let enables : BitVec 11 := bv1 (data.getLsbD 31) ++ data.extractLsb' 16 10
  let values : BitVec 11 := bv1 (data.getLsbD 15) ++ data.extractLsb' 0 10
  (old &&& ~~~enables) ||| (values &&& enables)

end Sys2Proof.Machine
end

