-- ==== Sys2Proof/Machine/Counters.lean ====
section
/-! DEFINITION. What advances in every step that is not a reset: `Count` and the timer latch, `Random`, `PerfCount`
(60_exceptions.md rules R772, R851, R857; 10_state.md rules R122, R130, R146). -/

namespace Sys2Proof.Machine

/-- `Count` equals or passes `Compare` on its way from `old` (60_exceptions.md rule R851, D13, D73). -/
def timerHit (old compare : Word) (step : Nat) : Bool :=
  let d := (compare - old).toNat
  decide ((1 ≤ d ∧ d ≤ step) ∨ 2 ^ 32 ≤ step)

/-- `Count` advances by `COUNT_STEP`, a positive amount (10_state.md rule R130); the timer latch is set on a match. -/
def stepCount (s : State) : State :=
  { s with
    timerPending := s.timerPending || timerHit s.cp0.count s.cp0.compare s.params.countStep
    cp0 := { s.cp0 with count := s.cp0.count + BitVec.ofNat 32 s.params.countStep } }

/-- `Random` decrements, from the lower bound to the upper (10_state.md rule R122; log entry 14). -/
def stepRandom (s : State) : State :=
  { s with cp0 := { s.cp0 with
      random := if s.cp0.random ≤ s.cp0.wired then tlbTop s else s.cp0.random - 1 } }

/-- Whether the performance counter counts in the current mode; Supervisor counts under `KM` (60_exceptions.md
rule R857, D40). -/
def perfEnabled (s : State) : Bool :=
  s.cp0.perfControl.ce &&
    match mode s with
    | .user => s.cp0.perfControl.um
    | .kernel => s.cp0.perfControl.km
    | .supervisor => s.cp0.perfControl.km
    | .reserved => false

/-- The sources that count nothing: 0x1F, and 0x18 to 0x1E in revision 1.x (60_exceptions.md rule R857). -/
def perfUnused (s : State) : Bool :=
  let n := s.cp0.perfControl.csf.toNat
  n == 0x1F || (decide (0x18 ≤ n) && decide (s.params.rev.toNat < 0x20))

/-- `PerfCount` advances (60_exceptions.md rule R857; log entry 24): `before` is the state at the start of the step,
`executed` whether an instruction executed in it. `CSF` = 1 counts exactly the executed instructions, every other
source a free amount of at most `PERF_STEP`. -/
def stepPerf (before : State) (executed : Bool) (s : State) : State :=
  if !perfEnabled before || perfUnused before then s
  else if before.cp0.perfControl.csf = 1 then
    (if executed then { s with cp0 := { s.cp0 with perfCount := s.cp0.perfCount + 1 } } else s)
  else
    { s.drew 1 with cp0 := { s.cp0 with
        perfCount := s.cp0.perfCount + BitVec.ofNat 32 ((s.free 0).toNat % (s.params.perfStep + 1)) } }

/-- The counters of one step; `random` is false where `Random` stands still: in Standby and when the instruction
itself has just set it. -/
def tick (before : State) (executed random : Bool) (s : State) : State :=
  stepPerf before executed (if random then stepRandom (stepCount s) else stepCount s)

/-- The counters advance behind a next state. -/
def tickOut (before : State) (executed random : Bool) (o : Out) : Out :=
  match o with
  | .next s => .next (tick before executed random s)
  | .fault f => .fault f
  | .refused r => .refused r

end Sys2Proof.Machine
end

