-- ==== Sys2Proof/Machine/Flags.lean ====
section
/-! DEFINITION. The conditions instructions compute: integer overflow, the 64-bit comparisons, and the
floating-point condition codes (44_computational.md rules R480 to R495; 46_special_trap.md rule R604; 10_state.md
rule R53). The integer unit keeps no flags. -/

namespace Sys2Proof.Machine

/-- The 33-bit sum of two words leaves the 32-bit range (44_computational.md rule R480). -/
def addOverflows32 (a b : Word) : Bool :=
  let t : BitVec 33 := a.signExtend 33 + b.signExtend 33
  t.getLsbD 32 != t.getLsbD 31

/-- The 33-bit difference of two words leaves the 32-bit range (44_computational.md rule R482). -/
def subOverflows32 (a b : Word) : Bool :=
  let t : BitVec 33 := a.signExtend 33 - b.signExtend 33
  t.getLsbD 32 != t.getLsbD 31

/-- The 65-bit sum of two doublewords leaves the 64-bit range (44_computational.md rule R486). -/
def addOverflows64 (a b : Dword) : Bool :=
  let t : BitVec 65 := a.signExtend 65 + b.signExtend 65
  t.getLsbD 64 != t.getLsbD 63

/-- The 65-bit difference of two doublewords leaves the 64-bit range (44_computational.md rule R488). -/
def subOverflows64 (a b : Dword) : Bool :=
  let t : BitVec 65 := a.signExtend 65 - b.signExtend 65
  t.getLsbD 64 != t.getLsbD 63

/-- `signed64(a) < signed64(b)`. -/
def signedLt (a b : Dword) : Bool := decide (a.toInt < b.toInt)

/-- `unsigned64(a) < unsigned64(b)`. -/
def unsignedLt (a b : Dword) : Bool := decide (a.toNat < b.toNat)

/-- A truth value in a register: 1 or 0. -/
def truth (c : Bool) : Dword := if c then 1 else 0

/-- `FCC[cc]`, a floating-point condition code (10_state.md rule R53). -/
def readFcc (s : State) (cc : BitVec 3) : Bool := s.fpu.fcr31.cc.getLsbD cc.toNat

/-- Replace one of eight bits. -/
def setBit8 (w : BitVec 8) (i : BitVec 3) (b : Bool) : BitVec 8 :=
  (w &&& ~~~(1#8 <<< i.toNat)) ||| ((BitVec.ofBool b).zeroExtend 8 <<< i.toNat)

/-- `FCC[cc] <- b`. -/
def writeFcc (cc : BitVec 3) (b : Bool) (s : State) : State :=
  { s with fpu := { s.fpu with fcr31 := { s.fpu.fcr31 with cc := setBit8 s.fpu.fcr31.cc cc b } } }

end Sys2Proof.Machine
end

