-- ==== Sys2Proof/Machine/Alu.lean ====
section
/-! DEFINITION. Integer arithmetic, comparison and logic (44_computational.md sections 1 to 3). -/

namespace Sys2Proof.Machine

/-- The result of a 32-bit operation, sign-extended; a free value when an operand is not a sign-extended word
(44_computational.md rule R471; 92_eei_decisions.md D33; log entry 22). -/
def wordResult (ok : Bool) (r : RegNum) (v : Word) (s : State) : Out :=
  if ok then writeResult r (sext32 v) s else writeResult r (s.free 0) (s.drew 1)

/-- A 32-bit operation that can trap: `Ov` leaves the destination alone (rule R472); an operand that is not a
sign-extended word makes it either trap or write a free value (rule R471, D33). -/
def trappingWord (ok overflow : Bool) (r : RegNum) (v : Word) (s : State) : Out :=
  if ok then
    if overflow then raise .ov s else writeResult r (sext32 v) s
  else
    .next (if (s.free 1).getLsbD 0 then takeException .ov (s.drew 2) else advance (writeGpr (s.drew 2) r (s.free 0)))

/-- A 64-bit operation that can trap (44_computational.md rules R472, R473). -/
def trappingDword (overflow : Bool) (r : RegNum) (v : Dword) (s : State) : Out :=
  requireIs64 s (if overflow then raise .ov s else writeResult r v s)

/-- Both registers hold sign-extended words. -/
def bothWords (s : State) (rs rt : RegNum) : Bool := wordValue (readGpr s rs) && wordValue (readGpr s rt)

/-- `zext64` of an immediate (30_encoding.md rule R315). -/
def zext16 (imm : BitVec 16) : Dword := imm.zeroExtend 64

/-- `ADD` (rule R480). -/
def execAdd (rs rt rd : BitVec 5) (s : State) : Out :=
  trappingWord (bothWords s rs rt) (addOverflows32 (low32 (readGpr s rs)) (low32 (readGpr s rt))) rd
    (low32 (readGpr s rs) + low32 (readGpr s rt)) s

/-- `ADDU` (rule R481). -/
def execAddu (rs rt rd : BitVec 5) (s : State) : Out :=
  wordResult (bothWords s rs rt) rd (low32 (readGpr s rs) + low32 (readGpr s rt)) s

/-- `SUB` (rule R482). -/
def execSub (rs rt rd : BitVec 5) (s : State) : Out :=
  trappingWord (bothWords s rs rt) (subOverflows32 (low32 (readGpr s rs)) (low32 (readGpr s rt))) rd
    (low32 (readGpr s rs) - low32 (readGpr s rt)) s

/-- `SUBU` (rule R483). -/
def execSubu (rs rt rd : BitVec 5) (s : State) : Out :=
  wordResult (bothWords s rs rt) rd (low32 (readGpr s rs) - low32 (readGpr s rt)) s

/-- `ADDI` (rule R484). -/
def execAddi (rs rt : BitVec 5) (imm : BitVec 16) (s : State) : Out :=
  trappingWord (wordValue (readGpr s rs)) (addOverflows32 (low32 (readGpr s rs)) (imm.signExtend 32)) rt
    (low32 (readGpr s rs) + imm.signExtend 32) s

/-- `ADDIU` (rule R485). -/
def execAddiu (rs rt : BitVec 5) (imm : BitVec 16) (s : State) : Out :=
  wordResult (wordValue (readGpr s rs)) rt (low32 (readGpr s rs) + imm.signExtend 32) s

/-- `DADD` (rule R486). -/
def execDadd (rs rt rd : BitVec 5) (s : State) : Out :=
  trappingDword (addOverflows64 (readGpr s rs) (readGpr s rt)) rd (readGpr s rs + readGpr s rt) s

/-- `DADDU` (rule R487). -/
def execDaddu (rs rt rd : BitVec 5) (s : State) : Out :=
  requireIs64 s (writeResult rd (readGpr s rs + readGpr s rt) s)

/-- `DSUB` (rule R488). -/
def execDsub (rs rt rd : BitVec 5) (s : State) : Out :=
  trappingDword (subOverflows64 (readGpr s rs) (readGpr s rt)) rd (readGpr s rs - readGpr s rt) s

/-- `DSUBU` (rule R489). -/
def execDsubu (rs rt rd : BitVec 5) (s : State) : Out :=
  requireIs64 s (writeResult rd (readGpr s rs - readGpr s rt) s)

/-- `DADDI` (rule R490). -/
def execDaddi (rs rt : BitVec 5) (imm : BitVec 16) (s : State) : Out :=
  trappingDword (addOverflows64 (readGpr s rs) (sext16 imm)) rt (readGpr s rs + sext16 imm) s

/-- `DADDIU` (rule R491). -/
def execDaddiu (rs rt : BitVec 5) (imm : BitVec 16) (s : State) : Out :=
  requireIs64 s (writeResult rt (readGpr s rs + sext16 imm) s)

/-- `SLT` (rule R492). -/
def execSlt (rs rt rd : BitVec 5) (s : State) : Out :=
  writeResult rd (truth (signedLt (readGpr s rs) (readGpr s rt))) s

/-- `SLTU` (rule R493). -/
def execSltu (rs rt rd : BitVec 5) (s : State) : Out :=
  writeResult rd (truth (unsignedLt (readGpr s rs) (readGpr s rt))) s

/-- `SLTI` (rule R494). -/
def execSlti (rs rt : BitVec 5) (imm : BitVec 16) (s : State) : Out :=
  writeResult rt (truth (signedLt (readGpr s rs) (sext16 imm))) s

/-- `SLTIU` (rule R495). -/
def execSltiu (rs rt : BitVec 5) (imm : BitVec 16) (s : State) : Out :=
  writeResult rt (truth (unsignedLt (readGpr s rs) (sext16 imm))) s

/-- `AND` (rule R496). -/
def execAnd (rs rt rd : BitVec 5) (s : State) : Out := writeResult rd (readGpr s rs &&& readGpr s rt) s

/-- `OR` (rule R497). -/
def execOr (rs rt rd : BitVec 5) (s : State) : Out := writeResult rd (readGpr s rs ||| readGpr s rt) s

/-- `XOR` (rule R498). -/
def execXor (rs rt rd : BitVec 5) (s : State) : Out := writeResult rd (readGpr s rs ^^^ readGpr s rt) s

/-- `NOR` (rule R499). -/
def execNor (rs rt rd : BitVec 5) (s : State) : Out := writeResult rd (~~~(readGpr s rs ||| readGpr s rt)) s

/-- `ANDI` (rule R500). -/
def execAndi (rs rt : BitVec 5) (imm : BitVec 16) (s : State) : Out := writeResult rt (readGpr s rs &&& zext16 imm) s

/-- `ORI` (rule R501). -/
def execOri (rs rt : BitVec 5) (imm : BitVec 16) (s : State) : Out := writeResult rt (readGpr s rs ||| zext16 imm) s

/-- `XORI` (rule R502). -/
def execXori (rs rt : BitVec 5) (imm : BitVec 16) (s : State) : Out := writeResult rt (readGpr s rs ^^^ zext16 imm) s

/-- `LUI` (rule R503). -/
def execLui (rt : BitVec 5) (imm : BitVec 16) (s : State) : Out := writeResult rt (sext32 (imm ++ 0#16)) s

end Sys2Proof.Machine
end

