-- ==== Sys2Proof/Machine/Memory.lean ====
section
/-! DEFINITION. Physical memory as a sorted list of the bytes that differ from what an unlisted address reads
as (20_memory.md rule R251), and runs of bytes in address order. -/

namespace Sys2Proof.Machine

/-- What a byte of memory that nothing has written reads as. DESIGN CHOICE, unsafe, log entry 8. -/
def Memory.unlisted : Byte := 0

/-- The byte at an address. -/
def Memory.read : List Host.Cell → Nat → Byte
  | [], _ => Memory.unlisted
  | (k, v) :: r, a => if a = k then v else Memory.read r a

/-- Write one byte, keeping the canonical form. -/
def Memory.write : List Host.Cell → Nat → Byte → List Host.Cell
  | [], a, b => if b = Memory.unlisted then [] else [(a, b)]
  | (k, v) :: r, a, b =>
    if a < k then (if b = Memory.unlisted then (k, v) :: r else (a, b) :: (k, v) :: r)
    else if a = k then (if b = Memory.unlisted then r else (a, b) :: r)
    else (k, v) :: Memory.write r a b

/-- Every address of the list is above `a`. -/
def Memory.above (a : Nat) : List Host.Cell → Bool
  | [] => true
  | (k, _) :: _ => decide (a < k)

/-- The canonical form: addresses strictly rising, no byte equal to what an unlisted address reads as. -/
def Memory.wf : List Host.Cell → Bool
  | [] => true
  | (k, v) :: r => v != Memory.unlisted && Memory.above k r && Memory.wf r

/-- `n` bytes from address `a` upward, the byte at `a + i` in bits `8i+7 : 8i`. -/
def Memory.readBytes (m : List Host.Cell) : Nat → Nat → Dword
  | _, 0 => 0
  | a, n + 1 => (Memory.readBytes m (a + 1) n <<< 8) ||| (Memory.read m a).zeroExtend 64

/-- Store the `n` low bytes of `v` from address `a` upward, bits `8i+7 : 8i` at `a + i`. -/
def Memory.writeBytes (m : List Host.Cell) : Nat → Nat → Dword → List Host.Cell
  | _, 0, _ => m
  | a, n + 1, v => Memory.writeBytes (Memory.write m a (v.truncate 8)) (a + 1) n (v >>> 8)

/-- The `n` low bytes of `v` in the opposite order. -/
def reverseBytes : Nat → Dword → Dword
  | 0, _ => 0
  | n + 1, v => ((v &&& 0xFF) <<< (8 * n)) ||| reverseBytes n (v >>> 8)

/-- The value of `n` bytes given lowest address first, in the processor's byte order
(20_memory.md rule R252). Its own inverse on `n`-byte values. -/
def orderBytes (bigEndian : Bool) (n : Nat) (v : Dword) : Dword :=
  if bigEndian then reverseBytes n v else v

/-- A 32-byte line from memory, the byte at `a + i` in bits `8i+7 : 8i`. -/
def Memory.readLine (m : List Host.Cell) (a : Nat) : BitVec 256 :=
  Memory.readBytes m (a + 24) 8 ++ Memory.readBytes m (a + 16) 8 ++ Memory.readBytes m (a + 8) 8 ++
    Memory.readBytes m a 8

/-- Store a 32-byte line. -/
def Memory.writeLine (m : List Host.Cell) (a : Nat) (v : BitVec 256) : List Host.Cell :=
  Memory.writeBytes (Memory.writeBytes (Memory.writeBytes (Memory.writeBytes m a 8 (v.extractLsb' 0 64))
    (a + 8) 8 (v.extractLsb' 64 64)) (a + 16) 8 (v.extractLsb' 128 64)) (a + 24) 8 (v.extractLsb' 192 64)

end Sys2Proof.Machine
end

