-- ==== Sys2Proof/Machine/Translate.lean ====
section
/-! DEFINITION. Address translation (20_memory.md sections 1 to 3): the segment decoder, the JTLB, the choice of
refill vector, the physical memory map and the Watch comparison (60_exceptions.md rule R854). -/

namespace Sys2Proof.Machine

/-- The kinds of access translation distinguishes (20_memory.md rule R240). -/
inductive AccessKind where
  | fetch
  | load
  | store
deriving DecidableEq, Repr

/-- Stores raise the `S` codes (20_memory.md rule R240). -/
def AccessKind.isStore : AccessKind → Bool
  | .store => true
  | _ => false

/-- What the segment decoder answers (20_memory.md rule R227). -/
inductive Segment where
  | addressError
  | mapped
  | unmapped (pa : PAddr) (attr : BitVec 3)
deriving DecidableEq, Repr

/-- Bits 63:31 all 0: the low 2 GB. -/
def isLow (va : Dword) : Bool := va.extractLsb' 31 33 == 0

/-- Bits 63:31 all 1: the 32-bit compatibility segments. -/
def isCompat (va : Dword) : Bool := va.extractLsb' 31 33 == BitVec.allOnes 33

/-- Bits 61:40 all 0: within the 40 translated bits of the region. -/
def is40 (va : Dword) : Bool := va.extractLsb' 40 22 == 0

/-- The physical address of `kseg0` and `kseg1`: bits 28:0 (20_memory.md rules R215, R216). -/
def ksegAddr (va : Dword) : PAddr := (va.extractLsb' 0 29).zeroExtend 36

/-- The compatibility segments, selected by bits 30:29 (20_memory.md rules R210, R215 to R218, R222 to R225). -/
def compatSegment (s : State) (va : Dword) : Segment :=
  match (va.extractLsb' 29 2).toNat with
  | 0 => if mode s = .kernel then .unmapped (ksegAddr va) s.cp0.config.k0 else .addressError
  | 1 => if mode s = .kernel then .unmapped (ksegAddr va) 2 else .addressError
  | 2 => if mode s = .user then .addressError else .mapped
  | _ => if mode s = .kernel then .mapped else .addressError

/-- The segment decoder (20_memory.md rule R227). -/
def segment (s : State) (va : Dword) : Segment :=
  match (va.extractLsb' 62 2).toNat with
  | 0 =>
    if s.status.erl && isLow va then .unmapped ((va.extractLsb' 0 31).zeroExtend 36) 2
    else if s.status.ux then (if is40 va then .mapped else .addressError)
    else (if isLow va then .mapped else .addressError)
  | 1 =>
    if mode s = .user then .addressError
    else if s.status.sx && is40 va then .mapped else .addressError
  | 2 =>
    if mode s = .kernel && s.status.kx && va.extractLsb' 36 23 == 0 then
      .unmapped (va.extractLsb' 0 36) (va.extractLsb' 59 3)
    else .addressError
  | _ =>
    if isCompat va then compatSegment s va
    else if mode s = .kernel && s.status.kx && is40 va && va.extractLsb' 31 9 != BitVec.allOnes 9 then .mapped
    else .addressError

/-! ## The JTLB -/

/-- The seven legal page masks (10_state.md rule R126). -/
def legalMask (m : BitVec 12) : Bool :=
  m == 0 || m == 0x003 || m == 0x00F || m == 0x03F || m == 0x0FF || m == 0x3FF || m == 0xFFF

/-- The number of one bits of a page mask: a page has `2^(12+n)` bytes (20_memory.md rule R242). -/
def maskBits (m : BitVec 12) : Nat := (List.range 12).countP (fun i => m.getLsbD i)

/-- `Match` (20_memory.md rule R241), on a region, a `VPN2` and an `ASID`. -/
def TlbEntry.hits (e : TlbEntry) (r : BitVec 2) (vpn2 : BitVec 27) (asid : BitVec 8) : Bool :=
  e.r == r && (e.vpn2 &&& ~~~(e.mask.zeroExtend 27)) == (vpn2 &&& ~~~(e.mask.zeroExtend 27)) &&
    (e.g || e.asid == asid)

/-- The JTLB entries that exist (10_state.md rule R170). -/
def liveEntries (s : State) : List TlbEntry := s.tlb.toList.take (tlbSize s)

/-- The entries that match, with their numbers. -/
def tlbMatches (s : State) (r : BitVec 2) (vpn2 : BitVec 27) : List (TlbEntry × Nat) :=
  (liveEntries s).zipIdx.filter (fun x => x.1.hits r vpn2 s.cp0.entryHi.asid)

/-- Whether the miss of an address uses the XTLB vector, Table 13.14 (20_memory.md rule R245). -/
def xtlbMiss (s : State) (va : Dword) : Bool :=
  match (va.extractLsb' 62 2).toNat with
  | 0 => if isLow va then s.status.ux else true
  | 3 => if isCompat va then s.status.kx else true
  | _ => true

/-- The page of an entry an address selects (20_memory.md rules R240, R242). -/
def TlbEntry.page (e : TlbEntry) (va : Dword) : TlbPage :=
  if va.getLsbD (12 + maskBits e.mask) then e.odd else e.even

/-- The physical address within a page: `PFN` bits below the page size are ignored (20_memory.md rule R242). -/
def TlbEntry.paddr (e : TlbEntry) (p : TlbPage) (va : Dword) : PAddr :=
  let frame : PAddr := (p.pfn &&& ~~~(e.mask.zeroExtend 24)) ++ 0#12
  let offset : PAddr := (va.truncate 36) &&& (BitVec.ofNat 36 (2 ^ (12 + maskBits e.mask)) - 1)
  frame ||| offset

/-- Translation through the JTLB (20_memory.md rules R240, R246, R247). -/
def translateMapped (kind : AccessKind) (va : Dword) (s : State) : Except Stop (PAddr × BitVec 3) :=
  if (liveEntries s).any (fun e => !legalMask e.mask) then .error (.fault .illegalPageMask)
  else match tlbMatches s (va.extractLsb' 62 2) (va.extractLsb' 13 27) with
    | [] => .error (.exc (.tlbRefill kind.isStore (xtlbMiss s va) va) s)
    | [(e, _)] =>
      let p := e.page va
      if !p.v then .error (.exc (.tlbInvalid kind.isStore va) s)
      else if kind.isStore && !p.d then .error (.exc (.tlbMod va) s)
      else .ok (e.paddr p va, p.c)
    | _ => .error (.fault .multipleTlbMatch)

/-- Attributes 4 and 5 are reserved (20_memory.md rule R262). -/
def legalAttr (attr : BitVec 3) : Bool := attr != 4 && attr != 5

/-- `AddressTranslation(vAddr, kind)` without the alignment check (20_memory.md rule R240, items 2 and 3; an
access through a reserved cache attribute is `UNDEFINED`, rule R262). DESIGN CHOICE, log entry 20: whoever translates an
address accesses through it, so that a `CACHE` operation and a prefetch stop there too. -/
def translate (kind : AccessKind) (va : Dword) (s : State) : Except Stop (PAddr × BitVec 3) :=
  match segment s va with
  | .addressError => .error (.exc (.adE kind.isStore va) s)
  | .unmapped pa attr => if legalAttr attr then .ok (pa, attr) else .error (.fault .reservedCacheAttribute)
  | .mapped =>
    match translateMapped kind va s with
    | .ok (pa, attr) => if legalAttr attr then .ok (pa, attr) else .error (.fault .reservedCacheAttribute)
    | .error e => .error e

/-- The alignment rule for an access of `n` bytes (20_memory.md rule R255). -/
def aligned (n : Nat) (va : Dword) : Bool := va.toNat % n == 0

/-- `AddressTranslation(vAddr, kind)` with the alignment check made first (20_memory.md rule R240). -/
def translateAligned (kind : AccessKind) (n : Nat) (va : Dword) (s : State) : Except Stop (PAddr × BitVec 3) :=
  if aligned n va then translate kind va s else .error (.exc (.adE kind.isStore va) s)

/-! ## The platform's physical memory map -/

/-- The kind of memory at a physical address; outside every region of `PMAP` there is a hole
(20_memory.md rule R251). -/
def regionKind (s : State) (pa : PAddr) : RegionKind :=
  match s.params.pmap.find? (fun r => decide (r.base ≤ pa.toNat ∧ pa.toNat < r.base + r.size)) with
  | some r => r.kind
  | none => .hole

/-! ## The Watch registers (60_exceptions.md rule R854) -/

/-- Whether a Watch register is enabled for a kind of access. -/
def Watch.enabled (w : Watch) : AccessKind → Bool
  | .fetch => w.ifetch
  | .load => w.ld
  | .store => w.st

/-- `hit_i` for the word at a physical address: the masked bits of `PA[31:2]` are ignored. -/
def Watch.hitsWord (w : Watch) (mask : BitVec 30) (pa : PAddr) : Bool :=
  let m : BitVec 34 := mask.zeroExtend 34
  (w.pa &&& ~~~m) == (pa.extractLsb' 2 34 &&& ~~~m)

/-- `match_i` for an access of `n` bytes at `pa`, inside one aligned doubleword: it touches the word of its first
byte and the word of its last (92_eei_decisions.md D70). -/
def Watch.matches (w : Watch) (masked : Bool) (mask : BitVec 30) (kind : AccessKind) (pa : PAddr) (n : Nat) : Bool :=
  let m := if masked then mask else 0
  w.enabled kind && (w.hitsWord m pa || w.hitsWord m (pa + BitVec.ofNat 36 (n - 1)))

/-- `match_1` and `match_2`. -/
def watchMatch (s : State) (kind : AccessKind) (pa : PAddr) (n : Nat) : Bool × Bool :=
  let wm := s.cp0.watchMask
  (s.cp0.watch1.matches wm.w1 wm.mask kind pa n, s.cp0.watch2.matches wm.w2 wm.mask kind pa n)

/-- The Watch check of a data access (60_exceptions.md rule R854). -/
def watchData (kind : AccessKind) (pa : PAddr) (n : Nat) (s : State) : Except Stop Unit :=
  let m := watchMatch s kind pa n
  if m.1 || m.2 then .error (.exc (.dwe m.1 m.2) s) else .ok ()

end Sys2Proof.Machine
end

