-- ==== Sys2Proof/Machine/Cache.lean ====
section
/-! DEFINITION. Physical accesses. At the transparent level (20_memory.md rule R290(a)) every access goes to the
byte array; at the explicit level (rule R290(b)) cached accesses go through arrays of lines as rules R261 to
R269 and R291 to R297 describe. Which way a fill replaces and the `F` bit are free values (rule R293); what the lost
sections leave open is in log entries 10, 26, 27 and 38. -/

namespace Sys2Proof.Machine

/-! ## Lines -/

/-- The line with a number, if listed. -/
def Lines.find {α : Type} : List (Nat × α) → Nat → Option α
  | [], _ => none
  | (k, v) :: r, a => if a = k then some v else Lines.find r a

/-- Set the line with a number, keeping the numbers rising. -/
def Lines.put {α : Type} : List (Nat × α) → Nat → α → List (Nat × α)
  | [], a, x => [(a, x)]
  | (k, v) :: r, a, x =>
    if a < k then (a, x) :: (k, v) :: r else if a = k then (a, x) :: r else (k, v) :: Lines.put r a x

/-- The numbers of the lines are strictly rising. -/
def Lines.sorted {α : Type} : List (Nat × α) → Bool
  | [] => true
  | [_] => true
  | (k, _) :: (k', v') :: r => decide (k < k') && Lines.sorted ((k', v') :: r)

/-- Every listed line is well placed. -/
def Caches.wf (c : Caches) : Bool :=
  Lines.sorted c.icache && Lines.sorted c.dcache && Lines.sorted c.scache && Lines.sorted c.tcache

/-- A data-cache line by number (way * 128 + index). -/
def dLine (s : State) (k : Nat) : DLine :=
  let u := Config.unknownLine 1 s.caches.epoch k
  (Lines.find s.caches.dcache k).getD
    { tag := u.extractLsb' 256 24, state := u.extractLsb' 280 2, w := u.getLsbD 282, b := u.getLsbD 283
      l := u.getLsbD 284, f := u.getLsbD 285, p := u.getLsbD 286, sp := u.getLsbD 287
      par := u.extractLsb' 288 32, data := u.extractLsb' 0 256 }

/-- An instruction-cache line by number (way * 128 + index). -/
def iLine (s : State) (k : Nat) : ILine :=
  let u := Config.unknownLine 0 s.caches.epoch k
  (Lines.find s.caches.icache k).getD
    { tag := u.extractLsb' 256 24, state := u.extractLsb' 280 2, l := u.getLsbD 284, f := u.getLsbD 285
      p := u.getLsbD 286, par := u.extractLsb' 288 8, preDec := none, data := u.extractLsb' 0 256 }

/-- A secondary-cache line by number (way * 2048 + index). -/
def sLine (s : State) (k : Nat) : SLine :=
  let u := Config.unknownLine 3 s.caches.epoch k
  (Lines.find s.caches.scache k).getD
    { tag := u.extractLsb' 256 24, state := u.extractLsb' 280 3, l := u.getLsbD 284, f := u.getLsbD 285
      p := u.getLsbD 286, sp := u.getLsbD 287, par := u.extractLsb' 288 4, data := u.extractLsb' 0 256 }

/-- A tertiary-cache line by number. -/
def tLine (s : State) (k : Nat) : TLine :=
  let u := Config.unknownLine 2 s.caches.tcEpoch k
  (Lines.find s.caches.tcache k).getD
    { tag := u.extractLsb' 256 17, state := if s.caches.tcInvalid then 0 else u.extractLsb' 280 2
      par := u.extractLsb' 288 4, data := u.extractLsb' 0 256 }

/-- Whether something wrote a data-cache line since the caches became unspecified. -/
def dWritten (s : State) (k : Nat) : Bool := (Lines.find s.caches.dcache k).isSome
/-- Whether something wrote an instruction-cache line since the caches became unspecified. -/
def iWritten (s : State) (k : Nat) : Bool := (Lines.find s.caches.icache k).isSome
/-- Whether something wrote a tertiary line since the caches became unspecified. -/
def tWritten (s : State) (k : Nat) : Bool := (Lines.find s.caches.tcache k).isSome

/-- Set a data-cache line. -/
def putD (k : Nat) (x : DLine) (s : State) : State :=
  { s with caches := { s.caches with dcache := Lines.put s.caches.dcache k x } }
/-- Set an instruction-cache line. -/
def putI (k : Nat) (x : ILine) (s : State) : State :=
  { s with caches := { s.caches with icache := Lines.put s.caches.icache k x } }
/-- Set a secondary-cache line. -/
def putS (k : Nat) (x : SLine) (s : State) : State :=
  { s with caches := { s.caches with scache := Lines.put s.caches.scache k x } }
/-- Set a tertiary-cache line. -/
def putT (k : Nat) (x : TLine) (s : State) : State :=
  { s with caches := { s.caches with tcache := Lines.put s.caches.tcache k x } }

/-- The primary index, address bits 11:5 (20_memory.md rule R261). -/
def primaryIndex (pa : PAddr) : Nat := (pa.extractLsb' 5 7).toNat
/-- The secondary index, address bits 15:5 (20_memory.md rule R261). -/
def secondaryIndex (pa : PAddr) : Nat := (pa.extractLsb' 5 11).toNat
/-- The tertiary index, address bits `CACHEBITS-1 : 5` (41_cache_instruction.md rule R383). -/
def tertiaryIndex (s : State) (pa : PAddr) : Nat := pa.toNat / 32 % 2 ^ (s.params.tcBits - 5)
/-- The address of the 32-byte line that holds an address. -/
def lineAddr (pa : PAddr) : Nat := pa.toNat / 32 * 32
/-- The offset of an address in its line. -/
def lineOffset (pa : PAddr) : Nat := pa.toNat % 32

/-- `n` bytes of a line from an offset. -/
def lineRead (data : BitVec 256) (off n : Nat) : Dword :=
  (data >>> (8 * off)).truncate 64 &&& (BitVec.allOnes 64 >>> (64 - 8 * n))

/-- Replace `n` bytes of a line from an offset. -/
def lineWrite (data : BitVec 256) (off n : Nat) (v : Dword) : BitVec 256 :=
  let m : BitVec 256 := ((BitVec.allOnes 64 >>> (64 - 8 * n)).zeroExtend 256) <<< (8 * off)
  (data &&& ~~~m) ||| ((v.zeroExtend 256 <<< (8 * off)) &&& m)

/-- The four line numbers of a primary index. -/
def primaryWays (pa : PAddr) : List Nat := (List.range 4).map (fun w => w * 128 + primaryIndex pa)
/-- The four line numbers of a secondary index. -/
def secondaryWays (pa : PAddr) : List Nat := (List.range 4).map (fun w => w * 2048 + secondaryIndex pa)

/-! ## Parity (20_memory.md rule R297; log entry 27) -/

/-- Even parity of the low `n` bits. -/
def parity (n : Nat) (x : Dword) : Bool := (List.range n).foldl (fun b i => xor b (x.getLsbD i)) false

/-- The parity of the `n` units of `u` bits of a line, unit `k` in bit `k`. -/
def unitParity (u n : Nat) (data : BitVec 256) : BitVec n :=
  (List.range n).foldl (fun m k => if parity u ((data >>> (u * k)).truncate 64) then m ||| (1#n <<< k) else m) 0

/-- The parity of the bytes of a data-cache line. -/
def byteParity (data : BitVec 256) : BitVec 32 := unitParity 8 32 data
/-- The parity of the words of an instruction-cache line. -/
def wordParity (data : BitVec 256) : BitVec 8 := unitParity 32 8 data
/-- The parity of the doublewords of a secondary or tertiary line. -/
def dwordParity (data : BitVec 256) : BitVec 4 := unitParity 64 4 data

/-- A data-cache line whose tag and state are written by the hardware: it computes their parity (10_state.md rule
R149). -/
def DLine.seal (x : DLine) : DLine :=
  { x with p := parity 27 ((x.tag ++ bv1 x.b ++ bv1 x.l ++ bv1 x.f).zeroExtend 64)
           sp := parity 2 (x.state.zeroExtend 64) }
/-- An instruction-cache line with the parity of its tag. -/
def ILine.seal (x : ILine) : ILine :=
  { x with p := parity 40 ((x.preDec.getD (Config.preDecode x.data) ++ x.tag ++ x.state ++ bv1 x.l ++ bv1 x.f).zeroExtend 64) }
/-- A secondary line with the parity of its tag and state. -/
def SLine.seal (x : SLine) : SLine :=
  { x with p := parity 26 ((x.tag ++ bv1 x.l ++ bv1 x.f).zeroExtend 64), sp := parity 3 (x.state.zeroExtend 64) }

/-- The eight parity bits of a doubleword, bit 0 for its least significant byte (10_state.md rule R147), in address
order, and back. -/
def byteOrderBits (bigEndian : Bool) (b : BitVec 8) : BitVec 8 :=
  if bigEndian then
    bv1 (b.getLsbD 0) ++ bv1 (b.getLsbD 1) ++ bv1 (b.getLsbD 2) ++ bv1 (b.getLsbD 3) ++
      bv1 (b.getLsbD 4) ++ bv1 (b.getLsbD 5) ++ bv1 (b.getLsbD 6) ++ bv1 (b.getLsbD 7)
  else b

/-- The parity of a data-cache line after `n` bytes from `off` were stored: computed, or with `Status.CE` = 1 the bits
of `ECC.PAR` (10_state.md rules R133, R147). DESIGN CHOICE, log entry 27: which byte of a doubleword is the least
significant one, `PAR0`, follows the byte order of the mode stream, also for a store in User mode with `Status.RE` = 1. -/
def storedParity (s : State) (old : BitVec 32) (data : BitVec 256) (off n : Nat) : BitVec 32 :=
  let m : BitVec 32 := (BitVec.allOnes 32 >>> (32 - n)) <<< off
  let par := byteOrderBits s.params.bigEndian s.cp0.ecc.par
  let fresh : BitVec 32 := if s.status.ce then par ++ par ++ par ++ par else byteParity data
  (old &&& ~~~m) ||| (fresh &&& m)

/-! ## Lookups -/

/-- A data-cache hit: the state is Data Valid and the tag is `pAddr[35:12]`. A line with that tag to which software
wrote the state Pending makes the access `UNDEFINED` (93_implementation_defined.md A21); every other state is a miss, and
so is a state nothing has written (log entry 26). DESIGN CHOICE, log entry 26: of two ways that software made valid
with one tag (41_cache_instruction.md rule R384 knows one hit) the lowest-numbered one hits. -/
def lookupD (s : State) (pa : PAddr) : Except Stop (Option Nat) :=
  let tagged := (primaryWays pa).filter (fun k => (dLine s k).tag == pa.extractLsb' 12 24)
  if tagged.any (fun k => (dLine s k).state == 1 && dWritten s k) then .error (.fault .reservedCacheState)
  else .ok (tagged.find? (fun k => (dLine s k).state == 3))

/-- An instruction-cache hit: the state is Instruction Valid and the tag is `pAddr[35:12]`; as `lookupD` otherwise, also
in taking the lowest-numbered of two hits (DESIGN CHOICE, log entry 26). -/
def lookupI (s : State) (pa : PAddr) : Except Stop (Option Nat) :=
  let tagged := (primaryWays pa).filter (fun k => (iLine s k).tag == pa.extractLsb' 12 24)
  if tagged.any (fun k => (iLine s k).state == 1 && iWritten s k) then .error (.fault .reservedCacheState)
  else .ok (tagged.find? (fun k => (iLine s k).state == 2))

/-- A secondary state that holds valid data: Clean Exclusive, Dirty Exclusive, Dirty Exclusive DCache (20_memory.md rule
R292). -/
def validS (st : BitVec 3) : Bool := st == 4 || st == 5 || st == 7

/-- The part of a secondary line's tag that names its address, `pAddr[35:16]` (20_memory.md rule R261). The tag holds 24
bits (rule R292); DESIGN CHOICE, log entry 26: the low four are stored and read back, and play no part in a hit or in
the address of a writeback, which the index gives. -/
def SLine.frame (x : SLine) : BitVec 20 := x.tag.extractLsb' 4 20

/-- A secondary hit: a line of a valid state whose tag names `pAddr[35:16]`. The manual forbids software no secondary
state: the other states are a miss; of two hits the lowest-numbered way is taken (DESIGN CHOICE, log entry 26). -/
def lookupS (s : State) (pa : PAddr) : Option Nat :=
  (secondaryWays pa).find? (fun k => (sLine s k).frame == pa.extractLsb' 16 20 && validS (sLine s k).state)

/-- A tertiary hit: a Valid line with tag `pAddr[35:19]`; a line with that tag to which software wrote a Reserved
state makes the access `UNDEFINED` (93_implementation_defined.md A21). -/
def lookupT (s : State) (pa : PAddr) : Except Stop (Option Nat) :=
  let k := tertiaryIndex s pa
  let x := tLine s k
  if x.tag == pa.extractLsb' 19 17 then
    if x.state == 2 then .ok (some k)
    else if x.state != 0 && tWritten s k then .error (.fault .reservedCacheState)
    else .ok none
  else .ok none

/-- The secondary cache exists and is enabled (20_memory.md rule R295). -/
def secondaryOn (s : State) : Bool := s.params.scPresent && s.cp0.config.se
/-- The tertiary cache exists and is enabled (20_memory.md rule R295). -/
def tertiaryOn (s : State) : Bool := s.params.tcPresent && s.cp0.config.te

/-- A dirty secondary state: the processor owns the line in Dirty Exclusive and in Dirty Exclusive DCache (20_memory.md
rule R292). The section that defines the states is lost; DESIGN CHOICE, log entry 26: both hold data to be written
back, and the model itself never enters the latter. -/
def dirtyS (st : BitVec 3) : Bool := st == 5 || st == 7

/-! ## Main memory -/

/-- Bytes to main memory (20_memory.md rules R251, R259): a write never raises an error. DESIGN CHOICE, log entry 10:
the region of the first byte decides; only RAM keeps what is written, a device window refuses. -/
def mainWrite (a : PAddr) (n : Nat) (v : Dword) (s : State) : Except Stop State :=
  match regionKind s a with
  | .ram => .ok { s with mem := Memory.writeBytes s.mem a.toNat n v }
  | .rom => .ok s
  | .hole => .ok s
  | .device => .error (.refused .deviceAccess)

/-- A block write to main memory, as `mainWrite` (log entry 10). -/
def mainWriteLine (a : PAddr) (v : BitVec 256) (s : State) : Except Stop State :=
  match regionKind s a with
  | .ram => .ok { s with mem := Memory.writeLine s.mem (lineAddr a) v }
  | .rom => .ok s
  | .hole => .ok s
  | .device => .error (.refused .deviceAccess)

/-- Whether a read of main memory returns data: a device is refused, a hole is a bus error. DESIGN CHOICE, log entries
10 and 38: the region of the first byte, or of the address that missed, decides, and the error is precise. -/
def readable (fetch : Bool) (pa : PAddr) (s : State) : Except Stop Unit :=
  match regionKind s pa with
  | .ram => .ok ()
  | .rom => .ok ()
  | .device => .error (.refused .deviceAccess)
  | .hole => .error (.exc (if fetch then .ibe pa else .dbe pa) s)

/-- A block read from main memory. -/
def mainReadLine (fetch : Bool) (a : PAddr) (s : State) : Except Stop (BitVec 256) :=
  match readable fetch a s with
  | .error e => .error e
  | .ok () => .ok (Memory.readLine s.mem (lineAddr a))

/-! ## Fills and writebacks, explicit level -/

/-- The way a fill replaces: a free choice among the ways that are not locked; only ways A and B can be locked
(20_memory.md rules R293, R294). -/
def victimWay (locked : Nat → Bool) (s : State) : Nat :=
  let ways := (List.range 4).filter (fun w => decide (2 ≤ w) || !locked w)
  ways.getD ((s.free 0).toNat % ways.length) 3

/-- The locking target: `ECC.SS` selects way A or B (20_memory.md rule R294). -/
def lockWay (s : State) : Nat := if s.cp0.ecc.ss then 1 else 0

/-- Where a fill goes: the line number, and the `L` and `F` bits the line gets. -/
structure Slot where
  line : Nat
  l : Bool
  f : Bool

/-- The slot of a fill, which draws two free values: a locking fill goes to the selected way with `L` set, unless that
way is locked already, since a locked line cannot be replaced (20_memory.md rule R294); then, and for every other fill,
the way is a free choice and `L` is clear (log entry 26). -/
def fillSlot (lock : Bool) (perWay index : Nat) (locked : Nat → Bool) (s : State) : Slot :=
  let locks := lock && !locked (lockWay s)
  let way := if locks then lockWay s else victimWay locked s
  { line := way * perWay + index, l := locks, f := (s.free 1).getLsbD 0 }

/-- The slot of a data-cache fill. -/
def slotD (a : PAddr) (lock : Bool) (s : State) : Slot :=
  fillSlot lock 128 (primaryIndex a) (fun w => (dLine s (w * 128 + primaryIndex a)).l) s
/-- The slot of an instruction-cache fill. -/
def slotI (a : PAddr) (lock : Bool) (s : State) : Slot :=
  fillSlot lock 128 (primaryIndex a) (fun w => (iLine s (w * 128 + primaryIndex a)).l) s
/-- The slot of a secondary fill. -/
def slotS (a : PAddr) (lock : Bool) (s : State) : Slot :=
  fillSlot lock 2048 (secondaryIndex a) (fun w => (sLine s (w * 2048 + secondaryIndex a)).l) s

/-- A valid data-cache line for an address: `B` marks the bypass attribute (10_state.md rule R149). -/
def newD (a : PAddr) (attr : BitVec 3) (w : Bool) (slot : Slot) (data : BitVec 256) : DLine :=
  DLine.seal { tag := a.extractLsb' 12 24, state := 3, w := w, b := attr == 7, l := slot.l, f := slot.f, p := false, sp := false
               par := byteParity data, data := data }
/-- A valid instruction-cache line for an address. -/
def newI (a : PAddr) (slot : Slot) (data : BitVec 256) : ILine :=
  ILine.seal { tag := a.extractLsb' 12 24, state := 2, l := slot.l, f := slot.f, p := false, par := wordParity data
               preDec := none, data := data }
/-- A secondary line for an address: a fill makes it Clean Exclusive (DESIGN CHOICE, log entry 26). -/
def newS (a : PAddr) (slot : Slot) (data : BitVec 256) : SLine :=
  SLine.seal { tag := a.extractLsb' 12 24, state := 4, l := slot.l, f := slot.f, p := false, sp := false
               par := dwordParity data, data := data }
/-- A valid tertiary line for an address. -/
def newT (a : PAddr) (data : BitVec 256) : TLine :=
  { tag := a.extractLsb' 19 17, state := 2, par := dwordParity data, data := data }

/-- A line to the tertiary cache and main memory: the tertiary cache is write-through (20_memory.md rule R261). -/
def writeBelow (a : PAddr) (v : BitVec 256) (s : State) : Except Stop State :=
  match mainWriteLine a v s with
  | .error e => .error e
  | .ok s =>
    if tertiaryOn s then
      match lookupT s a with
      | .ok (some k) => .ok (putT k { tLine s k with par := dwordParity v, data := v } s)
      | .ok none => .ok s
      | .error e => .error e
    else .ok s

/-- A primary writeback: to the secondary cache if it is enabled and holds the line, else below; a bypass line goes
to main memory only (20_memory.md rule R269; 41_cache_instruction.md rules R385, R387). The secondary line becomes Dirty
Exclusive (DESIGN CHOICE, log entry 26). DESIGN CHOICE, log entry 26: so does the victim of `Create_Dirty_Exclusive_D`,
though rule R391 says "to the secondary cache (if present) and to memory": on a secondary hit memory is not written. -/
def writebackD (a : PAddr) (x : DLine) (s : State) : Except Stop State :=
  if x.b then mainWriteLine a x.data s
  else if secondaryOn s then
    match lookupS s a with
    | some k => .ok (putS k (SLine.seal { sLine s k with state := 5, par := dwordParity x.data, data := x.data }) s)
    | none => writeBelow a x.data s
  else writeBelow a x.data s

/-- The address a data-cache line's tag names. -/
def dLineAddr (x : DLine) (k : Nat) : PAddr := x.tag ++ BitVec.ofNat 7 k ++ 0#5
/-- The address a secondary line's tag names. -/
def sLineAddr (x : SLine) (k : Nat) : PAddr := x.frame ++ BitVec.ofNat 11 k ++ 0#5

/-- The data cache holds modified data of a line. -/
def modifiedInD (s : State) (a : PAddr) : Bool :=
  (primaryWays a).any (fun k =>
    let x := dLine s k
    x.tag == a.extractLsb' 12 24 && x.state == 3 && x.w)

/-- A line from the tertiary cache, else from main memory into the tertiary cache (20_memory.md rule R266). -/
def blockBelow (fetch : Bool) (a : PAddr) (s : State) : Except Stop (BitVec 256 × State) :=
  if tertiaryOn s then
    match lookupT s a with
    | .ok (some k) => .ok ((tLine s k).data, s)
    | .ok none =>
      match mainReadLine fetch a s with
      | .error e => .error e
      | .ok v => .ok (v, putT (tertiaryIndex s a) (newT a v) s)
    | .error e => .error e
  else
    match mainReadLine fetch a s with
    | .error e => .error e
    | .ok v => .ok (v, s)

/-- Place a line in the secondary cache; a dirty victim is written back only if the secondary cache has the most current
data (20_memory.md rule R269). -/
def fillS (a : PAddr) (lock : Bool) (v : BitVec 256) (s : State) : Except Stop State :=
  let slot := slotS a lock s
  let old := sLine s slot.line
  let oldAddr := sLineAddr old slot.line
  match (if dirtyS old.state && !modifiedInD s oldAddr then writeBelow oldAddr old.data s else .ok s) with
  | .ok s => .ok (putS slot.line (newS a slot v) (s.drew 2))
  | .error e => .error e

/-- A line from the secondary cache, else from below into the secondary cache (20_memory.md rule R266). `mayLock`: the
reference is one that locks while `ECC.S` is set, a load or `Fill_I` (rule R294). -/
def blockSecondary (fetch mayLock : Bool) (a : PAddr) (s : State) : Except Stop (BitVec 256 × State) :=
  if secondaryOn s then
    match lookupS s a with
    | some k => .ok ((sLine s k).data, s)
    | none =>
      match blockBelow fetch a s with
      | .ok (v, s) =>
        match fillS a (mayLock && s.cp0.ecc.s) v s with
        | .ok s => .ok (v, s)
        | .error e => .error e
      | .error e => .error e
  else blockBelow fetch a s

/-- The line a primary fill brings in: through the secondary and tertiary caches, or straight from main memory. -/
def fillSource (through fetch mayLock : Bool) (a : PAddr) (s : State) : Except Stop (BitVec 256 × State) :=
  if through then blockSecondary fetch mayLock a s
  else
    match mainReadLine fetch a s with
    | .error e => .error e
    | .ok v => .ok (v, s)

/-- Empty a data-cache slot for a fill: the slot, and the state after a dirty victim is written back. -/
def evictD (a : PAddr) (lock : Bool) (s : State) : Except Stop (Slot × State) :=
  let slot := slotD a lock s
  let old := dLine s slot.line
  match (if old.state == 3 && old.w then writebackD (dLineAddr old slot.line) old s else .ok s) with
  | .ok s => .ok (slot, s.drew 2)
  | .error e => .error e

/-- Fill the data cache for an access with a cached attribute: attributes 0, 1 and 7 from main memory, 3 through
the secondary and tertiary caches (20_memory.md rules R263 to R269); a load fills the locked way while `ECC.D` is
set (rule R294). The line is read before the victim is written back: a bus error leaves every cache as it was. -/
def fillD (a : PAddr) (attr : BitVec 3) (load : Bool) (s : State) : Except Stop (Nat × State) :=
  match fillSource (attr == 3) false load a s with
  | .error e => .error e
  | .ok (v, s) =>
    match evictD a (load && s.cp0.ecc.d) s with
    | .error e => .error e
    | .ok (slot, s) => .ok (slot.line, putD slot.line (newD a attr false slot v) s)

/-- Fill the instruction cache: attribute 7 from main memory, every other through the secondary and tertiary caches
(20_memory.md rule R262); `Fill_I` fills the locked way while `ECC.I` is set (rule R294). -/
def fillI (a : PAddr) (attr : BitVec 3) (fill : Bool) (s : State) : Except Stop (Nat × State) :=
  match fillSource (attr != 7) (!fill) fill a s with
  | .error e => .error e
  | .ok (v, s) =>
    let slot := slotI a (fill && s.cp0.ecc.i) s
    .ok (slot.line, putI slot.line (newI a slot v) (s.drew 2))

/-- A cached data read at the explicit level. -/
def cachedRead (pa : PAddr) (n : Nat) (attr : BitVec 3) (s : State) : Except Stop (Dword × State) :=
  match lookupD s pa with
  | .ok (some k) => .ok (lineRead (dLine s k).data (lineOffset pa) n, s)
  | .ok none =>
    match fillD pa attr true s with
    | .ok (k, s) => .ok (lineRead (dLine s k).data (lineOffset pa) n, s)
    | .error e => .error e
  | .error e => .error e

/-- Store into a data-cache line; `dirty` sets the `W` bit. -/
def storeLine (k : Nat) (pa : PAddr) (n : Nat) (v : Dword) (dirty : Bool) (s : State) : State :=
  let x := dLine s k
  let data := lineWrite x.data (lineOffset pa) n v
  putD k { x with data := data, par := storedParity s x.par data (lineOffset pa) n, w := x.w || dirty } s

/-- The refill of a store miss: a bus error of its read leaves no line, since a store raises none (20_memory.md rule R259;
log entry 38). -/
def storeMissFill (pa : PAddr) (attr : BitVec 3) (s : State) : Except Stop (Option Nat × State) :=
  match fillD pa attr false s with
  | .ok (k, s) => .ok (some k, s)
  | .error (.exc _ _) => .ok (none, s)
  | .error e => .error e

/-- A cached data write at the explicit level (20_memory.md rules R263 to R269). -/
def cachedWrite (pa : PAddr) (n : Nat) (v : Dword) (attr : BitVec 3) (s : State) : Except Stop State :=
  match lookupD s pa with
  | .error e => .error e
  | .ok (some k) =>
    if attr == 0 || attr == 1 then
      match mainWrite pa n v s with
      | .ok s => .ok (storeLine k pa n v false s)
      | .error e => .error e
    else .ok (storeLine k pa n v true s)
  | .ok none =>
    if attr == 0 then mainWrite pa n v s
    else if attr == 1 then
      match mainWrite pa n v s with
      | .error e => .error e
      | .ok s =>
        match storeMissFill pa attr s with
        | .ok (_, s) => .ok s
        | .error e => .error e
    else
      match storeMissFill pa attr s with
      | .ok (some k, s) => .ok (storeLine k pa n v true s)
      | .ok (none, s) => .ok s
      | .error e => .error e

/-- Attributes 2 and 6 use no cache (20_memory.md rules R265, R267). -/
def uncached (attr : BitVec 3) : Bool := attr == 2 || attr == 6

/-! ## The transparent level's record of values not written back (log entry 25) -/

/-- The bytes about to be overwritten, remembered. -/
def noteStale (m : List Host.Cell) (a n : Nat) (st : List Host.Cell) : List Host.Cell :=
  (List.range n).map (fun i => (a + i, Memory.read m (a + i))) ++ st

/-- The bytes of a run of addresses have reached memory. -/
def clearStale (a n : Nat) (st : List Host.Cell) : List Host.Cell :=
  st.filter (fun c => !(decide (a ≤ c.1 ∧ c.1 < a + n)))

/-- A store at the transparent level: the byte array is written at once; a write-back attribute remembers what the
bytes held (41_cache_instruction.md rule R398), any other makes the array current. -/
def transparentWrite (a n : Nat) (v : Dword) (attr : BitVec 3) (s : State) : State :=
  { s with
    mem := Memory.writeBytes s.mem a n v
    stale := if attr == 3 || attr == 7 then noteStale s.mem a n s.stale else clearStale a n s.stale }

/-- A discarded byte reverts to any value it held since it was last written back (41_cache_instruction.md rule R398):
every earlier value, the one it just held included, stays possible until a writeback (log entry 25). -/
def discardByte (a : Nat) (s : State) : State :=
  let now := Memory.read s.mem a
  let held := now :: (s.stale.filter (fun c => c.1 == a)).map (·.2)
  { s.drew 1 with
    mem := Memory.write s.mem a (held.getD ((s.free 0).toNat % held.length) 0)
    stale := (a, now) :: s.stale }

/-- The addresses of remembered bytes, each once. -/
def staleAddrs (p : Nat → Bool) : List Host.Cell → List Nat
  | [] => []
  | c :: r => if p c.1 && !((r.map (·.1)).contains c.1) then c.1 :: staleAddrs p r else staleAddrs p r

/-- Discard every byte not written back whose address satisfies `p`. -/
def discard (p : Nat → Bool) (s : State) : State :=
  (staleAddrs p s.stale).foldl (fun s a => discardByte a s) s

/-! ## The accesses the instructions make -/

/-- The access goes through the explicit caches. -/
def throughCache (attr : BitVec 3) (s : State) : Bool := s.params.explicitCaches && !uncached attr

/-- `MemRead(pAddr, n, attr)`: the `n` bytes lowest address in the low bits (20_memory.md rules R251, R257). A
bus error of the platform is a data bus error (log entries 10, 38). -/
def memRead (pa : PAddr) (n : Nat) (attr : BitVec 3) (s : State) : Except Stop (Dword × State) :=
  if throughCache attr s then cachedRead pa n attr s
  else
    match readable false pa s with
    | .error e => .error e
    | .ok () => .ok (Memory.readBytes s.mem pa.toNat n, s)

/-- `MemWrite(pAddr, n, attr, v)`, bytes lowest address in the low bits (20_memory.md rules R251, R257). Outside the
explicit caches a write to a device window is refused, one to ROM or a hole is lost (rule R259; log entries 10, 38). -/
def memWrite (pa : PAddr) (n : Nat) (v : Dword) (attr : BitVec 3) (s : State) : Except Stop State :=
  if throughCache attr s then cachedWrite pa n v attr s
  else if s.params.explicitCaches then mainWrite pa n v s
  else
    match regionKind s pa with
    | .device => .error (.refused .deviceAccess)
    | .rom => .ok s
    | .hole => .ok s
    | .ram => .ok (transparentWrite pa.toNat n v attr s)

/-- The read of an instruction word: at the explicit level a cached fetch goes through the instruction cache; a line
whose predecode bits software altered is `UNDEFINED` (93_implementation_defined.md A3). -/
def fetchRead (pa : PAddr) (attr : BitVec 3) (s : State) : Except Stop (Dword × State) :=
  if throughCache attr s then
    match lookupI s pa with
    | .error e => .error e
    | .ok (some k) =>
      let x := iLine s k
      match x.preDec with
      | none => .ok (lineRead x.data (lineOffset pa) 4, s)
      | some d =>
        if d = Config.preDecode x.data then .ok (lineRead x.data (lineOffset pa) 4, s)
        else .error (.fault .preDecodeAltered)
    | .ok none =>
      match fillI pa attr false s with
      | .ok (k, s) => .ok (lineRead (iLine s k).data (lineOffset pa) 4, s)
      | .error e => .error e
  else
    match readable true pa s with
    | .error e => .error e
    | .ok () => .ok (Memory.readBytes s.mem pa.toNat 4, s)

end Sys2Proof.Machine
end

