-- ==== Sys2Proof/Machine/Operands.lean ====
section
/-! DEFINITION. The operand forms of the instructions: effective addresses, aligned and unaligned loads and
stores with their checks in the order of 43_load_store.md rule R410, branch and jump targets
(45_jump_branch.md rules R562 to R564). -/

namespace Sys2Proof.Machine

/-! ## Addresses -/

/-- `GPR[base] + sext64(offset)` (43_load_store.md rule R410). -/
def effAddr (s : State) (base : RegNum) (offset : BitVec 16) : Dword := readGpr s base + sext16 offset

/-- `GPR[base] + GPR[index]` (48_fpu.md indexed forms; 47_mips4_additions.md rule R640). -/
def indexAddr (s : State) (base index : RegNum) : Dword := readGpr s base + readGpr s index

/-- The target of a branch (45_jump_branch.md rule R562). -/
def branchDest (s : State) (offset : BitVec 16) : Dword := s.pc + 4 + (offset ++ 0#2).signExtend 64

/-- The target of `J` and `JAL` (45_jump_branch.md rule R563). -/
def jumpDest (s : State) (target : BitVec 26) : Dword := (s.pc + 4).extractLsb' 28 36 ++ target ++ 0#2

/-- The link value, the address after the delay slot (45_jump_branch.md rule R564). -/
def linkValue (s : State) : Dword := s.pc + 8

/-! ## Data accesses -/

/-- A read of `n` bytes at a translated address: the Watch comparison, then the access; the bytes are assembled in
the processor's byte order (43_load_store.md rules R410, R412). -/
def loadAt (n : Nat) (pa : PAddr) (attr : BitVec 3) (s : State) : Except Stop (Dword × State) :=
  match watchData .load pa n s with
  | .error e => .error e
  | .ok () =>
    match memRead pa n attr s with
    | .error e => .error e
    | .ok (raw, s') => .ok (orderBytes (bigEndianCpu s) n raw, s')

/-- A write of `n` bytes at a translated address (43_load_store.md rules R410, R412). -/
def storeAt (n : Nat) (pa : PAddr) (attr : BitVec 3) (v : Dword) (s : State) : Except Stop State :=
  match watchData .store pa n s with
  | .error e => .error e
  | .ok () => memWrite pa n (orderBytes (bigEndianCpu s) n v) attr s

/-- An aligned load: alignment, translation, Watch, access (43_load_store.md rule R410). -/
def loadData (n : Nat) (va : Dword) (s : State) : Except Stop (Dword × State) :=
  match translateAligned .load n va s with
  | .error e => .error e
  | .ok (pa, attr) => loadAt n pa attr s

/-- An aligned store (43_load_store.md rule R410). -/
def storeData (n : Nat) (va v : Dword) (s : State) : Except Stop State :=
  match translateAligned .store n va s with
  | .error e => .error e
  | .ok (pa, attr) => storeAt n pa attr v s

/-! ## Unaligned accesses (43_load_store.md rule R429) -/

/-- The offset `k` of an address in its aligned unit of `n` bytes. -/
def unitOffset (n : Nat) (va : Dword) : Nat := va.toNat % n

/-- `s` of rule R429, in the processor's byte order. -/
def leftShift (s : State) (n : Nat) (va : Dword) : Nat :=
  if bigEndianCpu s then unitOffset n va else n - 1 - unitOffset n va

/-- `t` of rule R429. -/
def rightShift (s : State) (n : Nat) (va : Dword) : Nat := n - 1 - leftShift s n va

/-- How many bytes a "left" form accesses. -/
def leftCount (s : State) (n : Nat) (va : Dword) : Nat := n - leftShift s n va

/-- How many bytes a "right" form accesses. -/
def rightCount (s : State) (n : Nat) (va : Dword) : Nat := n - rightShift s n va

/-- The lowest physical address a "left" form accesses: `a` big-endian, `a0` little-endian. -/
def leftStart (s : State) (n : Nat) (va : Dword) (pa : PAddr) : PAddr :=
  if bigEndianCpu s then pa else pa - BitVec.ofNat 36 (unitOffset n va)

/-- The lowest physical address a "right" form accesses: `a0` big-endian, `a` little-endian. -/
def rightStart (s : State) (n : Nat) (va : Dword) (pa : PAddr) : PAddr :=
  if bigEndianCpu s then pa - BitVec.ofNat 36 (unitOffset n va) else pa

/-- The bytes a "left" load reads, as a number. -/
def loadLeft (n : Nat) (va : Dword) (s : State) : Except Stop (Dword × State) :=
  match translate .load va s with
  | .error e => .error e
  | .ok (pa, attr) => loadAt (leftCount s n va) (leftStart s n va pa) attr s

/-- The bytes a "right" load reads, as a number. -/
def loadRight (n : Nat) (va : Dword) (s : State) : Except Stop (Dword × State) :=
  match translate .load va s with
  | .error e => .error e
  | .ok (pa, attr) => loadAt (rightCount s n va) (rightStart s n va pa) attr s

/-- A "left" store: the most significant bytes of the `n`-byte datum `v`. -/
def storeLeft (n : Nat) (va v : Dword) (s : State) : Except Stop State :=
  match translate .store va s with
  | .error e => .error e
  | .ok (pa, attr) => storeAt (leftCount s n va) (leftStart s n va pa) attr (v >>> (8 * leftShift s n va)) s

/-- A "right" store: the least significant bytes of the `n`-byte datum `v`. -/
def storeRight (n : Nat) (va v : Dword) (s : State) : Except Stop State :=
  match translate .store va s with
  | .error e => .error e
  | .ok (pa, attr) => storeAt (rightCount s n va) (rightStart s n va pa) attr v s

/-- The low `8 * k` bits set. -/
def lowMask (k : Nat) : Dword := BitVec.ofNat 64 (2 ^ (8 * k) - 1)

/-- `(W << 8s) | (r and (2^(8s) - 1))` (43_load_store.md rules R430, R434), on the bytes read. -/
def mergeLeft (sh : Nat) (x r : Dword) : Dword := (x <<< (8 * sh)) ||| (r &&& lowMask sh)

/-- `(W >> 8t) | (r and not (2^(8n-8t) - 1))` (43_load_store.md rules R431, R435), on the bytes read. -/
def mergeRight (n sh : Nat) (x r : Dword) : Dword := x ||| (r &&& ~~~(lowMask (n - sh)))

end Sys2Proof.Machine
end

