-- ==== Sys2Proof/Machine/Branch.lean ====
section
/-! DEFINITION. Jumps and branches (45_jump_branch.md). -/

namespace Sys2Proof.Machine

/-- Write the link value to a register: before the delay slot, and whether or not the branch is taken
(45_jump_branch.md rule R564). -/
def link (r : RegNum) (s : State) : State := writeGpr s r (linkValue s)

/-- `signed64(GPR[r]) < 0`: bit 63. -/
def isNegative (s : State) (r : RegNum) : Bool := (readGpr s r).getLsbD 63

/-- `signed64(GPR[r]) <= 0`. -/
def isNonPositive (s : State) (r : RegNum) : Bool := isNegative s r || readGpr s r == 0

/-- `J` (rule R570). -/
def execJ (target : BitVec 26) (s : State) : Out := jumpTo (jumpDest s target) s

/-- `JAL` (rule R571). -/
def execJal (target : BitVec 26) (s : State) : Out := jumpTo (jumpDest s target) (link 31 s)

/-- `JR` (rule R572). -/
def execJr (rs : BitVec 5) (s : State) : Out := jumpTo (readGpr s rs) s

/-- `JALR`: the target is read before the link register is written (rule R573). -/
def execJalr (rs rd : BitVec 5) (s : State) : Out := jumpTo (readGpr s rs) (link rd s)

/-- `BEQ` (rule R574). -/
def execBeq (rs rt : BitVec 5) (offset : BitVec 16) (s : State) : Out :=
  branch (readGpr s rs == readGpr s rt) (branchDest s offset) s

/-- `BNE` (rule R575). -/
def execBne (rs rt : BitVec 5) (offset : BitVec 16) (s : State) : Out :=
  branch (readGpr s rs != readGpr s rt) (branchDest s offset) s

/-- `BLEZ` (rule R576). -/
def execBlez (rs : BitVec 5) (offset : BitVec 16) (s : State) : Out :=
  branch (isNonPositive s rs) (branchDest s offset) s

/-- `BGTZ` (rule R577). -/
def execBgtz (rs : BitVec 5) (offset : BitVec 16) (s : State) : Out :=
  branch (!isNonPositive s rs) (branchDest s offset) s

/-- `BLTZ` (rule R578). -/
def execBltz (rs : BitVec 5) (offset : BitVec 16) (s : State) : Out :=
  branch (isNegative s rs) (branchDest s offset) s

/-- `BGEZ` (rule R579). -/
def execBgez (rs : BitVec 5) (offset : BitVec 16) (s : State) : Out :=
  branch (!isNegative s rs) (branchDest s offset) s

/-- `BLTZAL` (rule R580). -/
def execBltzal (rs : BitVec 5) (offset : BitVec 16) (s : State) : Out :=
  branch (isNegative s rs) (branchDest s offset) (link 31 s)

/-- `BGEZAL` (rule R581). -/
def execBgezal (rs : BitVec 5) (offset : BitVec 16) (s : State) : Out :=
  branch (!isNegative s rs) (branchDest s offset) (link 31 s)

/-- `BEQL` (rule R582). -/
def execBeql (rs rt : BitVec 5) (offset : BitVec 16) (s : State) : Out :=
  branchLikely (readGpr s rs == readGpr s rt) (branchDest s offset) s

/-- `BNEL` (rule R583). -/
def execBnel (rs rt : BitVec 5) (offset : BitVec 16) (s : State) : Out :=
  branchLikely (readGpr s rs != readGpr s rt) (branchDest s offset) s

/-- `BLEZL` (rule R584). -/
def execBlezl (rs : BitVec 5) (offset : BitVec 16) (s : State) : Out :=
  branchLikely (isNonPositive s rs) (branchDest s offset) s

/-- `BGTZL` (rule R585). -/
def execBgtzl (rs : BitVec 5) (offset : BitVec 16) (s : State) : Out :=
  branchLikely (!isNonPositive s rs) (branchDest s offset) s

/-- `BLTZL` (rule R586). -/
def execBltzl (rs : BitVec 5) (offset : BitVec 16) (s : State) : Out :=
  branchLikely (isNegative s rs) (branchDest s offset) s

/-- `BGEZL` (rule R587). -/
def execBgezl (rs : BitVec 5) (offset : BitVec 16) (s : State) : Out :=
  branchLikely (!isNegative s rs) (branchDest s offset) s

/-- `BLTZALL` (rule R588). -/
def execBltzall (rs : BitVec 5) (offset : BitVec 16) (s : State) : Out :=
  branchLikely (isNegative s rs) (branchDest s offset) (link 31 s)

/-- `BGEZALL` (rule R589). -/
def execBgezall (rs : BitVec 5) (offset : BitVec 16) (s : State) : Out :=
  branchLikely (!isNegative s rs) (branchDest s offset) (link 31 s)

end Sys2Proof.Machine
end

