-- ==== Sys2Proof/Machine/Mips4.lean ====
section
/-! DEFINITION. The MIPS IV integer-side additions: conditional moves and prefetch (47_mips4_additions.md). -/

namespace Sys2Proof.Machine

/-- `GPR[rd] <- GPR[rs]` if the condition holds, else nothing is written (rule R631). -/
def moveIf (c : Bool) (rs rd : RegNum) (s : State) : Out :=
  if c then writeResult rd (readGpr s rs) s else complete s

/-- `MOVN` (rule R633). -/
def execMovn (rs rt rd : BitVec 5) (s : State) : Out := requireMips4 s (moveIf (readGpr s rt != 0) rs rd s)

/-- `MOVZ` (rule R634). -/
def execMovz (rs rt rd : BitVec 5) (s : State) : Out := requireMips4 s (moveIf (readGpr s rt == 0) rs rd s)

/-- `MOVF` (rule R632). -/
def execMovf (rs : BitVec 5) (cc : BitVec 3) (rd : BitVec 5) (s : State) : Out :=
  requireMips4 s (requireCu1 s (moveIf (!readFcc s cc) rs rd s))

/-- `MOVT` (rule R632). -/
def execMovt (rs : BitVec 5) (cc : BitVec 3) (rd : BitVec 5) (s : State) : Out :=
  requireMips4 s (requireCu1 s (moveIf (readFcc s cc) rs rd s))

/-! ## Prefetch -/

/-- The line becomes zero, as hint 30 may make it at the transparent level: its bytes are zero and not yet written
back, whatever lies below (log entries 25, 39). -/
def zeroLine (pa : PAddr) (s : State) : State :=
  { s with mem := Memory.writeLine s.mem (lineAddr pa) 0, stale := noteStale s.mem (lineAddr pa) 32 s.stale }

/-- Hint 30 (rule R641): explicit, a miss allocates a valid, dirty line of zeros without a memory read; transparent,
either nothing happens or the line becomes zero, a free choice. DESIGN CHOICE, log entry 39: `B` follows the attribute
as in every fill, and the line is never locked, since it is no load. -/
def prepareForStore (pa : PAddr) (attr : BitVec 3) (s : State) : Except Stop State :=
  if s.params.explicitCaches then
    match lookupD s pa with
    | .error e => .error e
    | .ok (some _) => .ok s
    | .ok none =>
      match evictD pa false s with
      | .error e => .error e
      | .ok (slot, s) => .ok (putD slot.line (newD pa attr true slot 0) s)
  else .ok (if (s.free 0).getLsbD 0 then zeroLine pa (s.drew 1) else s.drew 1)

/-- Every other hint (rule R640): explicit, the line may be brought in as for a load, a free choice (DESIGN CHOICE, log
entry 39); transparent, no effect. A bus error of the fill is imprecise (60_exceptions.md rule R812) and a prefetch
stops at no device: a line that cannot be read is left alone here. -/
def prefetchLine (pa : PAddr) (attr : BitVec 3) (s : State) : Except Stop State :=
  if s.params.explicitCaches then
    if (s.free 0).getLsbD 0 then
      match lookupD s pa with
      | .error e => .error e
      | .ok (some _) => .ok (s.drew 1)
      | .ok none =>
        match fillD pa attr true (s.drew 1) with
        | .ok (_, s) => .ok s
        | .error (.fault f) => .error (.fault f)
        | .error _ => .ok (s.drew 1)
    else .ok (s.drew 1)
  else .ok s

/-- A prefetch (rules R640, R641): an address that would raise an exception, or an uncached page, has no effect; an
address whose bits 63:62 differ from those of its base is `UNDEFINED` (90_conflicts.md C22). DESIGN CHOICE, log entry 20:
a prefetch through a reserved attribute stops as a load does. -/
def prefetch (hint : BitVec 5) (baseValue va : Dword) (s : State) : Out :=
  if baseValue.extractLsb' 62 2 != va.extractLsb' 62 2 then .fault .prefetchRegion
  else match translate .load va s with
    | .error (.fault f) => .fault f
    | .error _ => complete s
    | .ok (pa, attr) =>
      if uncached attr then complete s
      else if hint == 30 && decide (0x20 ≤ s.params.rev.toNat) then onOk (prepareForStore pa attr s) complete
      else onOk (prefetchLine pa attr s) complete

/-- `PREF` (rule R640). -/
def execPref (base hint : BitVec 5) (offset : BitVec 16) (s : State) : Out :=
  requireMips4 s (prefetch hint (readGpr s base) (effAddr s base offset) s)

/-- `PREFX` (rule R640): a standard coprocessor 1 instruction. -/
def execPrefx (base index hint : BitVec 5) (s : State) : Out :=
  requireMips4 s (requireCu1 s (prefetch hint (readGpr s base) (indexAddr s base index) s))

end Sys2Proof.Machine
end

