-- ==== Sys2Proof/Machine/CacheOps.lean ====
section
/-! DEFINITION. The `CACHE` instruction (41_cache_instruction.md): one meaning per value of its `op` field, at the
transparent level (rule R398) and at the explicit level (rules R382 to R397). -/

namespace Sys2Proof.Machine

/-! ## Permission, operand, link -/

/-- Who may execute `CACHE` (rule R381): `userForm` marks the Hit_Writeback types that `Status.CO` opens. -/
def requireCache (userForm : Bool) (s : State) (k : Out) : Out :=
  if cp0Usable s || (userForm && s.status.co) then k else raise (.cpU 0) s

/-- An event of a kind `LL_BREAK` names clears the link bit (60_exceptions.md rule R860; log entry 36). -/
def breakLink (kind : LinkEvent) (s : State) : State :=
  if s.params.llBreak.contains kind then { s with llBit := false } else s

/-- The operand of `CACHE`: permission, then the translation of a load without an alignment check (rule R380), then
the operation on the virtual address, the physical address and the cache attribute. DESIGN CHOICE, log entry 20: a
reserved attribute stops every `CACHE` operation, those by index too. -/
def withCacheOperand (userForm : Bool) (base : RegNum) (offset : BitVec 16) (s : State)
    (op : Dword → PAddr → BitVec 3 → State → Except Stop State) : Out :=
  requireCache userForm s
    (onOk (translate .load (effAddr s base offset) s) (fun t =>
      onOk (op (effAddr s base offset) t.1 t.2 s) (fun s' => complete (breakLink .cacheOp s'))))

/-- A secondary operation needs the secondary cache (rule R382). -/
def needS (s : State) (x : Except Stop State) : Except Stop State :=
  if s.params.scPresent then x else .error (.refused .cacheAbsent)

/-- A tertiary operation needs the tertiary cache (rule R382). -/
def needT (s : State) (x : Except Stop State) : Except Stop State :=
  if s.params.tcPresent then x else .error (.refused .cacheAbsent)

/-- The two levels of the cache model (20_memory.md rule R290). -/
def perLevel (s : State) (transparent explicit : Except Stop State) : Except Stop State :=
  if s.params.explicitCaches then explicit else transparent

/-! ## Lines by index (rule R383) -/

/-- The primary line an Index operation selects: way `vAddr[13:12]`, index `vAddr[11:5]`. -/
def indexP (va : Dword) : Nat := (va.extractLsb' 12 2).toNat * 128 + (va.extractLsb' 5 7).toNat

/-- The secondary line an Index operation selects: way `pAddr[17:16]`, index `pAddr[15:5]` (D53). -/
def indexS (pa : PAddr) : Nat := (pa.extractLsb' 16 2).toNat * 2048 + secondaryIndex pa

/-- The doubleword of a line that `vAddr[4:3]` selects (rule R389). -/
def dwordOf (va : Dword) : Nat := (va.extractLsb' 3 2).toNat

/-- The parity of the two words of a doubleword, bit 0 for the least significant (10_state.md rule R147), in address
order, and back. -/
def wordOrderBits (bigEndian : Bool) (b : BitVec 2) : BitVec 2 :=
  if bigEndian then bv1 (b.getLsbD 0) ++ bv1 (b.getLsbD 1) else b

/-- `ECC.PAR` for a doubleword of a data-cache line (10_state.md rule R147), its bytes in the byte order of the mode
stream (DESIGN CHOICE under `Status.RE`, log entry 27). -/
def parOfD (s : State) (va : Dword) (x : DLine) : BitVec 8 :=
  byteOrderBits s.params.bigEndian ((x.par >>> (8 * dwordOf va)).truncate 8)

/-- The low bits of `ECC.PAR` for a doubleword of an instruction-cache line. -/
def parOfI (s : State) (va : Dword) (x : ILine) : BitVec 2 :=
  wordOrderBits s.params.bigEndian ((x.par >>> (2 * dwordOf va)).truncate 2)

/-- Replace `n` bits of a line's parity from bit `off`. -/
def setBits {w : Nat} (old : BitVec w) (off n : Nat) (new : BitVec w) : BitVec w :=
  let m : BitVec w := (BitVec.allOnes w >>> (w - n)) <<< off
  (old &&& ~~~m) ||| ((new <<< off) &&& m)

/-- With `Status.CE` = 1 the parity of the doubleword `vAddr[4:3]` of the data-cache line an operation names becomes
`ECC.PAR` (rule R397). DESIGN CHOICE, log entry 27: the line of the cache the operation names, and the byte order of the
mode stream, also under `Status.RE`. -/
def modifyParityD (va : Dword) (k : Nat) (s : State) : State :=
  if s.status.ce then
    let par := byteOrderBits s.params.bigEndian s.cp0.ecc.par
    putD k { dLine s k with par := setBits (dLine s k).par (8 * dwordOf va) 8 (par.zeroExtend 32) } s
  else s

/-- As `modifyParityD`, for an instruction-cache line. -/
def modifyParityI (va : Dword) (k : Nat) (s : State) : State :=
  if s.status.ce then
    let par := wordOrderBits s.params.bigEndian (s.cp0.ecc.par.truncate 2)
    putI k { iLine s k with par := setBits (iLine s k).par (2 * dwordOf va) 2 (par.zeroExtend 8) } s
  else s

/-- As `modifyParityD`, for a secondary line. -/
def modifyParityS (va : Dword) (k : Nat) (s : State) : State :=
  if s.status.ce then
    putS k { sLine s k with par := setBits (sLine s k).par (dwordOf va) 1 (s.cp0.ecc.par.truncate 4) } s
  else s

/-- Replace bits `hi : lo` of `TagLo` given as a mask; the others stay (10_state.md rule R149, D21). -/
def tagLoWith (old mask new : Word) : Word := (old &&& ~~~mask) ||| (new &&& mask)

/-- `TagLo`, `TagHi` and `ECC.PAR` are loaded (rule R389). -/
def setTags (lo hi : Word) (par : BitVec 8) (s : State) : State :=
  { s with cp0 := { s.cp0 with tagLo := lo, tagHi := hi, ecc := { s.cp0.ecc with par := par } } }

/-- `Status.CH <- hit` (rule R392). -/
def setCh (hit : Bool) (s : State) : State :=
  { s with cp0 := { s.cp0 with status := { s.status with ch := hit } } }

/-- Mark a data-cache line invalid; its lock bit is cleared with it (20_memory.md rule R294). -/
def invalidateD (k : Nat) (s : State) : State := 
  putD k (DLine.seal { dLine s k with state := 0, w := false, l := false }) s
/-- Mark an instruction-cache line invalid. -/
def invalidateI (k : Nat) (s : State) : State := 
  putI k (ILine.seal { iLine s k with state := 0, l := false }) s
/-- Mark a secondary line invalid. -/
def invalidateS (k : Nat) (s : State) : State := 
  putS k (SLine.seal { sLine s k with state := 0, l := false }) s

/-- The data-cache line that matches an address, invalidated if there is one (rules R392, R393). -/
def invalidateMatchingD (pa : PAddr) (s : State) : Except Stop State :=
  match lookupD s pa with
  | .error e => .error e
  | .ok (some k) => .ok (invalidateD k s)
  | .ok none => .ok s

/-! ## The transparent level (rule R398) -/

/-- `Index_Load_Tag` at the transparent level: three free registers. -/
def freeTags (s : State) : State :=
  let e := s.free 2
  { s.drew 3 with cp0 := { s.cp0 with
      tagLo := low32 (s.free 0)
      tagHi := low32 (s.free 1)
      ecc := { ss := e.getLsbD 28, i := e.getLsbD 27, d := e.getLsbD 26, s := e.getLsbD 25, ea1 := e.extractLsb' 20 4
               ea0 := e.extractLsb' 16 4, par := e.extractLsb' 0 8 } } }

/-- The line of an address. -/
def sameLine (pa : PAddr) (a : Nat) : Bool := a / 32 == pa.toNat / 32

/-- Whether a secondary Hit operation hits at the transparent level: a free value. -/
def freeHit (s : State) : Bool := (s.free 0).getLsbD 0

/-- `CH` of a secondary Hit operation at the transparent level; two free values are drawn. -/
def transparentCh (s : State) : State := setCh (freeHit s) (s.drew 2)

/-- The line's bytes have reached memory: nothing they held before can come back. -/
def lineReached (pa : PAddr) (s : State) : State := { s with stale := clearStale (lineAddr pa) 32 s.stale }

/-- `Hit_Writeback_S` at the transparent level: a hit writes back only a Dirty Exclusive line (rule R396), and whether the
line is one is a free value. -/
def transparentWritebackS (pa : PAddr) (s : State) : State :=
  let wrote := freeHit s && (s.free 1).getLsbD 0
  if wrote then lineReached pa (transparentCh s) else transparentCh s

/-- `Hit_Writeback_Invalidate_S` at the transparent level: after a hit the line is in neither cache, and what was modified
of it has reached memory (rule R393). -/
def transparentWritebackInvalidateS (pa : PAddr) (s : State) : State :=
  if freeHit s then lineReached pa (transparentCh s) else transparentCh s

/-- `Hit_Invalidate_S` at the transparent level may lose what had not reached memory. -/
def transparentInvalidateS (pa : PAddr) (s : State) : State := discard (sameLine pa) (transparentCh s)

/-- A primary writeback by address at the transparent level: with no secondary cache in use the line has reached memory
(DESIGN CHOICE, log entry 25). -/
def transparentHitD (pa : PAddr) (s : State) : State :=
  if secondaryOn s then s else lineReached pa s

/-- `Create_Dirty_Exclusive_D` at the transparent level: the 32 bytes of the line are free, whatever lies below (rule
R398). -/
def transparentCreate (pa : PAddr) (s : State) : State :=
  { s.drew 4 with
    mem := Memory.writeLine s.mem (lineAddr pa) (s.free 0 ++ s.free 1 ++ s.free 2 ++ s.free 3)
    stale := noteStale s.mem (lineAddr pa) 32 s.stale }

/-! ## Index operations -/

/-- `Index_Invalidate_I` (rule R386). -/
def execCacheIndexInvalidateI (base : BitVec 5) (offset : BitVec 16) (s : State) : Out :=
  withCacheOperand false base offset s (fun va _ _ s =>
    perLevel s (.ok s) (.ok (invalidateI (indexP va) s)))

/-- `Index_Writeback_Invalidate_D` (rule R387); a line to which software wrote the state Pending is `UNDEFINED`
(93_implementation_defined.md A21), every other is written back if it is not Invalid and its `W` bit is set. DESIGN CHOICE,
log entry 25: at the transparent level, where nothing says which line the index selects, the record of earlier values
stays as it is. -/
def execCacheIndexWritebackInvalidateD (base : BitVec 5) (offset : BitVec 16) (s : State) : Out :=
  withCacheOperand false base offset s (fun va _ _ s =>
    perLevel s (.ok s)
      (let k := indexP va
       let x := dLine s k
       if x.state == 1 && dWritten s k then .error (.fault .reservedCacheState)
       else
         match (if x.state != 0 && x.w then writebackD (dLineAddr x k) x s else .ok s) with
         | .error e => .error e
         | .ok s => .ok (modifyParityD va k (invalidateD k s))))

/-- `Flash_Invalidate_T` (rule R388). -/
def execCacheFlashInvalidateT (base : BitVec 5) (offset : BitVec 16) (s : State) : Out :=
  withCacheOperand false base offset s (fun _ _ _ s =>
    needT s (perLevel s (.ok (discard (fun _ => true) s))
      (.ok { s with caches := { s.caches with tcEpoch := s.caches.tcEpoch + 1, tcInvalid := true, tcache := [] } })))

/-- `Index_Writeback_Invalidate_S` (rule R388). DESIGN CHOICE, log entry 25: at the transparent level the record of earlier
values stays as it is. -/
def execCacheIndexWritebackInvalidateS (base : BitVec 5) (offset : BitVec 16) (s : State) : Out :=
  withCacheOperand false base offset s (fun va pa _ s =>
    needS s (perLevel s (.ok s)
      (let k := indexS pa
       let x := sLine s k
       match (if dirtyS x.state then writeBelow (sLineAddr x k) x.data s else .ok s) with
       | .error e => .error e
       | .ok s => .ok (modifyParityS va k (invalidateS k s)))))

/-- `Index_Load_Tag_I` (rule R389); `PAR` bits the instruction-cache format does not name are free values. -/
def execCacheIndexLoadTagI (base : BitVec 5) (offset : BitVec 16) (s : State) : Out :=
  withCacheOperand false base offset s (fun va _ _ s =>
    perLevel s (.ok (freeTags s))
      (let x := iLine s (indexP va)
       let new : Word := x.preDec.getD (Config.preDecode x.data) ++ 0#12 ++ x.state ++ 0#3 ++ bv1 x.l ++ bv1 x.f ++ bv1 x.p
       .ok (setTags (tagLoWith s.cp0.tagLo 0xFFF000C7 new) (Config.tagHiEncode 0 x.tag)
         ((s.free 0).truncate 6 ++ parOfI s va x) (s.drew 1))))

/-- `Index_Load_Tag_D` (rule R389). -/
def execCacheIndexLoadTagD (base : BitVec 5) (offset : BitVec 16) (s : State) : Out :=
  withCacheOperand false base offset s (fun va _ _ s =>
    perLevel s (.ok (freeTags s))
      (let x := dLine s (indexP va)
       let new : Word := 0#24 ++ x.state ++ bv1 x.sp ++ 0#1 ++ bv1 x.b ++ bv1 x.l ++ bv1 x.f ++ bv1 x.p
       .ok (setTags (tagLoWith s.cp0.tagLo 0x000000EF new) (Config.tagHiEncode 1 x.tag) (parOfD s va x) s)))

/-- `Index_Load_Tag_T` (rule R389); no `PAR` format names the tertiary cache: bit 0 is the parity of the doubleword as
for the secondary cache, the other bits are free values (log entry 27). -/
def execCacheIndexLoadTagT (base : BitVec 5) (offset : BitVec 16) (s : State) : Out :=
  withCacheOperand false base offset s (fun va pa _ s =>
    needT s (perLevel s (.ok (freeTags s))
      (let x := tLine s (tertiaryIndex s pa)
       .ok (setTags (tagLoWith s.cp0.tagLo 0x00000180 (x.state.zeroExtend 32 <<< 7))
         (Config.tagHiEncode 2 (x.tag ++ 0#7)) ((s.free 0).truncate 7 ++ bv1 (x.par.getLsbD (dwordOf va))) (s.drew 1)))))

/-- `Index_Load_Tag_S` (rule R389); `PAR` bits the secondary format does not name are free values. -/
def execCacheIndexLoadTagS (base : BitVec 5) (offset : BitVec 16) (s : State) : Out :=
  withCacheOperand false base offset s (fun va pa _ s =>
    needS s (perLevel s (.ok (freeTags s))
      (let x := sLine s (indexS pa)
       let new : Word := 0#23 ++ x.state ++ bv1 x.sp ++ 0#2 ++ bv1 x.l ++ bv1 x.f ++ bv1 x.p
       .ok (setTags (tagLoWith s.cp0.tagLo 0x000001E7 new) (Config.tagHiEncode 3 x.tag)
         ((s.free 0).truncate 7 ++ bv1 (x.par.getLsbD (dwordOf va))) (s.drew 1)))))

/-- `Index_Store_Tag_I` (rule R390): the parity is computed (10_state.md rule R149). -/
def execCacheIndexStoreTagI (base : BitVec 5) (offset : BitVec 16) (s : State) : Out :=
  withCacheOperand false base offset s (fun va _ _ s =>
    perLevel s (.ok s)
      (let lo := s.cp0.tagLo
       .ok (putI (indexP va)
         (ILine.seal { iLine s (indexP va) with
           tag := Config.tagHiDecode 0 s.cp0.tagHi, state := lo.extractLsb' 6 2, l := lo.getLsbD 2, f := lo.getLsbD 1
           preDec := some (lo.extractLsb' 20 12) }) s)))

/-- `Index_Store_Tag_D` (rule R390): no writeback; the new tag has `W` clear; the parity is computed. -/
def execCacheIndexStoreTagD (base : BitVec 5) (offset : BitVec 16) (s : State) : Out :=
  withCacheOperand false base offset s (fun va _ _ s =>
    perLevel s (.ok (discard (fun a => a / 32 % 128 == (va.extractLsb' 5 7).toNat) s))
      (let lo := s.cp0.tagLo
       .ok (putD (indexP va)
         (DLine.seal { dLine s (indexP va) with
           tag := Config.tagHiDecode 1 s.cp0.tagHi, state := lo.extractLsb' 6 2, w := false, b := lo.getLsbD 3
           l := lo.getLsbD 2, f := lo.getLsbD 1 }) s)))

/-- Write a tertiary tag from `TagLo`, `TagHi`. -/
def storeTagT (k : Nat) (s : State) : State :=
  putT k { tLine s k with
    tag := (Config.tagHiDecode 2 s.cp0.tagHi).extractLsb' 7 17, state := s.cp0.tagLo.extractLsb' 7 2 } s

/-- `Index_Store_Tag_T` (rule R390). -/
def execCacheIndexStoreTagT (base : BitVec 5) (offset : BitVec 16) (s : State) : Out :=
  withCacheOperand false base offset s (fun _ pa _ s =>
    needT s (perLevel s
      (.ok (discard (fun a => tertiaryIndex s (BitVec.ofNat 36 a) == tertiaryIndex s pa) s))
      (.ok (storeTagT (tertiaryIndex s pa) s))))

/-- `Index_Store_Tag_S` (rule R390): the parity is computed. -/
def execCacheIndexStoreTagS (base : BitVec 5) (offset : BitVec 16) (s : State) : Out :=
  withCacheOperand false base offset s (fun _ pa _ s =>
    needS s (perLevel s
      (.ok (discard (fun a => a / 32 % 2048 == secondaryIndex pa) s))
      (let lo := s.cp0.tagLo
       .ok (putS (indexS pa)
         (SLine.seal { sLine s (indexS pa) with
           tag := Config.tagHiDecode 3 s.cp0.tagHi, state := lo.extractLsb' 6 3, l := lo.getLsbD 2, f := lo.getLsbD 1 }) s))))

/-- `Page_Invalidate_T` (rule R395): 128 `Index_Store_Tag` operations over a page. -/
def execCachePageInvalidateT (base : BitVec 5) (offset : BitVec 16) (s : State) : Out :=
  withCacheOperand false base offset s (fun va pa _ s =>
    needT s
      (if va.extractLsb' 0 12 != 0 then .error (.fault .unalignedPageInvalidate)
       else perLevel s
         (.ok (discard (fun a => tertiaryIndex s (BitVec.ofNat 36 a) / 128 == tertiaryIndex s pa / 128) s))
         (.ok ((List.range 128).foldl (fun s i => storeTagT (tertiaryIndex s (pa + BitVec.ofNat 36 (32 * i))) s) s))))

/-! ## Operations on an address -/

/-- `Create_Dirty_Exclusive_D` (rule R391): the data field of a new line, and its parity, are free. DESIGN CHOICE, log
entry 26: a new line takes `B` from the attribute as a fill does and is not locked; a line that hits keeps its `B`, `L`
and `F`. -/
def execCacheCreateDirtyExclusiveD (base : BitVec 5) (offset : BitVec 16) (s : State) : Out :=
  withCacheOperand false base offset s (fun _ pa attr s =>
    perLevel s (.ok (transparentCreate pa s))
      (match lookupD s pa with
       | .error e => .error e
       | .ok (some k) => .ok (putD k (DLine.seal { dLine s k with state := 3, w := true }) s)
       | .ok none =>
         match evictD pa false s with
         | .error e => .error e
         | .ok (slot, s) =>
           .ok (putD slot.line
             { newD pa attr true slot (s.free 0 ++ s.free 1 ++ s.free 2 ++ s.free 3) with par := low32 (s.free 4) }
             (s.drew 5))))

/-- `Hit_Invalidate_I` (rule R392). -/
def execCacheHitInvalidateI (base : BitVec 5) (offset : BitVec 16) (s : State) : Out :=
  withCacheOperand false base offset s (fun _ pa _ s =>
    perLevel s (.ok s)
      (match lookupI s pa with
       | .error e => .error e
       | .ok (some k) => .ok (invalidateI k s)
       | .ok none => .ok s))

/-- `Hit_Invalidate_D` (rule R392): dirty data is discarded. -/
def execCacheHitInvalidateD (base : BitVec 5) (offset : BitVec 16) (s : State) : Out :=
  withCacheOperand false base offset s (fun _ pa _ s =>
    perLevel s (.ok (discard (sameLine pa) s)) (invalidateMatchingD pa s))

/-- `Hit_Invalidate_S` (rule R392). -/
def execCacheHitInvalidateS (base : BitVec 5) (offset : BitVec 16) (s : State) : Out :=
  withCacheOperand false base offset s (fun _ pa _ s =>
    needS s (perLevel s (.ok (transparentInvalidateS pa s))
      (match lookupS s pa with
       | some k => invalidateMatchingD pa (setCh true (invalidateS k s))
       | none => .ok (setCh false s))))

/-- `Fill_I` (rule R394): the line is read, which can raise a bus error, and placed in the instruction cache; with
`Status.CE` = 1 the parity of one doubleword is `ECC.PAR` (rule R397). DESIGN CHOICE, log entries 26 and 38: an uncached
page fills through the secondary and tertiary caches; a line already present is replaced by the new one; the bus error
of its read is a data bus error. -/
def execCacheFillI (base : BitVec 5) (offset : BitVec 16) (s : State) : Out :=
  withCacheOperand false base offset s (fun va pa attr s =>
    perLevel s
      (match readable false pa s with
       | .error e => .error e
       | .ok () => .ok s)
      (match lookupI s pa with
       | .error e => .error e
       | .ok hit =>
         match fillI pa attr true (match hit with | some k => invalidateI k s | none => s) with
         | .error (.exc e _) => .error (.exc e s)
         | .error e => .error e
         | .ok (k, s') => .ok (modifyParityI va k s')))

/-- `Hit_Writeback_Invalidate_D` (rule R393). -/
def execCacheHitWritebackInvalidateD (base : BitVec 5) (offset : BitVec 16) (s : State) : Out :=
  withCacheOperand true base offset s (fun va pa _ s =>
    perLevel s (.ok (transparentHitD pa s))
      (match lookupD s pa with
       | .error e => .error e
       | .ok none => .ok s
       | .ok (some k) =>
         let x := dLine s k
         match (if x.w then writebackD (dLineAddr x k) x s else .ok s) with
         | .error e => .error e
         | .ok s => .ok (modifyParityD va k (invalidateD k s))))

/-- The newest data of a secondary line, and the data-cache line it comes from if that holds modified data (rule
R385). -/
def newestS (k : Nat) (pa : PAddr) (s : State) : Except Stop (BitVec 256 × Option Nat) :=
  match lookupD s pa with
  | .error e => .error e
  | .ok (some d) => .ok (if (dLine s d).w then ((dLine s d).data, some d) else ((sLine s k).data, none))
  | .ok none => .ok ((sLine s k).data, none)

/-- `Hit_Writeback_Invalidate_S` (rule R393): the data is dirty if the secondary line or the data-cache line is. -/
def execCacheHitWritebackInvalidateS (base : BitVec 5) (offset : BitVec 16) (s : State) : Out :=
  withCacheOperand true base offset s (fun va pa _ s =>
    needS s (perLevel s (.ok (transparentWritebackInvalidateS pa s))
      (match lookupS s pa with
       | none => .ok (setCh false s)
       | some k =>
         match newestS k pa s with
         | .error e => .error e
         | .ok (v, fromD) =>
           let dirty := dirtyS (sLine s k).state || fromD.isSome
           match (if dirty then writeBelow (sLineAddr (sLine s k) k) v s else .ok s) with
           | .error e => .error e
           | .ok s => invalidateMatchingD pa (setCh true (modifyParityS va k (invalidateS k s))))))

/-- `Hit_Writeback_I` (rule R396): memory is rewritten with what it holds; only with `Status.CE` = 1 the parity of a
doubleword of the line changes (rule R397). -/
def execCacheHitWritebackI (base : BitVec 5) (offset : BitVec 16) (s : State) : Out :=
  withCacheOperand true base offset s (fun va pa _ s =>
    perLevel s (.ok s)
      (match lookupI s pa with
       | .error e => .error e
       | .ok none => .ok s
       | .ok (some k) => .ok (modifyParityI va k s)))

/-- `Hit_Writeback_D` (rule R396). -/
def execCacheHitWritebackD (base : BitVec 5) (offset : BitVec 16) (s : State) : Out :=
  withCacheOperand true base offset s (fun va pa _ s =>
    perLevel s (.ok (transparentHitD pa s))
      (match lookupD s pa with
       | .error e => .error e
       | .ok none => .ok s
       | .ok (some k) =>
         let x := dLine s k
         match (if x.w then writebackD (dLineAddr x k) x s else .ok s) with
         | .error e => .error e
         | .ok s => .ok (modifyParityD va k (putD k { x with w := false } s))))

/-- `Hit_Writeback_S` (rule R396): only a dirty secondary line is written back, with the data cache's data if that is
modified. DESIGN CHOICE, log entry 26: the secondary line, now Clean Exclusive, takes that data too. -/
def execCacheHitWritebackS (base : BitVec 5) (offset : BitVec 16) (s : State) : Out :=
  withCacheOperand true base offset s (fun va pa _ s =>
    needS s (perLevel s (.ok (transparentWritebackS pa s))
      (match lookupS s pa with
       | none => .ok (setCh false s)
       | some k =>
         if dirtyS (sLine s k).state then
           match newestS k pa s with
           | .error e => .error e
           | .ok (v, fromD) =>
             match writeBelow (sLineAddr (sLine s k) k) v s with
             | .error e => .error e
             | .ok s =>
               let s1 := putS k (SLine.seal { sLine s k with state := 4, par := dwordParity v, data := v }) s
               let s2 := match fromD with
                 | some d => putD d { dLine s1 d with w := false } s1
                 | none => s1
               .ok (setCh true (modifyParityS va k s2))
         else .ok (setCh true (modifyParityS va k s)))))

/-! ## The codes that name no operation (rule R382) -/

/-- An "NA" or unlisted code: the permission check and the translation, then no defined effect. -/
def noOperation (base : BitVec 5) (offset : BitVec 16) (s : State) : Out :=
  withCacheOperand false base offset s (fun _ _ _ _ => .error (.refused .cacheOpUndefined))

/-- Code 0x0C (rule R382). -/
def execCacheOp0C (base : BitVec 5) (offset : BitVec 16) (s : State) : Out := noOperation base offset s
/-- Code 0x0E (rule R382). -/
def execCacheOp0E (base : BitVec 5) (offset : BitVec 16) (s : State) : Out := noOperation base offset s
/-- Code 0x0F (rule R382). -/
def execCacheOp0F (base : BitVec 5) (offset : BitVec 16) (s : State) : Out := noOperation base offset s
/-- Code 0x12 (rule R382). -/
def execCacheOp12 (base : BitVec 5) (offset : BitVec 16) (s : State) : Out := noOperation base offset s
/-- Code 0x1A (rule R382). -/
def execCacheOp1A (base : BitVec 5) (offset : BitVec 16) (s : State) : Out := noOperation base offset s
/-- Code 0x1C (rule R382). -/
def execCacheOp1C (base : BitVec 5) (offset : BitVec 16) (s : State) : Out := noOperation base offset s
/-- Code 0x1D (rule R382). -/
def execCacheOp1D (base : BitVec 5) (offset : BitVec 16) (s : State) : Out := noOperation base offset s
/-- Code 0x1E (rule R382). -/
def execCacheOp1E (base : BitVec 5) (offset : BitVec 16) (s : State) : Out := noOperation base offset s
/-- Code 0x1F (rule R382). -/
def execCacheOp1F (base : BitVec 5) (offset : BitVec 16) (s : State) : Out := noOperation base offset s

end Sys2Proof.Machine
end

