-- ==== Sys2Proof/Machine/Cp0.lean ====
section
/-! DEFINITION. The CP0 instructions: moves, TLB operations, `ERET`, `WAIT` (40_cp0_instructions.md), with the
register map of 10_state.md rules R65, R121 to R165. -/

namespace Sys2Proof.Machine

/-! ## Set 0 -/

/-- The registers of 64 bits (10_state.md rule R61). -/
def cp0Wide (n : RegNum) : Bool :=
  match n.toNat with
  | 2 | 3 | 4 | 8 | 10 | 14 | 18 | 19 | 20 | 30 => true
  | _ => false

/-- `Info` exists in revision 2.x only (10_state.md rule R128). -/
def hasInfo (s : State) : Bool := decide (0x20 ≤ s.params.rev.toNat)

/-- A 32-bit register in 64 bits. -/
def wide (w : Word) : Dword := w.zeroExtend 64

/-- `CPR[0, n]`, a 32-bit register zero-extended; `none` for the reserved numbers (10_state.md rules R62, R65). -/
def readCp0 (s : State) (n : RegNum) : Option Dword :=
  match n.toNat with
  | 0 => some (wide s.cp0.index.toWord)
  | 1 => some (s.cp0.random.zeroExtend 64)
  | 2 => some s.cp0.entryLo0.toDword
  | 3 => some s.cp0.entryLo1.toDword
  | 4 => some s.cp0.context.toDword
  | 5 => some (wide (pageMaskWord s.cp0.pageMask))
  | 6 => some (s.cp0.wired.zeroExtend 64)
  | 7 => if hasInfo s then some (wide (infoWord s.params)) else none
  | 8 => some s.cp0.badVAddr
  | 9 => some (wide s.cp0.count)
  | 10 => some s.cp0.entryHi.toDword
  | 11 => some (wide s.cp0.compare)
  | 12 => some (wide s.status.toWord)
  | 13 => some (wide (causeWord s))
  | 14 => some s.cp0.epc
  | 15 => some (wide (pridWord s.params))
  | 16 => some (wide (s.cp0.config.toWord s.params))
  | 17 => some (wide s.cp0.llAddr)
  | 18 => some s.cp0.watch1.toDword
  | 19 => some s.cp0.watch2.toDword
  | 20 => some s.cp0.xcontext.toDword
  | 22 => some (wide s.cp0.perfControl.toWord)
  | 24 => some (wide s.cp0.watchMask.toWord)
  | 25 => some (wide s.cp0.perfCount)
  | 26 => some (wide s.cp0.ecc.toWord)
  | 27 => some (wide s.cp0.cacheErr.toWord)
  | 28 => some (wide s.cp0.tagLo)
  | 29 => some (wide s.cp0.tagHi)
  | 30 => some s.cp0.errorEpc
  | _ => none

/-- A change of `FR` leaves free values in the `FGR`s (10_state.md rule R50; 92_eei_decisions.md D42; log entry 37). -/
def scrambleFgr (s : State) : State :=
  { s.drew 32 with fpu := { s.fpu with fgr := Vector.ofFn (fun i => s.free i.val) } }

/-- A write of `Status` (10_state.md rule R133). -/
def writeStatus (w : Word) (s : State) : State :=
  let new := Status.ofWord w
  let s1 := if new.fr == s.status.fr then s else scrambleFgr s
  { s1 with cp0 := { s1.cp0 with status := new } }

/-- A write of `Config`: setting `TE` leaves the tertiary cache's contents unspecified (10_state.md rule R137;
20_memory.md rule R295). -/
def writeConfig (w : Word) (s : State) : State :=
  let new := ConfigReg.ofWord w
  let caches :=
    if new.te && !s.cp0.config.te then
      { s.caches with tcEpoch := s.caches.tcEpoch + 1, tcInvalid := false, tcache := [] }
    else s.caches
  { s with caches := caches, cp0 := { s.cp0 with config := new } }

/-- `CPR[0, n] <- WriteMask(n, v)` with its side effects (40_cp0_instructions.md rules R353, R364); read-only and
reserved registers ignore the write. -/
def writeCp0 (n : RegNum) (v : Dword) (s : State) : State :=
  let w := low32 v
  match n.toNat with
  | 0 => { s with cp0 := { s.cp0 with index := s.cp0.index.write w } }
  | 2 => { s with cp0 := { s.cp0 with entryLo0 := .ofDword v } }
  | 3 => { s with cp0 := { s.cp0 with entryLo1 := .ofDword v } }
  | 4 => { s with cp0 := { s.cp0 with context := s.cp0.context.write v } }
  | 5 => { s with cp0 := { s.cp0 with pageMask := w.extractLsb' 13 12 } }
  | 6 => { s with cp0 := { s.cp0 with wired := w.extractLsb' 0 6, random := tlbTop s } }
  | 7 => if hasInfo s then { s with cp0 := { s.cp0 with status := { s.status with ie := w.getLsbD 0 } } } else s
  | 9 => { s with cp0 := { s.cp0 with count := w } }
  | 10 => { s with cp0 := { s.cp0 with entryHi := .ofDword v } }
  | 11 => { s with timerPending := false, cp0 := { s.cp0 with compare := w } }
  | 12 => writeStatus w s
  | 13 => { s with cp0 := { s.cp0 with cause := s.cp0.cause.write w } }
  | 14 => { s with cp0 := { s.cp0 with epc := v } }
  | 16 => writeConfig w s
  | 17 => { s with cp0 := { s.cp0 with llAddr := w } }
  | 18 => { s with cp0 := { s.cp0 with watch1 := .ofDword v } }
  | 19 => { s with cp0 := { s.cp0 with watch2 := .ofDword v } }
  | 20 => { s with cp0 := { s.cp0 with xcontext := s.cp0.xcontext.write v } }
  | 22 => { s with cp0 := { s.cp0 with perfControl := .ofWord w } }
  | 24 => { s with cp0 := { s.cp0 with watchMask := .ofWord w } }
  | 25 => { s with cp0 := { s.cp0 with perfCount := w } }
  | 26 => { s with cp0 := { s.cp0 with ecc := s.cp0.ecc.write w } }
  | 28 => { s with cp0 := { s.cp0 with tagLo := w } }
  | 29 => { s with cp0 := { s.cp0 with tagHi := w } }
  | 30 => { s with cp0 := { s.cp0 with errorEpc := v } }
  | _ => s

/-! ## Set 1 -/

/-- `CCR[0, n]`; `none` for the reserved numbers (10_state.md rules R160 to R165). -/
def readCp0Control (s : State) (n : RegNum) : Option Word :=
  match n.toNat with
  | 18 => some s.cp0.iplLo
  | 19 => some (s.cp0.iplHi.zeroExtend 32)
  | 20 => some s.cp0.intControl.toWord
  | 26 => some s.cp0.dErrAddr0
  | 27 => some s.cp0.dErrAddr1
  | _ => none

/-- `CCR[0, n] <- WriteMask(n, w)` (40_cp0_instructions.md rule R363). -/
def writeCp0Control (n : RegNum) (w : Word) (s : State) : State :=
  match n.toNat with
  | 18 => { s with cp0 := { s.cp0 with iplLo := w } }
  | 19 => { s with cp0 := { s.cp0 with iplHi := w.truncate 24 } }
  | 20 => { s with cp0 := { s.cp0 with intControl := .ofWord w } }
  | _ => s

/-! ## The moves -/

/-- A move from CP0 completes: the register's low word sign-extended, or a free word for a reserved number
(10_state.md rule R62). -/
def moveFromCp0 (r : RegNum) (x : Option Word) (s : State) : Out :=
  match x with
  | some w => writeResult r (sext32 w) s
  | none => writeResult r (sext32 (low32 (s.free 0))) (s.drew 1)

/-- `MFC0` (rule R352). -/
def execMfc0 (rt rd : BitVec 5) (s : State) : Out :=
  requireCp0 s (moveFromCp0 rt ((readCp0 s rd).map low32) s)

/-- `MTC0` (rule R353). -/
def execMtc0 (rt rd : BitVec 5) (s : State) : Out :=
  requireCp0 s (complete (writeCp0 rd (readGpr s rt) s))

/-- `DMFC0`: a 32-bit register gives a free value (rule R354; 92_eei_decisions.md D5). -/
def execDmfc0 (rt rd : BitVec 5) (s : State) : Out :=
  requireIs64 s (requireCp0 s
    (match (if cp0Wide rd then readCp0 s rd else none) with
      | some v => writeResult rt v s
      | none => writeResult rt (s.free 0) (s.drew 1)))

/-- `DMTC0`: a 32-bit register receives a free value through its write mask (rule R355; D5). -/
def execDmtc0 (rt rd : BitVec 5) (s : State) : Out :=
  requireIs64 s (requireCp0 s
    (if cp0Wide rd then complete (writeCp0 rd (readGpr s rt) s)
     else complete (writeCp0 rd (s.free 0) (s.drew 1))))

/-- `CFC0` (rule R362). -/
def execCfc0 (rt rd : BitVec 5) (s : State) : Out :=
  requireCp0 s (moveFromCp0 rt (readCp0Control s rd) s)

/-- `CTC0` (rule R363). -/
def execCtc0 (rt rd : BitVec 5) (s : State) : Out :=
  requireCp0 s (complete (writeCp0Control rd (low32 (readGpr s rt)) s))

/-! ## The TLB operations -/

/-- The entry the registers describe (rule R360; 10_state.md rule R170). -/
def entryFromRegs (s : State) : TlbEntry :=
  let lo0 := s.cp0.entryLo0
  let lo1 := s.cp0.entryLo1
  { mask := s.cp0.pageMask, r := s.cp0.entryHi.r, vpn2 := s.cp0.entryHi.vpn2, asid := s.cp0.entryHi.asid
    g := lo0.g && lo1.g
    even := { pfn := lo0.pfn, c := lo0.c, d := lo0.d, v := lo0.v }
    odd := { pfn := lo1.pfn, c := lo1.c, d := lo1.d, v := lo1.v } }

/-- Write a JTLB entry. -/
def writeTlb (i : BitVec 6) (e : TlbEntry) (s : State) : State := { s with tlb := s.tlb.set i.toNat e i.isLt }

/-- The registers an entry reads back into; the `VPN2` bits under its mask are free (rule R359; D7). -/
def loadRegs (e : TlbEntry) (s : State) : State :=
  let under : BitVec 27 := e.mask.zeroExtend 27
  { s.drew 1 with cp0 := { s.cp0 with
      pageMask := e.mask
      entryHi := { r := e.r
                   vpn2 := if e.mask = 0 then e.vpn2 else (e.vpn2 &&& ~~~under) ||| ((s.free 0).truncate 27 &&& under)
                   asid := e.asid }
      entryLo0 := { pfn := e.even.pfn, c := e.even.c, d := e.even.d, v := e.even.v, g := e.g }
      entryLo1 := { pfn := e.odd.pfn, c := e.odd.c, d := e.odd.d, v := e.odd.v, g := e.g } } }

/-- `TLBP` (rule R358): a probe compares entries and translates nothing, so that an illegal mask does not stop it
(20_memory.md rule R247; log entry 21). -/
def execTlbp (s : State) : Out :=
  requireCp0 s
    (match tlbMatches s s.cp0.entryHi.r s.cp0.entryHi.vpn2 with
      | [] => complete { s.drew 1 with cp0 := { s.cp0 with index := { p := true, index := (s.free 0).truncate 6 } } }
      | [(_, i)] => complete { s with cp0 := { s.cp0 with index := { p := false, index := BitVec.ofNat 6 i } } }
      | _ => .fault .multipleTlbMatch)

/-- `TLBR` (rule R359). -/
def execTlbr (s : State) : Out :=
  requireCp0 s
    (let i := s.cp0.index.index
     if tlbSize s ≤ i.toNat then .fault .tlbIndexOutOfRange
     else complete (loadRegs (s.tlb[i.toNat]'i.isLt) s))

/-- `TLBWI` (rule R360). -/
def execTlbwi (s : State) : Out :=
  requireCp0 s
    (let i := s.cp0.index.index
     if tlbSize s ≤ i.toNat then .fault .tlbIndexOutOfRange
     else complete (writeTlb i (entryFromRegs s) s))

/-- `TLBWR` (rule R361). -/
def execTlbwr (s : State) : Out :=
  requireCp0 s
    (if s.cp0.wired.toNat > (tlbTop s).toNat then .fault .wiredOutOfRange
     else complete (writeTlb s.cp0.random (entryFromRegs s) s))

/-! ## `ERET`, `WAIT` -/

/-- `ERET` (rule R356); in a delay slot it is `UNDEFINED`. -/
def execEret (s : State) : Out :=
  requireCp0 s (if s.inDelaySlot then .fault .eretInDelaySlot else .next (returnFromException s))

/-- `WAIT`: enter Standby if the system bus is idle, else no operation (rule R357). -/
def execWait (s : State) : Out :=
  requireCp0 s (complete (if s.busIdle then { s with standby := true } else s))

end Sys2Proof.Machine
end

