-- ==== Sys2Proof/Machine/FpNum.lean ====
section
/-! DEFINITION. Floating-point arithmetic on bit patterns (48_fpu.md sections 1 to 3, 5, 6): classes of operands,
the one rounding function, and the operations with the special operands of Table 6.15. Values are exact naturals
times powers of two; every operation is computed exactly and rounded once. A pattern of the single format stands in
the low 32 bits. -/

namespace Sys2Proof.Machine

/-- The two floating-point formats (48_fpu.md rule R663). -/
inductive FpFmt where
  | single
  | double
deriving DecidableEq, Repr

/-- Width of the fraction field. -/
def FpFmt.fracBits : FpFmt → Nat
  | .single => 23
  | .double => 52

/-- Width of the exponent field. -/
def FpFmt.expBits : FpFmt → Nat
  | .single => 8
  | .double => 11

/-- Exponent bias; it is also `Emax`. -/
def FpFmt.bias : FpFmt → Nat
  | .single => 127
  | .double => 1023

/-- `Emin`. -/
def FpFmt.emin (f : FpFmt) : Int := 1 - (f.bias : Int)

/-- Bit number of the sign. -/
def FpFmt.signPos (f : FpFmt) : Nat := f.fracBits + f.expBits

/-- The classes of Table 6.5 (48_fpu.md rules R663, R664); a finite value is `(-1)^neg * m * 2^e`. -/
inductive FpClass where
  | snan (neg : Bool)
  | qnan (neg : Bool)
  | inf (neg : Bool)
  | zero (neg : Bool)
  | denorm (neg : Bool) (m : Nat)
  | norm (neg : Bool) (m : Nat) (e : Int)
deriving DecidableEq, Repr

/-- The sign of an operand. -/
def FpClass.neg : FpClass → Bool
  | .snan n => n
  | .qnan n => n
  | .inf n => n
  | .zero n => n
  | .denorm n _ => n
  | .norm n _ _ => n

/-- A signaling NaN. -/
def FpClass.isSnan : FpClass → Bool
  | .snan _ => true
  | _ => false

/-- A quiet NaN. -/
def FpClass.isQnan : FpClass → Bool
  | .qnan _ => true
  | _ => false

/-- The class of a bit pattern; a NaN whose fraction has its highest bit set is signaling (rule R664). -/
def classify (f : FpFmt) (x : Dword) : FpClass :=
  let neg := x.getLsbD f.signPos
  let e := x.toNat / 2 ^ f.fracBits % 2 ^ f.expBits
  let m := x.toNat % 2 ^ f.fracBits
  if e = 2 ^ f.expBits - 1 then
    if m = 0 then .inf neg
    else if 2 ^ (f.fracBits - 1) ≤ m then .snan neg else .qnan neg
  else if e = 0 then
    if m = 0 then .zero neg else .denorm neg m
  else .norm neg (2 ^ f.fracBits + m) ((e : Int) - f.bias - f.fracBits)

/-- With `FS` = 1 a denormalized operand of an arithmetic operation reads as zero (rule R668 (a)). -/
def flushOperand (fs : Bool) : FpClass → FpClass
  | .denorm n m => if fs then .zero n else .denorm n m
  | c => c

/-- An arithmetic operand. -/
def operand (c : Fcr31) (f : FpFmt) (x : Dword) : FpClass := flushOperand c.fs (classify f x)

/-! ## Results -/

/-- What an operation produced (rule R670): the six `Cause` bits and the default result. -/
structure FpResult where
  unimpl : Bool
  flags : FpFlags
  value : Dword
deriving DecidableEq, Repr

/-- A result with no exception. -/
def FpResult.exact (v : Dword) : FpResult := { unimpl := false, flags := .none, value := v }

/-- Unimplemented Operation (rule R676). -/
def FpResult.unimplemented : FpResult := { unimpl := true, flags := .none, value := 0 }

/-- Invalid Operation (rule R672), with the quiet NaN or integer value it delivers. -/
def FpResult.invalid (v : Dword) : FpResult := { unimpl := false, flags := { FpFlags.none with v := true }, value := v }

/-- The generated quiet NaN of a format (rule R664). -/
def genQnan : FpFmt → Dword
  | .single => Config.qnanS.zeroExtend 64
  | .double => Config.qnanD

/-- Sign, exponent field and fraction as a pattern. -/
def fpBits (f : FpFmt) (neg : Bool) (e m : Nat) : Dword :=
  BitVec.ofNat 64 ((if neg then 2 ^ f.signPos else 0) + e * 2 ^ f.fracBits + m)

/-- Signed infinity. -/
def fpInf (f : FpFmt) (neg : Bool) : Dword := fpBits f neg (2 ^ f.expBits - 1) 0
/-- Signed zero. -/
def fpZero (f : FpFmt) (neg : Bool) : Dword := fpBits f neg 0 0
/-- The largest finite number. -/
def fpMax (f : FpFmt) (neg : Bool) : Dword := fpBits f neg (2 ^ f.expBits - 2) (2 ^ f.fracBits - 1)
/-- The smallest normal number (rule R675, D62). -/
def fpMinNormal (f : FpFmt) (neg : Bool) : Dword := fpBits f neg 1 0

/-! ## Rounding (rule R666) -/

/-- Whether the kept part `q` is rounded up in magnitude, when `rest` of a unit `unit` (and, if `sticky`, something
smaller still) is dropped. `rm`: 0 nearest even, 1 toward zero, 2 toward plus, 3 toward minus infinity. -/
def roundsUp (rm : BitVec 2) (neg : Bool) (q rest unit : Nat) (sticky : Bool) : Bool :=
  match rm.toNat with
  | 0 => decide (unit < 2 * rest) || (2 * rest == unit && (sticky || q % 2 == 1))
  | 1 => false
  | 2 => !neg && (rest != 0 || sticky)
  | _ => neg && (rest != 0 || sticky)

/-- A rounded magnitude `m * 2^e`. -/
structure Rounded where
  m : Nat
  e : Int
  inexact : Bool
deriving DecidableEq, Repr

/-- Round the magnitude `m * 2^e` (a little more, if `sticky`) to `p` bits, exponent unbounded. -/
def roundMag (p : Nat) (rm : BitVec 2) (neg : Bool) (m : Nat) (e : Int) (sticky : Bool) : Rounded :=
  let shift := m.log2 + 1 - p
  let q := m / 2 ^ shift
  let rest := m % 2 ^ shift
  { m := if roundsUp rm neg q rest (2 ^ shift) sticky then q + 1 else q
    e := e + shift
    inexact := rest != 0 || sticky }

/-- The exponent of the leading bit. -/
def Rounded.top (r : Rounded) : Int := (r.m.log2 : Int) + r.e

/-- The pattern of a normal value. -/
def packNormal (f : FpFmt) (neg : Bool) (r : Rounded) : Dword :=
  let l := r.m.log2
  let m := if l ≤ f.fracBits then r.m * 2 ^ (f.fracBits - l) else r.m / 2 ^ (l - f.fracBits)
  fpBits f neg (r.top + f.bias).toNat (m - 2 ^ f.fracBits)

/-- The default result on overflow, Table 15.1 (rule R674). -/
def overflowValue (f : FpFmt) (rm : BitVec 2) (neg : Bool) : Dword :=
  match rm.toNat with
  | 0 => fpInf f neg
  | 1 => fpMax f neg
  | 2 => if neg then fpMax f true else fpInf f false
  | _ => if neg then fpInf f true else fpMax f false

/-- The flushed result on underflow, Table 15.1 (rule R675). -/
def underflowValue (f : FpFmt) (rm : BitVec 2) (neg : Bool) : Dword :=
  match rm.toNat with
  | 2 => if neg then fpZero f true else fpMinNormal f false
  | 3 => if neg then fpMinNormal f true else fpZero f false
  | _ => fpZero f neg

/-- Whether a rounded magnitude exceeds the largest finite number. -/
def Rounded.overflows (r : Rounded) (f : FpFmt) : Bool := decide ((f.bias : Int) < r.top)

/-- Whether a rounded magnitude is tiny (rule R675). -/
def Rounded.tiny (r : Rounded) (f : FpFmt) : Bool := decide (r.top < f.emin)

/-- The inexact flag alone. -/
def inexactFlags (i : Bool) : FpFlags := { FpFlags.none with i := i }

/-- A rounded non-zero value becomes a result (rules R669 step 3, R671, R674, R675); `also` records an earlier
inexact step of the same operation. -/
def deliver (c : Fcr31) (f : FpFmt) (neg : Bool) (r : Rounded) (also : Bool) : FpResult :=
  if r.overflows f then
    { unimpl := false, flags := { FpFlags.none with o := true, i := true }, value := overflowValue f c.rm neg }
  else if r.tiny f then
    if c.enables.u || c.enables.i || !c.fs then .unimplemented
    else { unimpl := false, flags := { FpFlags.none with u := true, i := true }, value := underflowValue f c.rm neg }
  else { unimpl := false, flags := inexactFlags (r.inexact || also), value := packNormal f neg r }

/-- Round an exact magnitude to a format and deliver it. -/
def roundTo (c : Fcr31) (f : FpFmt) (neg : Bool) (m : Nat) (e : Int) (sticky also : Bool) : FpResult :=
  deliver c f neg (roundMag (f.fracBits + 1) c.rm neg m e sticky) also

/-! ## NaN operands (rules R664, R669 step 2) -/

/-- Invalid if an operand is signaling; else any of the quiet operands is passed; `none` if there is no NaN.
`w` is a free value. -/
def screenNan (f : FpFmt) (w : Dword) (xs : List (FpClass × Dword)) : Option FpResult :=
  if xs.any (fun x => x.1.isSnan) then some (.invalid (genQnan f))
  else match xs.filter (fun x => x.1.isQnan) with
    | [] => none
    | [q] => some (.exact q.2)
    | q :: qs => some (.exact (((q :: qs).map (·.2)).getD (w.toNat % (q :: qs).length) 0))

/-! ## Add, subtract (rules R700, R701) -/

/-- The sum of two zeros (rule R666). -/
def zeroSum (c : Fcr31) (f : FpFmt) (n1 n2 : Bool) : Dword := fpZero f (if n1 == n2 then n1 else c.rm == 3)

/-- A signed magnitude at a common exponent. -/
def signedAt (neg : Bool) (m : Nat) (e low : Int) : Int :=
  let v : Int := (m * 2 ^ (e - low).toNat : Nat)
  if neg then -v else v

/-- The sum of two finite non-zero values. -/
def sumFinite (c : Fcr31) (f : FpFmt) (n1 : Bool) (m1 : Nat) (e1 : Int) (n2 : Bool) (m2 : Nat) (e2 : Int)
    (also : Bool) : FpResult :=
  let low := min e1 e2
  let t := signedAt n1 m1 e1 low + signedAt n2 m2 e2 low
  if t = 0 then { unimpl := false, flags := inexactFlags also, value := fpZero f (c.rm == 3) }
  else roundTo c f (decide (t < 0)) t.natAbs low false also

/-- `a + b`, or `a - b`: the sign of `b` is inverted after the NaN operands are screened. -/
def fpAdd (c : Fcr31) (f : FpFmt) (sub : Bool) (w a b : Dword) : FpResult :=
  let x := operand c f a
  let y := operand c f b
  match screenNan f w [(x, a), (y, b)] with
  | some r => r
  | none =>
    match x, y with
    | .inf n1, .inf n2 => if n1 == (xor n2 sub) then .exact (fpInf f n1) else .invalid (genQnan f)
    | .inf n1, _ => .exact (fpInf f n1)
    | _, .inf n2 => .exact (fpInf f (xor n2 sub))
    | .zero n1, .zero n2 => .exact (zeroSum c f n1 (xor n2 sub))
    | .zero _, .norm n2 m2 e2 => roundTo c f (xor n2 sub) m2 e2 false false
    | .norm n1 m1 e1, .zero _ => roundTo c f n1 m1 e1 false false
    | .norm n1 m1 e1, .norm n2 m2 e2 => sumFinite c f n1 m1 e1 (xor n2 sub) m2 e2 false
    | _, _ => .unimplemented

/-! ## Multiply, divide (rules R702, R703, R708) -/

/-- `a * b`. -/
def fpMul (c : Fcr31) (f : FpFmt) (w a b : Dword) : FpResult :=
  let x := operand c f a
  let y := operand c f b
  let neg := xor x.neg y.neg
  match screenNan f w [(x, a), (y, b)] with
  | some r => r
  | none =>
    match x, y with
    | .inf _, .zero _ => .invalid (genQnan f)
    | .zero _, .inf _ => .invalid (genQnan f)
    | .inf _, _ => .exact (fpInf f neg)
    | _, .inf _ => .exact (fpInf f neg)
    | .zero _, _ => .exact (fpZero f neg)
    | _, .zero _ => .exact (fpZero f neg)
    | .norm _ m1 e1, .norm _ m2 e2 => roundTo c f neg (m1 * m2) (e1 + e2) false false
    | _, _ => .unimplemented

/-- The quotient of two normal magnitudes, with enough bits and a sticky remainder. -/
def quotient (c : Fcr31) (f : FpFmt) (neg : Bool) (m1 : Nat) (e1 : Int) (m2 : Nat) (e2 : Int) (also : Bool) : FpResult :=
  let k := f.fracBits + 5
  roundTo c f neg (m1 * 2 ^ k / m2) (e1 - e2 - k) (m1 * 2 ^ k % m2 != 0) also

/-- Division by zero: a signed infinity (rule R673). -/
def divByZero (f : FpFmt) (neg : Bool) : FpResult :=
  { unimpl := false, flags := { FpFlags.none with z := true }, value := fpInf f neg }

/-- `a / b`. -/
def fpDiv (c : Fcr31) (f : FpFmt) (w a b : Dword) : FpResult :=
  let x := operand c f a
  let y := operand c f b
  let neg := xor x.neg y.neg
  match screenNan f w [(x, a), (y, b)] with
  | some r => r
  | none =>
    match x, y with
    | .inf _, .inf _ => .invalid (genQnan f)
    | .inf _, _ => .exact (fpInf f neg)
    | _, .inf _ => .exact (fpZero f neg)
    | .zero _, .zero _ => .invalid (genQnan f)
    | .zero _, _ => .exact (fpZero f neg)
    | _, .zero _ => divByZero f neg
    | .norm _ m1 e1, .norm _ m2 e2 => quotient c f neg m1 e1 m2 e2 false
    | _, _ => .unimplemented

/-- The pattern of 1.0. -/
def fpOne (f : FpFmt) : Dword := fpBits f false f.bias 0

/-- `1 / a`: a division with dividend 1.0 (rule R708). -/
def fpRecip (c : Fcr31) (f : FpFmt) (w a : Dword) : FpResult := fpDiv c f w (fpOne f) a

/-! ## Square roots (rules R704, R709) -/

/-- The integer square root, one result bit at a time, highest first. -/
def isqrtBits : Nat → Nat → Nat → Nat
  | 0, _, r => r
  | n + 1, x, r => if (r + 2 ^ n) * (r + 2 ^ n) ≤ x then isqrtBits n x (r + 2 ^ n) else isqrtBits n x r

/-- The integer square root. -/
def isqrt (x : Nat) : Nat := isqrtBits (x.log2 / 2 + 1) x 0

/-- How far a normal magnitude is scaled so that its exponent is even and its root has enough bits. -/
def sqrtScale (f : FpFmt) (e : Int) : Nat := if (e - (f.fracBits + 6 : Nat)) % 2 = 0 then f.fracBits + 6 else f.fracBits + 7

/-- The square root of a positive normal value, rounded. -/
def sqrtRounded (f : FpFmt) (rm : BitVec 2) (m : Nat) (e : Int) : Rounded :=
  let k := sqrtScale f e
  let x := m * 2 ^ k
  let r := isqrt x
  roundMag (f.fracBits + 1) rm false r ((e - k) / 2) (r * r != x)

/-- `sqrt(a)`. -/
def fpSqrt (c : Fcr31) (f : FpFmt) (w a : Dword) : FpResult :=
  let x := operand c f a
  match screenNan f w [(x, a)] with
  | some r => r
  | none =>
    match x with
    | .zero n => .exact (fpZero f n)
    | .inf false => .exact (fpInf f false)
    | .inf true => .invalid (genQnan f)
    | .norm false m e => deliver c f false (sqrtRounded f c.rm m e) false
    | .norm true _ _ => .invalid (genQnan f)
    | _ => .unimplemented

/-- `1 / sqrt(a)`: the root is rounded toward zero, its reciprocal by `RM` (rule R709). -/
def fpRsqrt (c : Fcr31) (f : FpFmt) (w a : Dword) : FpResult :=
  let x := operand c f a
  match screenNan f w [(x, a)] with
  | some r => r
  | none =>
    match x with
    | .zero n => divByZero f n
    | .inf false => .exact (fpZero f false)
    | .inf true => .invalid (genQnan f)
    | .norm false m e =>
      let t := sqrtRounded f 1 m e
      quotient c f false (2 ^ f.fracBits) (-(f.fracBits : Int)) t.m t.e t.inexact
    | .norm true _ _ => .invalid (genQnan f)
    | _ => .unimplemented

/-! ## Absolute value, negate (rules R705, R707) -/

/-- The pattern with a given sign. -/
def withSign (f : FpFmt) (neg : Bool) (x : Dword) : Dword :=
  let s : Dword := 1 <<< f.signPos
  if neg then x ||| s else x &&& ~~~s

/-- `ABS` (`negate` = false) and `NEG`: a denormalized operand passes with `FS` = 0, becomes zero with `FS` = 1. -/
def fpSignOp (c : Fcr31) (f : FpFmt) (negate : Bool) (a : Dword) : FpResult :=
  let x := operand c f a
  let n := negate && !x.neg
  match x with
  | .snan _ => .invalid (genQnan f)
  | .qnan _ => .exact a
  | .zero _ => .exact (fpZero f n)
  | _ => .exact (withSign f n a)

/-! ## Multiply-add (rule R710) -/

/-- A finite non-zero product plus or minus `z`, an addend that is not a NaN and not denormalized. -/
def addProduct (c : Fcr31) (f : FpFmt) (sub neg : Bool) (p : Rounded) (z : FpClass) : FpResult :=
  match z with
  | .inf n => { unimpl := false, flags := inexactFlags p.inexact, value := fpInf f (xor n sub) }
  | .zero _ => deliver c f neg { p with inexact := false } p.inexact
  | .norm n m e => sumFinite c f neg p.m p.e (xor n sub) m e p.inexact
  | _ => .unimplemented

/-- Steps 1 to 7 of rule R710: `(a * b) + d`, or `(a * b) - d`, with intermediate rounding. -/
def fpMaddCore (c : Fcr31) (f : FpFmt) (sub : Bool) (w a b d : Dword) : FpResult :=
  let x := operand c f a
  let y := operand c f b
  let z := operand c f d
  let neg := xor x.neg y.neg
  if x.isSnan || y.isSnan then .invalid (genQnan f)
  else if x.isQnan || y.isQnan then
    (screenNan f w [(x, a), (y, b), (z, d)]).getD (.invalid (genQnan f))
  else
    match x, y with
    | .inf _, .zero _ => .invalid (genQnan f)
    | .zero _, .inf _ => .invalid (genQnan f)
    | .inf _, _ => infProduct f sub neg z d
    | _, .inf _ => infProduct f sub neg z d
    | .zero _, _ => zeroProduct c f sub neg z d
    | _, .zero _ => zeroProduct c f sub neg z d
    | .norm _ m1 e1, .norm _ m2 e2 =>
      let p := roundMag (f.fracBits + 1) c.rm neg (m1 * m2) (e1 + e2) false
      if p.overflows f || p.tiny f then .unimplemented else addProduct c f sub neg p z
    | _, _ => .unimplemented
where
  /-- Step 4: the product is an exact infinity. -/
  infProduct (f : FpFmt) (sub neg : Bool) (z : FpClass) (d : Dword) : FpResult :=
    match z with
    | .snan _ => .invalid (genQnan f)
    | .qnan _ => .exact d
    | .inf n => if (xor n sub) == neg then .exact (fpInf f neg) else .invalid (genQnan f)
    | _ => .exact (fpInf f neg)
  /-- Step 5: the product is an exact zero. -/
  zeroProduct (c : Fcr31) (f : FpFmt) (sub neg : Bool) (z : FpClass) (d : Dword) : FpResult :=
    match z with
    | .snan _ => .invalid (genQnan f)
    | .qnan _ => .exact d
    | .denorm _ _ => .unimplemented
    | .inf n => .exact (fpInf f (xor n sub))
    | .zero n => .exact (zeroSum c f neg (xor n sub))
    | .norm n m e => roundTo c f (xor n sub) m e false false

/-- Whether a pattern is a NaN. -/
def isNan (f : FpFmt) (x : Dword) : Bool := (classify f x).isSnan || (classify f x).isQnan

/-- The four multiply-adds: `negate` inverts the sign of a numeric result; of a NaN result the sign is free
(rule R710 step 8, D64). -/
def fpMadd (c : Fcr31) (f : FpFmt) (sub negate : Bool) (w a b d : Dword) : FpResult :=
  let r := fpMaddCore c f sub w a b d
  let s : Dword := 1 <<< f.signPos
  if negate && (!isNan f r.value || w.getLsbD 63) then { r with value := r.value ^^^ s } else r

/-! ## Conversions (rules R715 to R719) -/

/-- A normal value rounded to an integer: its magnitude, whether it was inexact, whether it was rounded up in
magnitude. -/
def roundInt (rm : BitVec 2) (neg : Bool) (m : Nat) (e : Int) : Nat × Bool × Bool :=
  if 0 ≤ e then (m * 2 ^ e.toNat, false, false)
  else
    let u := 2 ^ (-e).toNat
    let up := roundsUp rm neg (m / u) (m % u) u false
    ((if up then m / u + 1 else m / u), m % u != 0, up)

/-- The integer quiet NaN of a width (rule R665). -/
def intQnan (bits : Nat) : Dword := BitVec.ofNat 64 (2 ^ (bits - 1) - 1)

/-- An integer result with its inexact flag. -/
def intResult (neg : Bool) (n : Nat) (inexact : Bool) : FpResult :=
  { unimpl := false, flags := inexactFlags inexact, value := if neg then -(BitVec.ofNat 64 n) else BitVec.ofNat 64 n }

/-- To a 32-bit integer (rule R715). Where the input lies outside the range and the rounded value inside, it is free
which of the two readings holds (D65). -/
def fpToWord (c : Fcr31) (f : FpFmt) (rm : BitVec 2) (w a : Dword) : FpResult :=
  match operand c f a with
  | .zero _ => .exact 0
  | .denorm _ _ => .unimplemented
  | .norm neg m e =>
    let r := roundInt rm neg m e
    let top := if neg then 2 ^ 31 else 2 ^ 31 - 1
    if top < r.1 then .invalid (intQnan 32)
    else if r.1 == top && r.2.1 && !r.2.2 && w.getLsbD 0 then .invalid (intQnan 32)
    else intResult neg r.1 r.2.1
  | _ => .invalid (intQnan 32)

/-- To a 64-bit integer (rules R715, R719): Invalid above `2^63` in magnitude, Unimplemented outside
`-2^52 .. 2^52 - 1`; at `-2^52` either (D67). -/
def fpToLong (c : Fcr31) (f : FpFmt) (rm : BitVec 2) (w a : Dword) : FpResult :=
  match operand c f a with
  | .zero _ => .exact 0
  | .denorm _ _ => .unimplemented
  | .norm neg m e =>
    let r := roundInt rm neg m e
    let tooBig := if 0 ≤ e then decide (2 ^ 63 < m * 2 ^ e.toNat) else decide (2 ^ 63 * 2 ^ (-e).toNat < m)
    if tooBig then .invalid (intQnan 64)
    else if neg && r.1 == 2 ^ 52 then (if w.getLsbD 0 then .unimplemented else intResult neg r.1 r.2.1)
    else if 2 ^ 52 ≤ r.1 then .unimplemented
    else intResult neg r.1 r.2.1
  | _ => .invalid (intQnan 64)

/-- From a signed integer (rules R716, R717, D66). -/
def fpFromInt (c : Fcr31) (f : FpFmt) (n : Int) : FpResult :=
  if n = 0 then .exact (fpZero f false) else roundTo c f (decide (n < 0)) n.natAbs 0 false false

/-- Between the floating-point formats (rules R716, R717): a quiet NaN is Unimplemented. -/
def fpToFp (c : Fcr31) (src dst : FpFmt) (a : Dword) : FpResult :=
  match operand c src a with
  | .snan _ => .invalid (genQnan dst)
  | .qnan _ => .unimplemented
  | .inf n => .exact (fpInf dst n)
  | .zero n => .exact (fpZero dst n)
  | .denorm _ _ => .unimplemented
  | .norm n m e => roundTo c dst n m e false false

/-! ## Compare (rule R730) -/

/-- The order of finite and infinite values is that of their signed magnitudes; both zeros are 0. -/
def orderKey (f : FpFmt) (x : Dword) : Int :=
  let m : Int := (x.toNat % 2 ^ f.signPos : Nat)
  if x.getLsbD f.signPos then -m else m

/-- The condition a compare writes, and whether it is Invalid. -/
def fpCompare (f : FpFmt) (cond : BitVec 4) (a b : Dword) : Bool × Bool :=
  let unordered := isNan f a || isNan f b
  let less := !unordered && decide (orderKey f a < orderKey f b)
  let equal := !unordered && decide (orderKey f a = orderKey f b)
  let signals := (classify f a).isSnan || (classify f b).isSnan || (cond.getLsbD 3 && unordered)
  ((cond.getLsbD 2 && less) || (cond.getLsbD 1 && equal) || (cond.getLsbD 0 && unordered), signals)

end Sys2Proof.Machine
end

