-- ==== Sys2Proof/Machine/FpOps.lean ====
section
/-! DEFINITION. The floating-point unit's register views, the enabling tests of its instructions in their order,
and how an operation's `Cause`, `Flags` and result reach the state (48_fpu.md rules R661, R662, R670). -/

namespace Sys2Proof.Machine

/-! ## Register views (rule R662) -/

/-- `FGR[f]`. -/
def readFgr (s : State) (f : RegNum) : Dword := s.fpu.fgr[f.toNat]'f.isLt

/-- `FGR[f] <- v`. -/
def writeFgr (f : RegNum) (v : Dword) (s : State) : State :=
  { s with fpu := { s.fpu with fgr := s.fpu.fgr.set f.toNat v f.isLt } }

/-- `FGR[f][31:0]`. -/
def readFprWord (s : State) (f : RegNum) : Word := low32 (readFgr s f)

/-- `ValueFPR(f, D)` and `ValueFPR(f, L)`; an odd `f` with `FR` = 0 is screened before. -/
def readFprDword (s : State) (f : RegNum) : Dword :=
  if s.status.fr then readFgr s f else low32 (readFgr s (f + 1)) ++ low32 (readFgr s f)

/-- `StoreFPR(f, S or W, v)`: with `FR` = 1 the upper half is free, with `FR` = 0 it is not touched (D42). -/
def writeFprWord (f : RegNum) (v : Word) (s : State) : State :=
  if s.status.fr then writeFgr f (high32 (s.free 0) ++ v) (s.drew 1)
  else writeFgr f (high32 (readFgr s f) ++ v) s

/-- `StoreFPR(f, D or L, v)`. -/
def writeFprDword (f : RegNum) (v : Dword) (s : State) : State :=
  if s.status.fr then writeFgr f v s
  else
    let s1 := writeFgr (f + 1) (high32 (readFgr s (f + 1)) ++ high32 v) s
    writeFgr f (high32 (readFgr s f) ++ low32 v) s1

/-- An operand in a floating-point format, a single pattern in the low half. -/
def readFpr (s : State) (fmt : FpFmt) (f : RegNum) : Dword :=
  match fmt with
  | .single => (readFprWord s f).zeroExtend 64
  | .double => readFprDword s f

/-- A result of 32 bits (`wide` = false) or 64. -/
def writeFpr (isWide : Bool) (f : RegNum) (v : Dword) (s : State) : State :=
  if isWide then writeFprDword f v s else writeFprWord f (low32 v) s

/-- The width of a format. -/
def FpFmt.isWide : FpFmt → Bool
  | .single => false
  | .double => true

/-! ## Enabling tests (rule R661) -/

/-- An odd register number with `FR` = 0 (rule R662, D59). -/
def oddForbidden (s : State) (regs : List RegNum) : Bool := !s.status.fr && regs.any (fun r => r.getLsbD 0)

/-- Step 6: registers that must be even with `FR` = 0. -/
def requireEven (regs : List RegNum) (s : State) (k : Out) : Out :=
  if oddForbidden s regs then .fault .oddFpr else k

/-- `FCR31.Cause <-` the six bits. -/
def setFpCause (unimpl : Bool) (flags : FpFlags) (s : State) : State :=
  { s with fpu := { s.fpu with fcr31 := { s.fpu.fcr31 with causeE := unimpl, cause := flags } } }

/-- Unimplemented Operation (rule R676). -/
def raiseUnimplemented (s : State) : Out := raise .fpe (setFpCause true .none s)

/-- Step 4: a MIPS IV encoding inside opcode 17 while MIPS IV is disabled. -/
def requireFpMips4 (needed : Bool) (s : State) (k : Out) : Out :=
  if needed && !isMips4 s then raiseUnimplemented s else k

/-- The tests of an operation of opcode 17: `CU1`, MIPS IV, the registers. -/
def fpGuard (mips4 : Bool) (regs : List RegNum) (s : State) (k : Out) : Out :=
  requireCu1 s (requireFpMips4 mips4 s (requireEven regs s k))

/-- The tests of an operation with an `L` operand or result, which come after the mode test. -/
def fpGuardLong (regs : List RegNum) (s : State) (k : Out) : Out := requireIs64 s (fpGuard false regs s k)

/-- The tests of an operation of opcode 19. -/
def fpGuardCop1x (regs : List RegNum) (s : State) (k : Out) : Out :=
  requireMips4 s (requireCu1 s (requireEven regs s k))

/-! ## Exception processing (rule R670) -/

/-- The union of two sets of exception bits. -/
def FpFlags.or (a b : FpFlags) : FpFlags :=
  { v := a.v || b.v, z := a.z || b.z, o := a.o || b.o, u := a.u || b.u, i := a.i || b.i }

/-- The two sets share a bit. -/
def FpFlags.meets (a b : FpFlags) : Bool :=
  (a.v && b.v) || (a.z && b.z) || (a.o && b.o) || (a.u && b.u) || (a.i && b.i)

/-- Whether a `Cause` traps: `E`, or an enabled bit. -/
def fpTraps (unimpl : Bool) (flags enables : FpFlags) : Bool := unimpl || flags.meets enables

/-- `FCR31.Flags <- FCR31.Flags or flags`. -/
def addFpFlags (flags : FpFlags) (s : State) : State :=
  { s with fpu := { s.fpu with fcr31 := { s.fpu.fcr31 with flags := s.fpu.fcr31.flags.or flags } } }

/-- A floating-point operation ends: `Cause` is written; then either the exception, with nothing else changed, or the
flags and the result. -/
def fpFinish (unimpl : Bool) (flags : FpFlags) (store : State → State) (s : State) : Out :=
  let s1 := setFpCause unimpl flags s
  .next (if fpTraps unimpl flags s.fpu.fcr31.enables then takeException .fpe s1
         else advance (store (addFpFlags flags s1)))

/-- An arithmetic operation or conversion ends with a result; one free value has been drawn for its choices. -/
def fpResult (isWide : Bool) (fd : RegNum) (r : FpResult) (s : State) : Out :=
  fpFinish r.unimpl r.flags (writeFpr isWide fd r.value) (s.drew 1)

end Sys2Proof.Machine
end

