-- ==== Sys2Proof/Machine/FpArith.lean ====
section
/-! DEFINITION. The computational instructions of the floating-point unit (48_fpu.md section 5). -/

namespace Sys2Proof.Machine

/-- A two-operand operation: the tests, the operands, the result. -/
def fpBinary (fmt : FpFmt) (op : Fcr31 → FpFmt → Dword → Dword → Dword → FpResult) (ft fs fd : RegNum) (s : State) : Out :=
  fpGuard false [ft, fs, fd] s
    (fpResult fmt.isWide fd (op s.fpu.fcr31 fmt (s.free 0) (readFpr s fmt fs) (readFpr s fmt ft)) s)

/-- A one-operand operation. -/
def fpUnary (mips4 : Bool) (fmt : FpFmt) (op : Fcr31 → FpFmt → Dword → Dword → FpResult) (fs fd : RegNum) (s : State) : Out :=
  fpGuard mips4 [fs, fd] s
    (fpResult fmt.isWide fd (op s.fpu.fcr31 fmt (s.free 0) (readFpr s fmt fs)) s)

/-- A multiply-add (rule R710). -/
def fpMultiplyAdd (fmt : FpFmt) (sub negate : Bool) (fr ft fs fd : RegNum) (s : State) : Out :=
  fpGuardCop1x [fr, ft, fs, fd] s
    (fpResult fmt.isWide fd
      (fpMadd s.fpu.fcr31 fmt sub negate (s.free 0) (readFpr s fmt fs) (readFpr s fmt ft) (readFpr s fmt fr)) s)

/-- `ADD.S` (rule R700). -/
def execAddS (ft fs fd : BitVec 5) (s : State) : Out := fpBinary .single (fun c f => fpAdd c f false) ft fs fd s

/-- `ADD.D` (rule R700). -/
def execAddD (ft fs fd : BitVec 5) (s : State) : Out := fpBinary .double (fun c f => fpAdd c f false) ft fs fd s

/-- `SUB.S` (rule R701). -/
def execSubS (ft fs fd : BitVec 5) (s : State) : Out := fpBinary .single (fun c f => fpAdd c f true) ft fs fd s

/-- `SUB.D` (rule R701). -/
def execSubD (ft fs fd : BitVec 5) (s : State) : Out := fpBinary .double (fun c f => fpAdd c f true) ft fs fd s

/-- `MUL.S` (rule R702). -/
def execMulS (ft fs fd : BitVec 5) (s : State) : Out := fpBinary .single fpMul ft fs fd s

/-- `MUL.D` (rule R702). -/
def execMulD (ft fs fd : BitVec 5) (s : State) : Out := fpBinary .double fpMul ft fs fd s

/-- `DIV.S` (rule R703). -/
def execDivS (ft fs fd : BitVec 5) (s : State) : Out := fpBinary .single fpDiv ft fs fd s

/-- `DIV.D` (rule R703). -/
def execDivD (ft fs fd : BitVec 5) (s : State) : Out := fpBinary .double fpDiv ft fs fd s

/-- `SQRT.S` (rule R704). -/
def execSqrtS (fs fd : BitVec 5) (s : State) : Out := fpUnary false .single fpSqrt fs fd s

/-- `SQRT.D` (rule R704). -/
def execSqrtD (fs fd : BitVec 5) (s : State) : Out := fpUnary false .double fpSqrt fs fd s

/-- `ABS.S` (rule R705). -/
def execAbsS (fs fd : BitVec 5) (s : State) : Out := fpUnary false .single (fun c f _ => fpSignOp c f false) fs fd s

/-- `ABS.D` (rule R705). -/
def execAbsD (fs fd : BitVec 5) (s : State) : Out := fpUnary false .double (fun c f _ => fpSignOp c f false) fs fd s

/-- `NEG.S` (rule R707). -/
def execNegS (fs fd : BitVec 5) (s : State) : Out := fpUnary false .single (fun c f _ => fpSignOp c f true) fs fd s

/-- `NEG.D` (rule R707). -/
def execNegD (fs fd : BitVec 5) (s : State) : Out := fpUnary false .double (fun c f _ => fpSignOp c f true) fs fd s

/-- `RECIP.S` (rule R708). -/
def execRecipS (fs fd : BitVec 5) (s : State) : Out := fpUnary true .single fpRecip fs fd s

/-- `RECIP.D` (rule R708). -/
def execRecipD (fs fd : BitVec 5) (s : State) : Out := fpUnary true .double fpRecip fs fd s

/-- `RSQRT.S` (rule R709). -/
def execRsqrtS (fs fd : BitVec 5) (s : State) : Out := fpUnary true .single fpRsqrt fs fd s

/-- `RSQRT.D` (rule R709). -/
def execRsqrtD (fs fd : BitVec 5) (s : State) : Out := fpUnary true .double fpRsqrt fs fd s

/-- `MADD.S` (rule R711). -/
def execMaddS (fr ft fs fd : BitVec 5) (s : State) : Out := fpMultiplyAdd .single false false fr ft fs fd s

/-- `MADD.D` (rule R711). -/
def execMaddD (fr ft fs fd : BitVec 5) (s : State) : Out := fpMultiplyAdd .double false false fr ft fs fd s

/-- `MSUB.S` (rule R712). -/
def execMsubS (fr ft fs fd : BitVec 5) (s : State) : Out := fpMultiplyAdd .single true false fr ft fs fd s

/-- `MSUB.D` (rule R712). -/
def execMsubD (fr ft fs fd : BitVec 5) (s : State) : Out := fpMultiplyAdd .double true false fr ft fs fd s

/-- `NMADD.S` (rule R713). -/
def execNmaddS (fr ft fs fd : BitVec 5) (s : State) : Out := fpMultiplyAdd .single false true fr ft fs fd s

/-- `NMADD.D` (rule R713). -/
def execNmaddD (fr ft fs fd : BitVec 5) (s : State) : Out := fpMultiplyAdd .double false true fr ft fs fd s

/-- `NMSUB.S` (rule R714). -/
def execNmsubS (fr ft fs fd : BitVec 5) (s : State) : Out := fpMultiplyAdd .single true true fr ft fs fd s

/-- `NMSUB.D` (rule R714). -/
def execNmsubD (fr ft fs fd : BitVec 5) (s : State) : Out := fpMultiplyAdd .double true true fr ft fs fd s

end Sys2Proof.Machine
end

