-- ==== Sys2Proof/Machine/FpCompare.lean ====
section
/-! DEFINITION. Floating-point compares, branches and conditional moves (48_fpu.md section 7). -/

namespace Sys2Proof.Machine

/-- A compare: `Cause` and `Flags` take Invalid, the condition code takes the result (rule R730); a condition code
other than 0 is MIPS IV (rule R676 (f)). -/
def fpCompareInto (fmt : FpFmt) (cond : BitVec 4) (ft fs : RegNum) (cc : BitVec 3) (s : State) : Out :=
  fpGuard (cc != 0) [ft, fs] s
    (let r := fpCompare fmt cond (readFpr s fmt fs) (readFpr s fmt ft)
     fpFinish false { FpFlags.none with v := r.2 } (writeFcc cc r.1) s)

/-- A branch on a condition code (rule R735). -/
def fpBranch (likely tf : Bool) (cc : BitVec 3) (offset : BitVec 16) (s : State) : Out :=
  requireCu1 s (requireFpMips4 (cc != 0) s
    (if likely then branchLikely (readFcc s cc == tf) (branchDest s offset) s
     else branch (readFcc s cc == tf) (branchDest s offset) s))

/-- A copy in a format (rules R706, R740): the bits, nothing of `FCR31`. -/
def fpCopy (fmt : FpFmt) (fs fd : RegNum) (s : State) : State := writeFpr fmt.isWide fd (readFpr s fmt fs) s

/-- A conditional move (rule R740). -/
def fpMoveIf (fmt : FpFmt) (c : Bool) (fs fd : RegNum) (s : State) : Out :=
  fpGuard true [fs, fd] s (complete (if c then fpCopy fmt fs fd s else s))

/-- `MOV.S` (rule R706). -/
def execMovS (fs fd : BitVec 5) (s : State) : Out := fpGuard false [fs, fd] s (complete (fpCopy .single fs fd s))

/-- `MOV.D` (rule R706). -/
def execMovD (fs fd : BitVec 5) (s : State) : Out := fpGuard false [fs, fd] s (complete (fpCopy .double fs fd s))

/-- `C.F.S` (rule R730). -/
def execCFS (ft fs : BitVec 5) (cc : BitVec 3) (s : State) : Out := fpCompareInto .single 0 ft fs cc s

/-- `C.UN.S` (rule R730). -/
def execCUnS (ft fs : BitVec 5) (cc : BitVec 3) (s : State) : Out := fpCompareInto .single 1 ft fs cc s

/-- `C.EQ.S` (rule R730). -/
def execCEqS (ft fs : BitVec 5) (cc : BitVec 3) (s : State) : Out := fpCompareInto .single 2 ft fs cc s

/-- `C.UEQ.S` (rule R730). -/
def execCUeqS (ft fs : BitVec 5) (cc : BitVec 3) (s : State) : Out := fpCompareInto .single 3 ft fs cc s

/-- `C.OLT.S` (rule R730). -/
def execCOltS (ft fs : BitVec 5) (cc : BitVec 3) (s : State) : Out := fpCompareInto .single 4 ft fs cc s

/-- `C.ULT.S` (rule R730). -/
def execCUltS (ft fs : BitVec 5) (cc : BitVec 3) (s : State) : Out := fpCompareInto .single 5 ft fs cc s

/-- `C.OLE.S` (rule R730). -/
def execCOleS (ft fs : BitVec 5) (cc : BitVec 3) (s : State) : Out := fpCompareInto .single 6 ft fs cc s

/-- `C.ULE.S` (rule R730). -/
def execCUleS (ft fs : BitVec 5) (cc : BitVec 3) (s : State) : Out := fpCompareInto .single 7 ft fs cc s

/-- `C.SF.S` (rule R730). -/
def execCSfS (ft fs : BitVec 5) (cc : BitVec 3) (s : State) : Out := fpCompareInto .single 8 ft fs cc s

/-- `C.NGLE.S` (rule R730). -/
def execCNgleS (ft fs : BitVec 5) (cc : BitVec 3) (s : State) : Out := fpCompareInto .single 9 ft fs cc s

/-- `C.SEQ.S` (rule R730). -/
def execCSeqS (ft fs : BitVec 5) (cc : BitVec 3) (s : State) : Out := fpCompareInto .single 10 ft fs cc s

/-- `C.NGL.S` (rule R730). -/
def execCNglS (ft fs : BitVec 5) (cc : BitVec 3) (s : State) : Out := fpCompareInto .single 11 ft fs cc s

/-- `C.LT.S` (rule R730). -/
def execCLtS (ft fs : BitVec 5) (cc : BitVec 3) (s : State) : Out := fpCompareInto .single 12 ft fs cc s

/-- `C.NGE.S` (rule R730). -/
def execCNgeS (ft fs : BitVec 5) (cc : BitVec 3) (s : State) : Out := fpCompareInto .single 13 ft fs cc s

/-- `C.LE.S` (rule R730). -/
def execCLeS (ft fs : BitVec 5) (cc : BitVec 3) (s : State) : Out := fpCompareInto .single 14 ft fs cc s

/-- `C.NGT.S` (rule R730). -/
def execCNgtS (ft fs : BitVec 5) (cc : BitVec 3) (s : State) : Out := fpCompareInto .single 15 ft fs cc s

/-- `C.F.D` (rule R730). -/
def execCFD (ft fs : BitVec 5) (cc : BitVec 3) (s : State) : Out := fpCompareInto .double 0 ft fs cc s

/-- `C.UN.D` (rule R730). -/
def execCUnD (ft fs : BitVec 5) (cc : BitVec 3) (s : State) : Out := fpCompareInto .double 1 ft fs cc s

/-- `C.EQ.D` (rule R730). -/
def execCEqD (ft fs : BitVec 5) (cc : BitVec 3) (s : State) : Out := fpCompareInto .double 2 ft fs cc s

/-- `C.UEQ.D` (rule R730). -/
def execCUeqD (ft fs : BitVec 5) (cc : BitVec 3) (s : State) : Out := fpCompareInto .double 3 ft fs cc s

/-- `C.OLT.D` (rule R730). -/
def execCOltD (ft fs : BitVec 5) (cc : BitVec 3) (s : State) : Out := fpCompareInto .double 4 ft fs cc s

/-- `C.ULT.D` (rule R730). -/
def execCUltD (ft fs : BitVec 5) (cc : BitVec 3) (s : State) : Out := fpCompareInto .double 5 ft fs cc s

/-- `C.OLE.D` (rule R730). -/
def execCOleD (ft fs : BitVec 5) (cc : BitVec 3) (s : State) : Out := fpCompareInto .double 6 ft fs cc s

/-- `C.ULE.D` (rule R730). -/
def execCUleD (ft fs : BitVec 5) (cc : BitVec 3) (s : State) : Out := fpCompareInto .double 7 ft fs cc s

/-- `C.SF.D` (rule R730). -/
def execCSfD (ft fs : BitVec 5) (cc : BitVec 3) (s : State) : Out := fpCompareInto .double 8 ft fs cc s

/-- `C.NGLE.D` (rule R730). -/
def execCNgleD (ft fs : BitVec 5) (cc : BitVec 3) (s : State) : Out := fpCompareInto .double 9 ft fs cc s

/-- `C.SEQ.D` (rule R730). -/
def execCSeqD (ft fs : BitVec 5) (cc : BitVec 3) (s : State) : Out := fpCompareInto .double 10 ft fs cc s

/-- `C.NGL.D` (rule R730). -/
def execCNglD (ft fs : BitVec 5) (cc : BitVec 3) (s : State) : Out := fpCompareInto .double 11 ft fs cc s

/-- `C.LT.D` (rule R730). -/
def execCLtD (ft fs : BitVec 5) (cc : BitVec 3) (s : State) : Out := fpCompareInto .double 12 ft fs cc s

/-- `C.NGE.D` (rule R730). -/
def execCNgeD (ft fs : BitVec 5) (cc : BitVec 3) (s : State) : Out := fpCompareInto .double 13 ft fs cc s

/-- `C.LE.D` (rule R730). -/
def execCLeD (ft fs : BitVec 5) (cc : BitVec 3) (s : State) : Out := fpCompareInto .double 14 ft fs cc s

/-- `C.NGT.D` (rule R730). -/
def execCNgtD (ft fs : BitVec 5) (cc : BitVec 3) (s : State) : Out := fpCompareInto .double 15 ft fs cc s

/-- `BC1F` (rule R736). -/
def execBc1f (cc : BitVec 3) (offset : BitVec 16) (s : State) : Out := fpBranch false false cc offset s

/-- `BC1T` (rule R737). -/
def execBc1t (cc : BitVec 3) (offset : BitVec 16) (s : State) : Out := fpBranch false true cc offset s

/-- `BC1FL` (rule R738). -/
def execBc1fl (cc : BitVec 3) (offset : BitVec 16) (s : State) : Out := fpBranch true false cc offset s

/-- `BC1TL` (rule R739). -/
def execBc1tl (cc : BitVec 3) (offset : BitVec 16) (s : State) : Out := fpBranch true true cc offset s

/-- `MOVF.S` (rule R741). -/
def execMovfS (cc : BitVec 3) (fs fd : BitVec 5) (s : State) : Out := fpMoveIf .single (!readFcc s cc) fs fd s

/-- `MOVT.S` (rule R742). -/
def execMovtS (cc : BitVec 3) (fs fd : BitVec 5) (s : State) : Out := fpMoveIf .single (readFcc s cc) fs fd s

/-- `MOVN.S` (rule R743). -/
def execMovnS (rt fs fd : BitVec 5) (s : State) : Out := fpMoveIf .single (readGpr s rt != 0) fs fd s

/-- `MOVZ.S` (rule R744). -/
def execMovzS (rt fs fd : BitVec 5) (s : State) : Out := fpMoveIf .single (readGpr s rt == 0) fs fd s

/-- `MOVF.D` (rule R741). -/
def execMovfD (cc : BitVec 3) (fs fd : BitVec 5) (s : State) : Out := fpMoveIf .double (!readFcc s cc) fs fd s

/-- `MOVT.D` (rule R742). -/
def execMovtD (cc : BitVec 3) (fs fd : BitVec 5) (s : State) : Out := fpMoveIf .double (readFcc s cc) fs fd s

/-- `MOVN.D` (rule R743). -/
def execMovnD (rt fs fd : BitVec 5) (s : State) : Out := fpMoveIf .double (readGpr s rt != 0) fs fd s

/-- `MOVZ.D` (rule R744). -/
def execMovzD (rt fs fd : BitVec 5) (s : State) : Out := fpMoveIf .double (readGpr s rt == 0) fs fd s

end Sys2Proof.Machine
end

