-- ==== Sys2Proof/Machine/FpConvert.lean ====
section
/-! DEFINITION. The conversions of the floating-point unit (48_fpu.md section 6). -/

namespace Sys2Proof.Machine

/-- To a 32-bit integer; `mode` is the instruction's own rounding mode, or `FCR31.RM`. -/
def fpConvertWord (src : FpFmt) (mode : Option (BitVec 2)) (fs fd : RegNum) (s : State) : Out :=
  fpGuard false [fs, fd] s
    (fpResult false fd
      (fpToWord s.fpu.fcr31 src (mode.getD s.fpu.fcr31.rm) (s.free 0) (readFpr s src fs)) s)

/-- To a 64-bit integer. -/
def fpConvertLong (src : FpFmt) (mode : Option (BitVec 2)) (fs fd : RegNum) (s : State) : Out :=
  fpGuardLong [fs, fd] s
    (fpResult true fd
      (fpToLong s.fpu.fcr31 src (mode.getD s.fpu.fcr31.rm) (s.free 0) (readFpr s src fs)) s)

/-- From a 32-bit integer. -/
def fpConvertFromWord (dst : FpFmt) (fs fd : RegNum) (s : State) : Out :=
  fpGuard false [fs, fd] s (fpResult dst.isWide fd (fpFromInt s.fpu.fcr31 dst (readFprWord s fs).toInt) s)

/-- From a 64-bit integer. -/
def fpConvertFromLong (dst : FpFmt) (fs fd : RegNum) (s : State) : Out :=
  fpGuardLong [fs, fd] s (fpResult dst.isWide fd (fpFromInt s.fpu.fcr31 dst (readFprDword s fs).toInt) s)

/-- Between the floating-point formats. -/
def fpConvertFmt (src dst : FpFmt) (fs fd : RegNum) (s : State) : Out :=
  fpGuard false [fs, fd] s (fpResult dst.isWide fd (fpToFp s.fpu.fcr31 src dst (readFpr s src fs)) s)

/-- `ROUND.L.S` (rule R724). -/
def execRoundLS (fs fd : BitVec 5) (s : State) : Out := fpConvertLong .single (some 0) fs fd s

/-- `ROUND.L.D` (rule R724). -/
def execRoundLD (fs fd : BitVec 5) (s : State) : Out := fpConvertLong .double (some 0) fs fd s

/-- `TRUNC.L.S` (rule R725). -/
def execTruncLS (fs fd : BitVec 5) (s : State) : Out := fpConvertLong .single (some 1) fs fd s

/-- `TRUNC.L.D` (rule R725). -/
def execTruncLD (fs fd : BitVec 5) (s : State) : Out := fpConvertLong .double (some 1) fs fd s

/-- `CEIL.L.S` (rule R726). -/
def execCeilLS (fs fd : BitVec 5) (s : State) : Out := fpConvertLong .single (some 2) fs fd s

/-- `CEIL.L.D` (rule R726). -/
def execCeilLD (fs fd : BitVec 5) (s : State) : Out := fpConvertLong .double (some 2) fs fd s

/-- `FLOOR.L.S` (rule R727). -/
def execFloorLS (fs fd : BitVec 5) (s : State) : Out := fpConvertLong .single (some 3) fs fd s

/-- `FLOOR.L.D` (rule R727). -/
def execFloorLD (fs fd : BitVec 5) (s : State) : Out := fpConvertLong .double (some 3) fs fd s

/-- `CVT.L.S` (rule R719). -/
def execCvtLS (fs fd : BitVec 5) (s : State) : Out := fpConvertLong .single none fs fd s

/-- `CVT.L.D` (rule R719). -/
def execCvtLD (fs fd : BitVec 5) (s : State) : Out := fpConvertLong .double none fs fd s

/-- `ROUND.W.S` (rule R720). -/
def execRoundWS (fs fd : BitVec 5) (s : State) : Out := fpConvertWord .single (some 0) fs fd s

/-- `ROUND.W.D` (rule R720). -/
def execRoundWD (fs fd : BitVec 5) (s : State) : Out := fpConvertWord .double (some 0) fs fd s

/-- `TRUNC.W.S` (rule R721). -/
def execTruncWS (fs fd : BitVec 5) (s : State) : Out := fpConvertWord .single (some 1) fs fd s

/-- `TRUNC.W.D` (rule R721). -/
def execTruncWD (fs fd : BitVec 5) (s : State) : Out := fpConvertWord .double (some 1) fs fd s

/-- `CEIL.W.S` (rule R722). -/
def execCeilWS (fs fd : BitVec 5) (s : State) : Out := fpConvertWord .single (some 2) fs fd s

/-- `CEIL.W.D` (rule R722). -/
def execCeilWD (fs fd : BitVec 5) (s : State) : Out := fpConvertWord .double (some 2) fs fd s

/-- `FLOOR.W.S` (rule R723). -/
def execFloorWS (fs fd : BitVec 5) (s : State) : Out := fpConvertWord .single (some 3) fs fd s

/-- `FLOOR.W.D` (rule R723). -/
def execFloorWD (fs fd : BitVec 5) (s : State) : Out := fpConvertWord .double (some 3) fs fd s

/-- `CVT.W.S` (rule R718). -/
def execCvtWS (fs fd : BitVec 5) (s : State) : Out := fpConvertWord .single none fs fd s

/-- `CVT.W.D` (rule R718). -/
def execCvtWD (fs fd : BitVec 5) (s : State) : Out := fpConvertWord .double none fs fd s

/-- `CVT.S.D` (rule R716). -/
def execCvtSD (fs fd : BitVec 5) (s : State) : Out := fpConvertFmt .double .single fs fd s

/-- `CVT.S.W` (rule R716). -/
def execCvtSW (fs fd : BitVec 5) (s : State) : Out := fpConvertFromWord .single fs fd s

/-- `CVT.S.L` (rule R716). -/
def execCvtSL (fs fd : BitVec 5) (s : State) : Out := fpConvertFromLong .single fs fd s

/-- `CVT.D.S` (rule R717). -/
def execCvtDS (fs fd : BitVec 5) (s : State) : Out := fpConvertFmt .single .double fs fd s

/-- `CVT.D.W` (rule R717). -/
def execCvtDW (fs fd : BitVec 5) (s : State) : Out := fpConvertFromWord .double fs fd s

/-- `CVT.D.L` (rule R717). -/
def execCvtDL (fs fd : BitVec 5) (s : State) : Out := fpConvertFromLong .double fs fd s

end Sys2Proof.Machine
end

