-- ==== Sys2Proof/Machine/FpMove.lean ====
section
/-! DEFINITION. Floating-point loads and stores, and the moves between the units (48_fpu.md section 4). -/

namespace Sys2Proof.Machine

/-- A load into a floating-point register. -/
def fpLoad (isWide : Bool) (f : RegNum) (x : Except Stop (Dword × State)) : Out :=
  onOk x (fun vs => complete (writeFpr isWide f vs.1 vs.2))

/-- A store completes. -/
def fpStore (x : Except Stop State) : Out := onOk x complete

/-- The region bits of an indexed address come from its base, else Address Error (rule R679). -/
def sameRegion (kind : AccessKind) (baseValue va : Dword) (s : State) (k : Out) : Out :=
  if baseValue.extractLsb' 62 2 != va.extractLsb' 62 2 then raise (.adE kind.isStore va) s else k

/-- `LWC1` (rule R680). -/
def execLwc1 (base ft : BitVec 5) (offset : BitVec 16) (s : State) : Out :=
  fpGuard false [] s (fpLoad false ft (loadData 4 (effAddr s base offset) s))

/-- `LDC1` (rule R681). -/
def execLdc1 (base ft : BitVec 5) (offset : BitVec 16) (s : State) : Out :=
  fpGuard false [ft] s (fpLoad true ft (loadData 8 (effAddr s base offset) s))

/-- `SWC1` (rule R682). -/
def execSwc1 (base ft : BitVec 5) (offset : BitVec 16) (s : State) : Out :=
  fpGuard false [] s (fpStore (storeData 4 (effAddr s base offset) ((readFprWord s ft).zeroExtend 64) s))

/-- `SDC1` (rule R683). -/
def execSdc1 (base ft : BitVec 5) (offset : BitVec 16) (s : State) : Out :=
  fpGuard false [ft] s (fpStore (storeData 8 (effAddr s base offset) (readFprDword s ft) s))

/-- `LWXC1` (rule R684). -/
def execLwxc1 (base index fd : BitVec 5) (s : State) : Out :=
  fpGuardCop1x [] s (sameRegion .load (readGpr s base) (indexAddr s base index) s
    (fpLoad false fd (loadData 4 (indexAddr s base index) s)))

/-- `LDXC1` (rule R685). -/
def execLdxc1 (base index fd : BitVec 5) (s : State) : Out :=
  fpGuardCop1x [fd] s (sameRegion .load (readGpr s base) (indexAddr s base index) s
    (fpLoad true fd (loadData 8 (indexAddr s base index) s)))

/-- `SWXC1` (rule R686). -/
def execSwxc1 (base index fs : BitVec 5) (s : State) : Out :=
  fpGuardCop1x [] s (sameRegion .store (readGpr s base) (indexAddr s base index) s
    (fpStore (storeData 4 (indexAddr s base index) ((readFprWord s fs).zeroExtend 64) s)))

/-- `SDXC1` (rule R687). -/
def execSdxc1 (base index fs : BitVec 5) (s : State) : Out :=
  fpGuardCop1x [fs] s (sameRegion .store (readGpr s base) (indexAddr s base index) s
    (fpStore (storeData 8 (indexAddr s base index) (readFprDword s fs) s)))

/-- `MFC1` (rule R690). -/
def execMfc1 (rt fs : BitVec 5) (s : State) : Out :=
  fpGuard false [] s (writeResult rt (sext32 (readFprWord s fs)) s)

/-- `MTC1` (rule R691). -/
def execMtc1 (rt fs : BitVec 5) (s : State) : Out :=
  fpGuard false [] s (complete (writeFprWord fs (low32 (readGpr s rt)) s))

/-- `DMFC1` (rule R692). -/
def execDmfc1 (rt fs : BitVec 5) (s : State) : Out :=
  fpGuardLong [fs] s (writeResult rt (readFprDword s fs) s)

/-- `DMTC1` (rule R693). -/
def execDmtc1 (rt fs : BitVec 5) (s : State) : Out :=
  fpGuardLong [fs] s (complete (writeFprDword fs (readGpr s rt) s))

/-- `CFC1`: the reserved control registers read free values (rule R694, D43). -/
def execCfc1 (rt fs : BitVec 5) (s : State) : Out :=
  fpGuard false [] s
    (if fs = 0 then writeResult rt (sext32 (pridWord s.params)) s
     else if fs = 31 then writeResult rt (sext32 s.fpu.fcr31.toWord) s
     else writeResult rt (sext32 (low32 (s.free 0))) (s.drew 1))

/-- `FCR31 <- w`. -/
def writeFcr31 (w : Word) (s : State) : State := { s with fpu := { s.fpu with fcr31 := .ofWord w } }

/-- `CTC1`: a `Cause` bit set together with its enable, or `E`, raises the exception with the new value in place
(rule R695, D63). -/
def execCtc1 (rt fs : BitVec 5) (s : State) : Out :=
  fpGuard false [] s
    (if fs = 31 then
       let s1 := writeFcr31 (low32 (readGpr s rt)) s
       if fpTraps s1.fpu.fcr31.causeE s1.fpu.fcr31.cause s1.fpu.fcr31.enables then raise .fpe s1 else complete s1
     else complete s)

end Sys2Proof.Machine
end

