-- ==== Sys2Proof/Machine/LoadStore.lean ====
section
/-! DEFINITION. Integer loads and stores (43_load_store.md). -/

namespace Sys2Proof.Machine

/-- A load completes by writing the extended value. -/
def loadInto (r : RegNum) (x : Except Stop (Dword × State)) (extend : Dword → Dword) : Out :=
  onOk x (fun vs => writeResult r (extend vs.1) vs.2)

/-- A store completes. -/
def storeDone (x : Except Stop State) : Out := onOk x complete

/-- `sext64` of the low `n` bits of a value read. -/
def extendFrom (n : Nat) (v : Dword) : Dword := (v.truncate n).signExtend 64

/-- A left or right load of a word writes the merged word, sign-extended (rule R413). -/
def wordMerge (v : Dword) : Dword := sext32 (low32 v)

/-- The low word of a register, zero-extended: the datum of the word forms. -/
def wordDatum (s : State) (r : RegNum) : Dword := (low32 (readGpr s r)).zeroExtend 64

/-- `LLbit <- 1; LLAddr <- pAddr[35:4]` (rule R440; 10_state.md rule R138). -/
def setLink (pa : PAddr) (s : State) : State :=
  { s with llBit := true, cp0 := { s.cp0 with llAddr := pa.extractLsb' 4 32 } }

/-- A load-linked of `n` bytes (rules R440, R441). -/
def loadLinked (n : Nat) (r : RegNum) (va : Dword) (extend : Dword → Dword) (s : State) : Out :=
  onOk (translateAligned .load n va s) (fun t =>
    onOk (loadAt n t.1 t.2 s) (fun vs => writeResult r (extend vs.1) (setLink t.1 vs.2)))

/-- A store-conditional of `n` bytes: every check of a store is made first, then the link bit decides
(rules R442, R443; 92_eei_decisions.md D10). -/
def storeConditional (n : Nat) (r : RegNum) (va : Dword) (s : State) : Out :=
  onOk (translateAligned .store n va s) (fun t =>
    onOk (watchData .store t.1 n s) (fun _ =>
      if s.llBit then
        onOk (memWrite t.1 n (orderBytes (bigEndianCpu s) n (readGpr s r)) t.2 s) (fun s' => writeResult r 1 s')
      else writeResult r 0 s))

/-- `LB` (rule R414). -/
def execLb (base rt : BitVec 5) (offset : BitVec 16) (s : State) : Out :=
  loadInto rt (loadData 1 (effAddr s base offset) s) (extendFrom 8)

/-- `LBU` (rule R415). -/
def execLbu (base rt : BitVec 5) (offset : BitVec 16) (s : State) : Out :=
  loadInto rt (loadData 1 (effAddr s base offset) s) id

/-- `LH` (rule R416). -/
def execLh (base rt : BitVec 5) (offset : BitVec 16) (s : State) : Out :=
  loadInto rt (loadData 2 (effAddr s base offset) s) (extendFrom 16)

/-- `LHU` (rule R417). -/
def execLhu (base rt : BitVec 5) (offset : BitVec 16) (s : State) : Out :=
  loadInto rt (loadData 2 (effAddr s base offset) s) id

/-- `LW` (rule R418). -/
def execLw (base rt : BitVec 5) (offset : BitVec 16) (s : State) : Out :=
  loadInto rt (loadData 4 (effAddr s base offset) s) (extendFrom 32)

/-- `LWU` (rule R419). -/
def execLwu (base rt : BitVec 5) (offset : BitVec 16) (s : State) : Out :=
  requireIs64 s (loadInto rt (loadData 4 (effAddr s base offset) s) id)

/-- `LD` (rule R420). -/
def execLd (base rt : BitVec 5) (offset : BitVec 16) (s : State) : Out :=
  requireIs64 s (loadInto rt (loadData 8 (effAddr s base offset) s) id)

/-- `SB` (rule R421). -/
def execSb (base rt : BitVec 5) (offset : BitVec 16) (s : State) : Out :=
  storeDone (storeData 1 (effAddr s base offset) (readGpr s rt) s)

/-- `SH` (rule R422). -/
def execSh (base rt : BitVec 5) (offset : BitVec 16) (s : State) : Out :=
  storeDone (storeData 2 (effAddr s base offset) (readGpr s rt) s)

/-- `SW` (rule R423). -/
def execSw (base rt : BitVec 5) (offset : BitVec 16) (s : State) : Out :=
  storeDone (storeData 4 (effAddr s base offset) (readGpr s rt) s)

/-- `SD` (rule R424). -/
def execSd (base rt : BitVec 5) (offset : BitVec 16) (s : State) : Out :=
  requireIs64 s (storeDone (storeData 8 (effAddr s base offset) (readGpr s rt) s))

/-- `LWL` (rule R430). -/
def execLwl (base rt : BitVec 5) (offset : BitVec 16) (s : State) : Out :=
  loadInto rt (loadLeft 4 (effAddr s base offset) s)
    (fun x => wordMerge (mergeLeft (leftShift s 4 (effAddr s base offset)) x (wordDatum s rt)))

/-- `LWR` (rule R431). -/
def execLwr (base rt : BitVec 5) (offset : BitVec 16) (s : State) : Out :=
  loadInto rt (loadRight 4 (effAddr s base offset) s)
    (fun x => wordMerge (mergeRight 4 (rightShift s 4 (effAddr s base offset)) x (wordDatum s rt)))

/-- `LDL` (rule R434). -/
def execLdl (base rt : BitVec 5) (offset : BitVec 16) (s : State) : Out :=
  requireIs64 s (loadInto rt (loadLeft 8 (effAddr s base offset) s)
    (fun x => mergeLeft (leftShift s 8 (effAddr s base offset)) x (readGpr s rt)))

/-- `LDR` (rule R435). -/
def execLdr (base rt : BitVec 5) (offset : BitVec 16) (s : State) : Out :=
  requireIs64 s (loadInto rt (loadRight 8 (effAddr s base offset) s)
    (fun x => mergeRight 8 (rightShift s 8 (effAddr s base offset)) x (readGpr s rt)))

/-- `SWL` (rule R432). -/
def execSwl (base rt : BitVec 5) (offset : BitVec 16) (s : State) : Out :=
  storeDone (storeLeft 4 (effAddr s base offset) (wordDatum s rt) s)

/-- `SWR` (rule R433). -/
def execSwr (base rt : BitVec 5) (offset : BitVec 16) (s : State) : Out :=
  storeDone (storeRight 4 (effAddr s base offset) (wordDatum s rt) s)

/-- `SDL` (rule R436). -/
def execSdl (base rt : BitVec 5) (offset : BitVec 16) (s : State) : Out :=
  requireIs64 s (storeDone (storeLeft 8 (effAddr s base offset) (readGpr s rt) s))

/-- `SDR` (rule R437). -/
def execSdr (base rt : BitVec 5) (offset : BitVec 16) (s : State) : Out :=
  requireIs64 s (storeDone (storeRight 8 (effAddr s base offset) (readGpr s rt) s))

/-- `LL` (rule R440). -/
def execLl (base rt : BitVec 5) (offset : BitVec 16) (s : State) : Out :=
  loadLinked 4 rt (effAddr s base offset) (extendFrom 32) s

/-- `LLD` (rule R441). -/
def execLld (base rt : BitVec 5) (offset : BitVec 16) (s : State) : Out :=
  requireIs64 s (loadLinked 8 rt (effAddr s base offset) id s)

/-- `SC` (rule R442). -/
def execSc (base rt : BitVec 5) (offset : BitVec 16) (s : State) : Out :=
  storeConditional 4 rt (effAddr s base offset) s

/-- `SCD` (rule R443). -/
def execScd (base rt : BitVec 5) (offset : BitVec 16) (s : State) : Out :=
  requireIs64 s (storeConditional 8 rt (effAddr s base offset) s)

end Sys2Proof.Machine
end

