-- ==== Sys2Proof/Machine/MulDiv.lean ====
section
/-! DEFINITION. Multiply, divide, `HI` and `LO` (44_computational.md section 5; 42_integer_impl_specific.md). -/

namespace Sys2Proof.Machine

/-- `HI <- hi; LO <- lo`. -/
def writeHiLo (hi lo : Dword) (s : State) : State := { s with hi := hi, lo := lo }

/-- The instruction completes with a 64-bit value in `HI`, `LO`, each half sign-extended. -/
def hiLoWords (p : Dword) (s : State) : Out := complete (writeHiLo (sext32 (high32 p)) (sext32 (low32 p)) s)

/-- `HI` and `LO` receive free values. -/
def hiLoFree (s : State) : Out := complete (writeHiLo (s.free 0) (s.free 1) (s.drew 2))

/-- `HI[31:0] || LO[31:0]`, the accumulator of `MAD` and `MADU` (42_integer_impl_specific.md rule R401). -/
def accumulator (s : State) : Dword := low32 s.hi ++ low32 s.lo

/-- The product of the low words, sign-extended. -/
def signedProduct (s : State) (rs rt : RegNum) : Dword :=
  sext32 (low32 (readGpr s rs)) * sext32 (low32 (readGpr s rt))

/-- The product of the low words, zero-extended. -/
def unsignedProduct (s : State) (rs rt : RegNum) : Dword :=
  (low32 (readGpr s rs)).zeroExtend 64 * (low32 (readGpr s rt)).zeroExtend 64

/-- A 32-bit division that has a representable quotient: operands that are not sign-extended words, a zero
divisor and the one overflowing quotient leave free values in `HI` and `LO` (rules R471, R532; D32, D33). -/
def divideWords (ok : Bool) (q r : Word) (s : State) : Out :=
  if ok then complete (writeHiLo (sext32 r) (sext32 q) s) else hiLoFree s

/-- `MULT` (rule R530). -/
def execMult (rs rt : BitVec 5) (s : State) : Out :=
  if bothWords s rs rt then hiLoWords (signedProduct s rs rt) s else hiLoFree s

/-- `MULTU` (rule R531). -/
def execMultu (rs rt : BitVec 5) (s : State) : Out :=
  if bothWords s rs rt then hiLoWords (unsignedProduct s rs rt) s else hiLoFree s

/-- `DIV` (rule R532). -/
def execDiv (rs rt : BitVec 5) (s : State) : Out :=
  let a := low32 (readGpr s rs)
  let b := low32 (readGpr s rt)
  divideWords (bothWords s rs rt && b != 0 && !(a == 0x80000000 && b == BitVec.allOnes 32)) (a.sdiv b) (a.srem b) s

/-- `DIVU` (rule R533). -/
def execDivu (rs rt : BitVec 5) (s : State) : Out :=
  let a := low32 (readGpr s rs)
  let b := low32 (readGpr s rt)
  divideWords (bothWords s rs rt && b != 0) (a / b) (a % b) s

/-- `DMULT` (rule R534). -/
def execDmult (rs rt : BitVec 5) (s : State) : Out :=
  requireIs64 s
    (let p : BitVec 128 := (readGpr s rs).signExtend 128 * (readGpr s rt).signExtend 128
     complete (writeHiLo (p.extractLsb' 64 64) (p.extractLsb' 0 64) s))

/-- `DMULTU` (rule R535). -/
def execDmultu (rs rt : BitVec 5) (s : State) : Out :=
  requireIs64 s
    (let p : BitVec 128 := (readGpr s rs).zeroExtend 128 * (readGpr s rt).zeroExtend 128
     complete (writeHiLo (p.extractLsb' 64 64) (p.extractLsb' 0 64) s))

/-- `DDIV` (rule R536). -/
def execDdiv (rs rt : BitVec 5) (s : State) : Out :=
  requireIs64 s
    (let a := readGpr s rs
     let b := readGpr s rt
     if b == 0 || (a == 0x8000000000000000 && b == BitVec.allOnes 64) then hiLoFree s
     else complete (writeHiLo (a.srem b) (a.sdiv b) s))

/-- `DDIVU` (rule R537). -/
def execDdivu (rs rt : BitVec 5) (s : State) : Out :=
  requireIs64 s
    (if readGpr s rt == 0 then hiLoFree s
     else complete (writeHiLo (readGpr s rs % readGpr s rt) (readGpr s rs / readGpr s rt) s))

/-- `MFHI` (rule R540). -/
def execMfhi (rd : BitVec 5) (s : State) : Out := writeResult rd s.hi s

/-- `MFLO` (rule R541). -/
def execMflo (rd : BitVec 5) (s : State) : Out := writeResult rd s.lo s

/-- `MTHI` (rule R542). -/
def execMthi (rs : BitVec 5) (s : State) : Out := complete (writeHiLo (readGpr s rs) s.lo s)

/-- `MTLO` (rule R543). -/
def execMtlo (rs : BitVec 5) (s : State) : Out := complete (writeHiLo s.hi (readGpr s rs) s)

/-- `MAD` (42_integer_impl_specific.md rule R401). -/
def execMad (rs rt : BitVec 5) (s : State) : Out := hiLoWords (accumulator s + signedProduct s rs rt) s

/-- `MADU` (42_integer_impl_specific.md rule R402). -/
def execMadu (rs rt : BitVec 5) (s : State) : Out := hiLoWords (accumulator s + unsignedProduct s rs rt) s

/-- `MUL`: the low word of the product; `HI` and `LO` receive free values (42_integer_impl_specific.md rule R403;
92_eei_decisions.md D9). -/
def execMul (rs rt rd : BitVec 5) (s : State) : Out :=
  writeResult rd (sext32 (low32 (signedProduct s rs rt))) (writeHiLo (s.free 0) (s.free 1) (s.drew 2))

end Sys2Proof.Machine
end

