-- ==== Sys2Proof/Machine/Shift.lean ====
section
/-! DEFINITION. Shifts (44_computational.md section 4). -/

namespace Sys2Proof.Machine

/-- The low word of a register. -/
def wordOf (s : State) (r : RegNum) : Word := low32 (readGpr s r)

/-- Bits 4:0 of a register, the amount of the 32-bit variable shifts. -/
def amount5 (s : State) (r : RegNum) : Nat := ((readGpr s r).extractLsb' 0 5).toNat

/-- Bits 5:0 of a register, the amount of the 64-bit variable shifts. -/
def amount6 (s : State) (r : RegNum) : Nat := ((readGpr s r).extractLsb' 0 6).toNat

/-- `SLL` (rule R510). -/
def execSll (rt rd sa : BitVec 5) (s : State) : Out :=
  wordResult (wordValue (readGpr s rt)) rd (wordOf s rt <<< sa.toNat) s

/-- `SRL` (rule R511). -/
def execSrl (rt rd sa : BitVec 5) (s : State) : Out :=
  wordResult (wordValue (readGpr s rt)) rd (wordOf s rt >>> sa.toNat) s

/-- `SRA` (rule R512). -/
def execSra (rt rd sa : BitVec 5) (s : State) : Out :=
  wordResult (wordValue (readGpr s rt)) rd ((wordOf s rt).sshiftRight sa.toNat) s

/-- `SLLV` (rule R513). -/
def execSllv (rs rt rd : BitVec 5) (s : State) : Out :=
  wordResult (wordValue (readGpr s rt)) rd (wordOf s rt <<< amount5 s rs) s

/-- `SRLV` (rule R514). -/
def execSrlv (rs rt rd : BitVec 5) (s : State) : Out :=
  wordResult (wordValue (readGpr s rt)) rd (wordOf s rt >>> amount5 s rs) s

/-- `SRAV` (rule R515). -/
def execSrav (rs rt rd : BitVec 5) (s : State) : Out :=
  wordResult (wordValue (readGpr s rt)) rd ((wordOf s rt).sshiftRight (amount5 s rs)) s

/-- `DSLL` (rule R516). -/
def execDsll (rt rd sa : BitVec 5) (s : State) : Out :=
  requireIs64 s (writeResult rd (readGpr s rt <<< sa.toNat) s)

/-- `DSRL` (rule R517). -/
def execDsrl (rt rd sa : BitVec 5) (s : State) : Out :=
  requireIs64 s (writeResult rd (readGpr s rt >>> sa.toNat) s)

/-- `DSRA` (rule R518). -/
def execDsra (rt rd sa : BitVec 5) (s : State) : Out :=
  requireIs64 s (writeResult rd ((readGpr s rt).sshiftRight sa.toNat) s)

/-- `DSLL32` (rule R519). -/
def execDsll32 (rt rd sa : BitVec 5) (s : State) : Out :=
  requireIs64 s (writeResult rd (readGpr s rt <<< (sa.toNat + 32)) s)

/-- `DSRL32` (rule R520). -/
def execDsrl32 (rt rd sa : BitVec 5) (s : State) : Out :=
  requireIs64 s (writeResult rd (readGpr s rt >>> (sa.toNat + 32)) s)

/-- `DSRA32` (rule R521). -/
def execDsra32 (rt rd sa : BitVec 5) (s : State) : Out :=
  requireIs64 s (writeResult rd ((readGpr s rt).sshiftRight (sa.toNat + 32)) s)

/-- `DSLLV` (rule R522). -/
def execDsllv (rs rt rd : BitVec 5) (s : State) : Out :=
  requireIs64 s (writeResult rd (readGpr s rt <<< amount6 s rs) s)

/-- `DSRLV` (rule R523). -/
def execDsrlv (rs rt rd : BitVec 5) (s : State) : Out :=
  requireIs64 s (writeResult rd (readGpr s rt >>> amount6 s rs) s)

/-- `DSRAV` (rule R524). -/
def execDsrav (rs rt rd : BitVec 5) (s : State) : Out :=
  requireIs64 s (writeResult rd ((readGpr s rt).sshiftRight (amount6 s rs)) s)

end Sys2Proof.Machine
end

