-- ==== Sys2Proof/Machine/Trap.lean ====
section
/-! DEFINITION. `SYSCALL`, `BREAK`, `SYNC`, the conditional traps, and the encodings of the absent coprocessor 2
(46_special_trap.md). -/

namespace Sys2Proof.Machine

/-- `SYSCALL` (rule R600); hardware ignores the code. -/
def execSyscall (_code : BitVec 20) (s : State) : Out := raise .sys s

/-- `BREAK` (rule R601); hardware ignores the code. -/
def execBrk (_code : BitVec 20) (s : State) : Out := raise .bp s

/-- `SYNC`: every earlier access is already complete in this model (rule R603; log entry 19). -/
def execSync (_stype : BitVec 5) (s : State) : Out := complete s

/-- A conditional trap (rule R604). -/
def trapIf (c : Bool) (s : State) : Out := if c then raise .tr s else complete s

/-- `TGE` (rule R605). -/
def execTge (rs rt : BitVec 5) (_code : BitVec 10) (s : State) : Out := trapIf (!signedLt (readGpr s rs) (readGpr s rt)) s

/-- `TGEU` (rule R606). -/
def execTgeu (rs rt : BitVec 5) (_code : BitVec 10) (s : State) : Out := trapIf (!unsignedLt (readGpr s rs) (readGpr s rt)) s

/-- `TLT` (rule R607). -/
def execTlt (rs rt : BitVec 5) (_code : BitVec 10) (s : State) : Out := trapIf (signedLt (readGpr s rs) (readGpr s rt)) s

/-- `TLTU` (rule R608). -/
def execTltu (rs rt : BitVec 5) (_code : BitVec 10) (s : State) : Out := trapIf (unsignedLt (readGpr s rs) (readGpr s rt)) s

/-- `TEQ` (rule R609). -/
def execTeq (rs rt : BitVec 5) (_code : BitVec 10) (s : State) : Out := trapIf (readGpr s rs == readGpr s rt) s

/-- `TNE` (rule R610). -/
def execTne (rs rt : BitVec 5) (_code : BitVec 10) (s : State) : Out := trapIf (readGpr s rs != readGpr s rt) s

/-- `TGEI` (rule R611). -/
def execTgei (rs : BitVec 5) (imm : BitVec 16) (s : State) : Out := trapIf (!signedLt (readGpr s rs) (sext16 imm)) s

/-- `TGEIU` (rule R612). -/
def execTgeiu (rs : BitVec 5) (imm : BitVec 16) (s : State) : Out := trapIf (!unsignedLt (readGpr s rs) (sext16 imm)) s

/-- `TLTI` (rule R613). -/
def execTlti (rs : BitVec 5) (imm : BitVec 16) (s : State) : Out := trapIf (signedLt (readGpr s rs) (sext16 imm)) s

/-- `TLTIU` (rule R614). -/
def execTltiu (rs : BitVec 5) (imm : BitVec 16) (s : State) : Out := trapIf (unsignedLt (readGpr s rs) (sext16 imm)) s

/-- `TEQI` (rule R615). -/
def execTeqi (rs : BitVec 5) (imm : BitVec 16) (s : State) : Out := trapIf (readGpr s rs == sext16 imm) s

/-- `TNEI` (rule R616). -/
def execTnei (rs : BitVec 5) (imm : BitVec 16) (s : State) : Out := trapIf (readGpr s rs != sext16 imm) s

/-- Coprocessor 2 does not exist: `CpU(2)` while `CU2` = 0, else Reserved Instruction (rule R620). -/
def absentCop2 (s : State) : Out := if s.status.cu2 then raise .ri s else raise (.cpU 2) s

/-- `LWC2` (rule R620): the check precedes any address computation. -/
def execLwc2 (_base _rt : BitVec 5) (_offset : BitVec 16) (s : State) : Out := absentCop2 s

/-- `LDC2` (rule R620): the check precedes any address computation. -/
def execLdc2 (_base _rt : BitVec 5) (_offset : BitVec 16) (s : State) : Out := absentCop2 s

/-- `SWC2` (rule R620): the check precedes any address computation. -/
def execSwc2 (_base _rt : BitVec 5) (_offset : BitVec 16) (s : State) : Out := absentCop2 s

/-- `SDC2` (rule R620): the check precedes any address computation. -/
def execSdc2 (_base _rt : BitVec 5) (_offset : BitVec 16) (s : State) : Out := absentCop2 s

/-- `COP2` (rule R620). -/
def execCop2 (_cofun : BitVec 26) (s : State) : Out := absentCop2 s

end Sys2Proof.Machine
end

