-- ==== Sys2Proof/Machine/Fetch.lean ====
section
/-! DEFINITION. The instruction fetch with its exceptions in their order (60_exceptions.md rules R772 item 7, R776
lines 4 to 9), and what a reserved encoding does (30_encoding.md rule R312). -/

namespace Sys2Proof.Machine

/-- `CacheErr` of a precise instruction parity error (60_exceptions.md rule R811): `ER` = 0, the fields of the board's
error; for a cache hit `EC` = 0 and a valid index; for an uncached fetch `EC` and the index are not stated: free
values. DESIGN CHOICE, log entry 27: an error the board injects on a cached fetch that misses is reported as that of a
hit, and no line is filled. -/
def fetchCacheErr (bits : ParityBits) (pa : PAddr) (attr : BitVec 3) (s : State) : State :=
  let err (ec : Bool) (idx : BitVec 19) : CacheErr :=
    { s.cp0.cacheErr with er := false, ec := ec, ed := bits.ed, et := bits.et, ee := bits.ee, eb := bits.eb, ei := bits.ei
                          idx := idx }
  if uncached attr then
    { s.drew 1 with cp0 := { s.cp0 with cacheErr := err ((s.free 0).getLsbD 0) ((s.free 0).extractLsb' 3 19) } }
  else { s with cp0 := { s.cp0 with cacheErr := err false (pa.extractLsb' 3 19) } }

/-- The platform's parity error on this fetch, unless `DE` masks it (60_exceptions.md rules R810, R811). -/
def checkParity (parity : Option ParityBits) (pa : PAddr) (attr : BitVec 3) (s : State) : Except Stop Unit :=
  match parity with
  | some bits => if s.status.de then .ok () else .error (.cacheError (fetchCacheErr bits pa attr s))
  | none => .ok ()

/-- The instruction watch, below the bus error (60_exceptions.md rules R776, R854). -/
def watchFetch (pa : PAddr) (s : State) : Except Stop Unit :=
  let m := watchMatch s .fetch pa 4
  if m.1 || m.2 then .error (.exc (.iwe m.1 m.2) s) else .ok ()

/-- The fetched word, its cache attribute, and the state (the caches may have been filled). Instructions are in the
base byte order (20_memory.md rule R254). -/
def fetch (parity : Option ParityBits) (s : State) : Except Stop (Word × BitVec 3 × State) :=
  match translateAligned .fetch 4 s.pc s with
  | .error e => .error e
  | .ok (pa, attr) =>
    match checkParity parity pa attr s with
    | .error e => .error e
    | .ok () =>
      match fetchRead pa attr s with
      | .error e => .error e
      | .ok (raw, s1) =>
        match watchFetch pa s1 with
        | .error e => .error e
        | .ok () => .ok (low32 (orderBytes s.params.bigEndian 4 raw), attr, s1)

/-- The format or the result format of a reserved `COP1` encoding is `L`: `fmt` = 21, or `fmt` = 20 with a function that
converts to `L` (48_fpu.md rule R661 step 2). -/
def namesLong (fmt : BitVec 5) (funct : BitVec 6) : Bool :=
  fmt == 21 || (fmt == 20 && (funct == 8 || funct == 9 || funct == 10 || funct == 11 || funct == 37))

/-- A reserved encoding: Reserved Instruction, but for the coprocessor classes their enabling tests first
(30_encoding.md rule R312) and Unimplemented Operation inside coprocessor 1 (48_fpu.md rule R676). The tests of
coprocessor 1 stand in the order of 48_fpu.md rule R661, to which R312 points: that its steps 1 and 2 come before `CU1`
also for a reserved encoding is DEDUCED, log entry 41. -/
def reservedEncoding (r : Reserved) (s : State) : Out :=
  match r with
  | .majorOpcode => raise .ri s
  | .special => raise .ri s
  | .regimm => raise .ri s
  | .cop0 => requireCp0 s (raise .ri s)
  | .cop1 fmt funct =>
    if namesLong fmt funct then requireIs64 s (requireCu1 s (raiseUnimplemented s))
    else requireCu1 s (raiseUnimplemented s)
  | .cop1x => requireMips4 s (requireCu1 s (raiseUnimplemented s))
  | .rm7000 => raise .ri s
  | .truncated => raise .ri s

/-- Store the low 32 bits of `w` where the next fetch reads, in the base byte order (log entry 32). -/
def placeFetchWord (w : Nat) (s : State) : State :=
  let bytes := orderBytes s.params.bigEndian 4 ((BitVec.ofNat 32 w).zeroExtend 64)
  match translate .fetch s.pc s with
  | .ok (pa, _) => { s with mem := Memory.writeBytes s.mem pa.toNat 4 bytes }
  | .error _ => s

end Sys2Proof.Machine
end

