-- ==== Sys2Proof/Machine/Hazard.lean ====
section
/-! DEFINITION. The hazards of 70_reset_and_hazards.md section 3, checked only while the parameter `HAZARD_CHECK`
is strict (rule R896; log entries 11, 34): what an instruction writes, the windows it opens, and what it or its fetch
depends on. A window counts the instructions that must still pass. -/

namespace Sys2Proof.Machine

/-! ## What an instruction is -/

/-- The operand of a `CACHE` instruction, with whether `Status.CO` opens it (41_cache_instruction.md rule R381). -/
def cacheOperand : Instr → Option (RegNum × BitVec 16 × Bool)
  | .cacheHitWritebackInvalidateD b o | .cacheHitWritebackInvalidateS b o | .cacheHitWritebackI b o
  | .cacheHitWritebackD b o | .cacheHitWritebackS b o => some (b, o, true)
  | .cacheIndexInvalidateI b o | .cacheIndexWritebackInvalidateD b o | .cacheFlashInvalidateT b o
  | .cacheIndexWritebackInvalidateS b o | .cacheIndexLoadTagI b o | .cacheIndexLoadTagD b o
  | .cacheIndexLoadTagT b o | .cacheIndexLoadTagS b o | .cacheIndexStoreTagI b o | .cacheIndexStoreTagD b o
  | .cacheIndexStoreTagT b o | .cacheIndexStoreTagS b o | .cacheCreateDirtyExclusiveD b o
  | .cacheHitInvalidateI b o | .cacheHitInvalidateD b o | .cacheHitInvalidateS b o | .cacheFillI b o
  | .cachePageInvalidateT b o | .cacheOp0C b o | .cacheOp0E b o | .cacheOp0F b o | .cacheOp12 b o | .cacheOp1A b o
  | .cacheOp1C b o | .cacheOp1D b o | .cacheOp1E b o | .cacheOp1F b o => some (b, o, false)
  | _ => none

/-- The `CACHE` instructions. -/
def isCache (i : Instr) : Bool := (cacheOperand i).isSome

/-- The data access of a load, a store or a prefetch: its kind, its alignment and its address. -/
def dataAccess (i : Instr) (s : State) : Option (AccessKind × Nat × Dword) :=
  match i with
  | .lb b _ o | .lbu b _ o | .lwl b _ o | .lwr b _ o | .ldl b _ o | .ldr b _ o | .pref b _ o =>
    some (.load, 1, effAddr s b o)
  | .lh b _ o | .lhu b _ o => some (.load, 2, effAddr s b o)
  | .lw b _ o | .lwu b _ o | .ll b _ o | .lwc1 b _ o => some (.load, 4, effAddr s b o)
  | .ld b _ o | .lld b _ o | .ldc1 b _ o => some (.load, 8, effAddr s b o)
  | .sb b _ o | .swl b _ o | .swr b _ o | .sdl b _ o | .sdr b _ o => some (.store, 1, effAddr s b o)
  | .sh b _ o => some (.store, 2, effAddr s b o)
  | .sw b _ o | .sc b _ o | .swc1 b _ o => some (.store, 4, effAddr s b o)
  | .sd b _ o | .scd b _ o | .sdc1 b _ o => some (.store, 8, effAddr s b o)
  | .prefx b x _ => some (.load, 1, indexAddr s b x)
  | .lwxc1 b x _ => some (.load, 4, indexAddr s b x)
  | .ldxc1 b x _ => some (.load, 8, indexAddr s b x)
  | .swxc1 b x _ => some (.store, 4, indexAddr s b x)
  | .sdxc1 b x _ => some (.store, 8, indexAddr s b x)
  | _ => none

/-- The address an instruction translates, of its data or of its `CACHE` operand. -/
def dataAddress (i : Instr) (s : State) : Option Dword :=
  match dataAccess i s, cacheOperand i with
  | some (_, _, va), _ => some va
  | none, some (b, o, _) => some (effAddr s b o)
  | none, none => none

/-- The instructions of opcode 16: they need CP0. -/
def isCop0 : Instr → Bool
  | .mfc0 _ _ | .dmfc0 _ _ | .cfc0 _ _ | .mtc0 _ _ | .dmtc0 _ _ | .ctc0 _ _
  | .tlbr | .tlbwi | .tlbwr | .tlbp | .eret | .wait => true
  | _ => false

/-- The encodings of coprocessor 2. -/
def isCop2 : Instr → Bool
  | .lwc2 _ _ _ | .ldc2 _ _ _ | .swc2 _ _ _ | .sdc2 _ _ _ | .cop2 _ => true
  | _ => false

/-- The integer instructions that need `Is64()` (30_encoding.md rule R313). -/
def isMips3 : Instr → Bool
  | .dadd _ _ _ | .daddu _ _ _ | .daddi _ _ _ | .daddiu _ _ _ | .dsub _ _ _ | .dsubu _ _ _ | .dmult _ _ | .dmultu _ _
  | .ddiv _ _ | .ddivu _ _ | .dsll _ _ _ | .dsrl _ _ _ | .dsra _ _ _ | .dsllv _ _ _ | .dsrlv _ _ _ | .dsrav _ _ _
  | .dsll32 _ _ _ | .dsrl32 _ _ _ | .dsra32 _ _ _ | .ld _ _ _ | .sd _ _ _ | .ldl _ _ _ | .ldr _ _ _ | .sdl _ _ _
  | .sdr _ _ _ | .lwu _ _ _ | .lld _ _ _ | .scd _ _ _ | .dmfc0 _ _ | .dmtc0 _ _ => true
  | _ => false

/-- The integer-side MIPS IV instructions (30_encoding.md rule R313). -/
def isMips4Integer : Instr → Bool
  | .movn _ _ _ | .movz _ _ _ | .movf _ _ _ | .movt _ _ _ | .pref _ _ _ => true
  | _ => false

/-- The instructions that need coprocessor 1: the major opcode of the encoding, and `MOVF`, `MOVT`. -/
def isCop1 (i : Instr) : Bool :=
  match i with
  | .movf _ _ _ | .movt _ _ _ => true
  | i => [17, 19, 49, 53, 57, 61].contains (opF (encode i)).toNat

/-- The instruction passes its enabling tests: one that does not raises Reserved Instruction or Coprocessor Unusable
whatever the control registers hold (30_encoding.md rule R313; 40_cp0_instructions.md rule R350; 48_fpu.md rule R661). -/
def enabled (i : Instr) (s : State) : Bool :=
  (!isMips3 i || is64 s) && (!isMips4Integer i || isMips4 s) && (opF (encode i) != 19 || isMips4 s) &&
    (!isCop0 i || cp0Usable s) && (!isCop1 i || s.status.cu1) && !isCop2 i &&
    (match cacheOperand i with
      | some (_, _, userForm) => cp0Usable s || (userForm && s.status.co)
      | none => true)

/-! ## What an instruction writes -/

/-- The control register an instruction writes, if it is one of the moves rule R912 lists. -/
def controlWrite : Instr → Option ControlWrite
  | .mtc0 _ rd => some (.cp0 rd)
  | .dmtc0 _ rd => some (.cp0 rd)
  | .ctc0 _ rd => some (.cp0Control rd)
  | .ctc1 _ fs => if fs = 31 then some .fcr31 else none
  | _ => none

/-- The set 0 register an instruction writes by a move. -/
def writtenCp0 (i : Instr) : Option RegNum :=
  match controlWrite i with
  | some (.cp0 n) => some n
  | _ => none

/-- A move to the register changes it: the read-only and the reserved registers ignore one (40_cp0_instructions.md rules
R353, R363; 10_state.md rules R62, R128, R163 to R165). -/
def changes (w : ControlWrite) (s : State) : Bool :=
  match w with
  | .cp0 n =>
    match n.toNat with
    | 1 | 8 | 15 | 21 | 23 | 27 | 31 => false
    | 7 => hasInfo s
    | _ => true
  | .cp0Control n => n == 18 || n == 19 || n == 20
  | .fcr31 => true

/-- The value a move to a 32-bit CP0 register carries: for `DMTC0` a free value (92_eei_decisions.md D5). -/
def moveSource (s : State) : Instr → Word
  | .mtc0 rt _ => low32 (readGpr s rt)
  | .dmtc0 _ _ => low32 (s.free 0)
  | _ => 0

/-- The instructions that change the contents of the JTLB. -/
def writesJtlb : Instr → Bool
  | .tlbwi | .tlbwr => true
  | _ => false

/-- `PageMask` or `EntryHi` is modified (rules R900, R901, R903, R904). -/
def writesPageOrHi (i : Instr) : Bool :=
  match i with
  | .tlbr => true
  | _ => writtenCp0 i == some 5 || writtenCp0 i == some 10

/-- `EntryLo0` or `EntryLo1` is modified. -/
def writesEntryLo (i : Instr) : Bool :=
  match i with
  | .tlbr => true
  | _ => writtenCp0 i == some 2 || writtenCp0 i == some 3

/-- `Index` is modified. -/
def writesIndex (i : Instr) : Bool :=
  match i with
  | .tlbp => true
  | _ => writtenCp0 i == some 0

/-- `Status` is modified by a move, to it or to `Info` (10_state.md rule R128). -/
def writesStatus (i : Instr) (s : State) : Bool :=
  writtenCp0 i == some 12 || (writtenCp0 i == some 7 && hasInfo s)

/-- Open a window of `n` instructions, or count an open one down. -/
def window (opens : Bool) (n old : Nat) : Nat := if opens then n else old - 1

/-- The windows of the recent writes of `Status`, one instruction shorter. -/
def agedStatus (h : List (Nat × Status)) : List (Nat × Status) :=
  (h.filter (fun x => decide (1 < x.1))).map (fun x => (x.1 - 1, x.2))

/-- The windows one instruction later, when nothing is written. -/
def agedHazards (s : State) : Hazards :=
  let h := s.hazards
  { tlbwr := h.tlbwr - 1, tlbwi := h.tlbwi - 1, tlbr := h.tlbr - 1, tlbp := h.tlbp - 1, jtlbUse := h.jtlbUse - 1
    eret := h.eret - 1, kseg0Use := h.kseg0Use - 1, lockD := h.lockD - 1, lockI := h.lockI - 1
    statusUse := agedStatus h.statusUse, controlInSlot := none }

/-- The control register a slot leaves written for the first instruction at the target (rule R912). DESIGN CHOICE, log
entry 34: the instruction behind the slot of an ordinary branch that is not taken counts as that instruction too. -/
def slotWrite (i : Instr) (s : State) : Option ControlWrite :=
  match controlWrite i with
  | some w => if s.inDelaySlot && changes w s then some w else none
  | none => none

/-- The windows after an instruction: those it opens, the others one shorter. One that does not pass its enabling tests
writes nothing. DESIGN CHOICE, log entry 34: rule R903's "PageMask or EntryHi or CP0 Registers" is read as `PageMask` and
`EntryHi`, as rule R904 has it: no other CP0 register opens the window of `TLBP`. -/
def nextHazards (i : Instr) (s : State) : Hazards :=
  let h := s.hazards
  if !enabled i s then agedHazards s
  else
    { tlbwr := window (writesPageOrHi i || writesEntryLo i || writtenCp0 i == some 6) 4 h.tlbwr
      tlbwi := window (writesPageOrHi i || writesEntryLo i || writesIndex i) 4 h.tlbwi
      tlbr := window (writesIndex i || writesJtlb i) 4 h.tlbr
      tlbp := window (writesPageOrHi i || writesJtlb i) 4 h.tlbp
      jtlbUse := window (writesPageOrHi i || writesJtlb i) 4 h.jtlbUse
      eret := window (writesStatus i s || writtenCp0 i == some 14 || writtenCp0 i == some 30) 4 h.eret
      kseg0Use :=
        window (writtenCp0 i == some 16 && (moveSource s i).extractLsb' 0 3 != s.cp0.config.k0) 10 h.kseg0Use
      lockD := window (writtenCp0 i == some 26 && (moveSource s i).getLsbD 26) 4 h.lockD
      lockI := window (writtenCp0 i == some 26 && (moveSource s i).getLsbD 27) 8 h.lockI
      statusUse := (if writesStatus i s then [(4, s.status)] else []) ++ agedStatus h.statusUse
      controlInSlot := slotWrite i s }

/-! ## What an instruction depends on -/

/-- An address in `kseg0` or `ckseg0`. -/
def inKseg0 (va : Dword) : Bool := va.extractLsb' 29 35 == BitVec.ofNat 35 0x7FFFFFFFC

/-- The data address of the instruction satisfies `p`. -/
def dataWhere (i : Instr) (s : State) (p : Dword → Bool) : Bool :=
  match dataAddress i s with
  | some va => p va
  | none => false

/-- The fetch goes through the explicit instruction cache. -/
def cachedFetch (s : State) : Bool :=
  match translate .fetch s.pc s with
  | .ok (_, attr) => throughCache attr s
  | .error _ => false

/-- The fetch misses the explicit instruction cache (rule R908). -/
def fetchMisses (s : State) : Bool :=
  match translateAligned .fetch 4 s.pc s with
  | .ok (pa, attr) => throughCache attr s && (match lookupI s pa with | .ok none => true | _ => false)
  | .error _ => false

/-- The data access misses the explicit data cache (rule R907). -/
def dataMisses (i : Instr) (s : State) : Bool :=
  match dataAccess i s with
  | none => false
  | some (kind, n, va) =>
    match translateAligned kind n va s with
    | .ok (pa, attr) => throughCache attr s && (match lookupD s pa with | .ok none => true | _ => false)
    | .error _ => false

/-- The data access goes through the explicit caches. -/
def cachedData (i : Instr) (s : State) : Bool :=
  dataWhere i s (fun va =>
    match translate .load va s with
    | .ok (_, attr) => throughCache attr s
    | .error _ => false)

/-- The set 0 registers that read differently once register `n` is written: itself, but for `Info`, whose `AE` reads 0
(10_state.md rule R128), and those the rule of its side effect names (40_cp0_instructions.md rule R364): `Random` after
`Wired`, `Status` after `Info`, `Cause`, which shows the timer and the counter interrupt, after `Count`, `Compare`,
`PerfControl` and `PerfCount`, and `PerfCount` after `PerfControl`. -/
def readsWritten (n q : RegNum) : Bool :=
  (n == q && n != 7) || (n == 6 && q == 1) || (n == 7 && q == 12) ||
    ((n == 9 || n == 11 || n == 22 || n == 25) && q == 13) || (n == 22 && q == 25)

/-- A floating-point operation: computational, conversion or compare (48_fpu.md rule R670), of opcode 17 with a format
and no move, or a multiply-add of opcode 19. -/
def isFpOperation (i : Instr) : Bool :=
  let w := encode i
  (opF w == 17 && 16 ≤ rsF w && !(functF w == 6 || functF w == 17 || functF w == 18 || functF w == 19)) ||
    (opF w == 19 && 32 ≤ functF w)

/-- The instruction depends on `FCR31`: a floating-point operation or `CFC1` (rule R912). DESIGN CHOICE, log entry 34: so
do those that test a condition code. -/
def dependsOnFcr31 (i : Instr) : Bool :=
  isFpOperation i ||
    match i with
    | .cfc1 _ _ | .bc1f _ _ | .bc1t _ _ | .bc1fl _ _ | .bc1tl _ _ | .movf _ _ _ | .movt _ _ _
    | .movfS _ _ _ | .movtS _ _ _ | .movfD _ _ _ | .movtD _ _ _ => true
    | _ => false

/-- The `CACHE` operations that name the secondary or the tertiary cache, or may read or write a line there: the ones
`Config.SE` and `Config.TE` decide about (20_memory.md rule R295; 41_cache_instruction.md rules R385, R387, R394). -/
def usesLowerCaches : Instr → Bool
  | .cacheIndexInvalidateI _ _ | .cacheIndexLoadTagI _ _ | .cacheIndexLoadTagD _ _ | .cacheIndexStoreTagI _ _
  | .cacheIndexStoreTagD _ _ | .cacheHitInvalidateI _ _ | .cacheHitInvalidateD _ _ | .cacheHitWritebackI _ _ => false
  | i => isCache i

/-- A prefetch, which fires no Watch (47_mips4_additions.md rule R640). -/
def isPrefetch : Instr → Bool
  | .pref _ _ _ | .prefx _ _ _ => true
  | _ => false

/-- The first instruction at a branch target depends on a control register written in the slot (rule R912; the
dependences of 40_cp0_instructions.md rule R364). -/
def dependsOnWrite (i : Instr) (s : State) : ControlWrite → Bool
  | .fcr31 => dependsOnFcr31 i
  | .cp0Control n => match i with
    | .cfc0 _ rd => rd == n
    | .mfc0 _ rd => n == 20 && rd == 13
    | _ => false
  | .cp0 n =>
    (match i with
      | .mfc0 _ rd => readsWritten n rd
      | .dmfc0 _ rd => readsWritten n rd
      | .tlbwi => n == 0 || n == 2 || n == 3 || n == 5 || n == 10
      | .tlbwr => n == 2 || n == 3 || n == 5 || n == 6 || n == 10
      | .tlbr => n == 0
      | .tlbp => n == 10
      | .eret => n == 14 || n == 30
      | _ => false) ||
    (n == 10 && dataWhere i s (fun va => segment s va == .mapped)) ||
    (n == 16 && (dataWhere i s inKseg0 || cachedData i s || usesLowerCaches i)) ||
    ((n == 18 || n == 19 || n == 24) && (dataAccess i s).isSome && !isPrefetch i) ||
    (n == 26 && (isCache i || cachedData i s)) || ((n == 28 || n == 29) && isCache i)

/-- The fetch of the first instruction at a branch target depends on a control register written in the slot: the address
space, the attribute of `kseg0` and the caches that are enabled, the watched words. -/
def fetchDependsOnWrite (s : State) : ControlWrite → Bool
  | .cp0 n =>
    (n == 10 && segment s s.pc == .mapped) || (n == 16 && (inKseg0 s.pc || cachedFetch s)) ||
      n == 18 || n == 19 || n == 24
  | .cp0Control _ => false
  | .fcr31 => false

/-- A word that does not decode depends on a control register written in the slot. DESIGN CHOICE, log entry 34: a
reserved encoding of coprocessor 1, which writes `FCR31.Cause`, counts as one of its operations. -/
def reservedDependsOnWrite (r : Reserved) (s : State) : Bool :=
  match r, s.hazards.controlInSlot with
  | .cop1 _ _, some .fcr31 => s.status.cu1
  | .cop1x, some .fcr31 => s.status.cu1 && isMips4 s
  | _, _ => false

/-- The instruction modifies the TLB or a register rule R910 lists; `TLBR` and `TLBP` write such registers (rule R896). -/
def modifiesTlb (i : Instr) : Bool :=
  match i with
  | .tlbr | .tlbp => true
  | _ =>
    writesJtlb i ||
      match writtenCp0 i with
      | some n => n == 0 || n == 2 || n == 3 || n == 5 || n == 6 || n == 10
      | none => false

/-- `Fill_I` while the code itself is fetched through the instruction cache (rules R908, R913(d); 93 A4). -/
def fillsWhileCached (i : Instr) (s : State) (fetchAttr : BitVec 3) : Bool :=
  match i with
  | .cacheFillI _ _ => throughCache fetchAttr s
  | _ => false

/-- The address of a `CACHE` instruction that selects its line by address, or by index in the instruction cache. -/
def ownLineOperand : Instr → Option (Bool × RegNum × BitVec 16)
  | .cacheIndexInvalidateI b o | .cacheIndexLoadTagI b o | .cacheIndexStoreTagI b o => some (true, b, o)
  | .cacheCreateDirtyExclusiveD b o | .cacheHitInvalidateI b o | .cacheHitInvalidateD b o | .cacheHitInvalidateS b o
  | .cacheFillI b o | .cacheHitWritebackInvalidateD b o | .cacheHitWritebackInvalidateS b o | .cacheHitWritebackI b o
  | .cacheHitWritebackD b o | .cacheHitWritebackS b o => some (false, b, o)
  | _ => none

/-- A `CACHE` operation on the line it is executed from, through the explicit instruction cache (rule R913(d)). -/
def cachesOwnLine (i : Instr) (s : State) (fetchAttr : BitVec 3) : Bool :=
  match ownLineOperand i, translate .fetch s.pc s with
  | some (byIndex, b, o), .ok (fetchPa, _) =>
    let va := effAddr s b o
    throughCache fetchAttr s &&
      (if byIndex then (match lookupI s fetchPa with | .ok (some k) => k == indexP va | _ => false)
       else (match translate .load va s with | .ok (pa, _) => lineAddr pa == lineAddr fetchPa | .error _ => false))
  | _, _ => false

/-! ## The hazards -/

/-- The hazard the fetch itself meets, if any: it uses the JTLB, `kseg0` or the instruction cache inside a window. -/
def fetchHazard (s : State) : Option HazardKind :=
  let h := s.hazards
  if h.jtlbUse != 0 && segment s s.pc == .mapped then some .jtlbUse
  else if h.kseg0Use != 0 && inKseg0 s.pc then some .kseg0Use
  else if h.lockI != 0 && fetchMisses s then some .lockInstructionMiss
  else
    match h.controlInSlot with
    | some w => if fetchDependsOnWrite s w then some .controlInSlot else none
    | none => none

/-- The hazard a decoded instruction meets, if any; one that does not pass its enabling tests meets none of the pairs
below, since it raises its exception first (40_cp0_instructions.md rule R350). -/
def hazardOf (i : Instr) (s : State) (fetchAttr : BitVec 3) : Option HazardKind :=
  let h := s.hazards
  if !enabled i s then none
  else if i == .tlbwr && h.tlbwr != 0 then some .tlbwr
  else if i == .tlbwi && h.tlbwi != 0 then some .tlbwi
  else if i == .tlbr && h.tlbr != 0 then some .tlbr
  else if i == .tlbp && h.tlbp != 0 then some .tlbp
  else if i == .eret && h.eret != 0 then some .eret
  else if h.jtlbUse != 0 && dataWhere i s (fun va => segment s va == .mapped) then some .jtlbUse
  else if h.kseg0Use != 0 && dataWhere i s inKseg0 then some .kseg0Use
  else if h.lockD != 0 && dataMisses i s then some .lockDataMiss
  else if modifiesTlb i && segment s s.pc == .mapped then some .tlbModifyMapped
  else if fillsWhileCached i s fetchAttr then some .lockWhileCached
  else if cachesOwnLine i s fetchAttr then some .cacheOwnLine
  else
    match h.controlInSlot with
    | some w => if dependsOnWrite i s w then some .controlInSlot else none
    | none => none

end Sys2Proof.Machine
end

