-- ==== Sys2Proof/Machine/Reset.lean ====
section
/-! DEFINITION. The cold reset with its mode stream and the soft reset (70_reset_and_hazards.md rules R870 to R874,
R880; 10_state.md rules R190 to R192; 60_exceptions.md rules R779, R780). -/

namespace Sys2Proof.Machine

/-- A mode stream with every reserved bit 0 and no reserved value (70_reset_and_hazards.md rules R874, R880). DESIGN
CHOICE, log entry 9: bit 20 = 1 is accepted with every value of bits 7:5, also with those that name no half-integer
ratio, and bit 24 = 1 is accepted on revision 1.x silicon, where the bit was reserved (90_conflicts.md C59), and has no
effect there (C9). -/
def modeStreamOk (m : BitVec 256) : Bool :=
  !m.getLsbD 0 && decide ((m.extractLsb' 1 4).toNat ≤ 8) && m.extractLsb' 9 2 != 1 && m.extractLsb' 18 2 == 0 &&
    m.extractLsb' 21 3 == 0 && m.extractLsb' 27 229 == 0

/-- The parameters a mode stream fixes (70_reset_and_hazards.md rule R880); the rest is the platform's. -/
def modeParams (m : BitVec 256) (bigEndianPin : Bool) (p : Params) : Params :=
  { p with
    epPattern := m.extractLsb' 1 4
    sysCkRatio := m.extractLsb' 5 3
    bigEndian := m.getLsbD 8 || bigEndianPin
    writeMode := m.extractLsb' 9 2
    tmrIntEn := m.getLsbD 11
    tcPresent := m.getLsbD 12
    drvOut := m.extractLsb' 13 2
    tcRamType := m.getLsbD 15
    tcSize := m.extractLsb' 16 2
    halfClock := m.getLsbD 20
    jtlb64 := m.getLsbD 24 && decide (0x20 ≤ p.rev.toNat)
    scPresent := m.getLsbD 25
    nonPend := m.getLsbD 26 }

/-- The contents of every cache become unspecified. -/
def loseCaches (s : State) : State :=
  { s with caches :=
      { epoch := s.caches.epoch + 1, tcEpoch := s.caches.tcEpoch + 1, tcInvalid := false
        icache := [], dcache := [], scache := [], tcache := [] } }

/-- What had not reached memory may be lost (41_cache_instruction.md rule R398; log entry 25). -/
def loseCacheState (s : State) : State := loseCaches (discard (fun _ => true) s)

/-- The `Status` of a cold reset: four bits are stated, the others are free (10_state.md rule R191). -/
def coldStatus (u : Dword) : Status :=
  { Status.ofWord (low32 u) with erl := true, bev := true, sr := false, co := false }

/-- A JTLB entry of free values. -/
def freeEntry (a b c : Dword) : TlbEntry :=
  { mask := a.truncate 12, r := a.extractLsb' 12 2, vpn2 := a.extractLsb' 14 27, asid := a.extractLsb' 41 8
    g := a.getLsbD 49
    even := { pfn := b.truncate 24, c := b.extractLsb' 24 3, d := b.getLsbD 27, v := b.getLsbD 28 }
    odd := { pfn := c.truncate 24, c := c.extractLsb' 24 3, d := c.getLsbD 27, v := c.getLsbD 28 } }

/-- `FCR31` of a free value. -/
def freeFcr31 (u : Dword) : Fcr31 :=
  let bits (n : Nat) : FpFlags :=
    { v := u.getLsbD (n + 4), z := u.getLsbD (n + 3), o := u.getLsbD (n + 2), u := u.getLsbD (n + 1), i := u.getLsbD n }
  { cc := u.extractLsb' 32 8, fs := u.getLsbD 24, causeE := u.getLsbD 17, cause := bits 12, enables := bits 7
    flags := bits 2, rm := u.truncate 2 }

/-- The CP0 registers of a cold reset; `f` gives the free values of those the spec leaves unspecified
(10_state.md rules R190, R191). -/
def coldCp0 (top : BitVec 6) (pc : Dword) (f : Nat → Dword) : Cp0 :=
  { Cp0.reset top with
    index := { p := (f 0).getLsbD 31, index := (f 0).truncate 6 }
    entryLo0 := EntryLo.ofDword (f 1)
    entryLo1 := EntryLo.ofDword (f 2)
    pageMask := (f 3).truncate 12
    entryHi := EntryHi.ofDword (f 4)
    epc := f 5
    llAddr := low32 (f 6)
    config := { te := false, se := (f 7).getLsbD 3, k0 := (f 7).truncate 3 }
    status := coldStatus (f 8)
    errorEpc := pc }

/-- The cold reset: pins, memory, the platform's parameters and the events to come are not the processor's and
stay; everything the spec calls unspecified is free (10_state.md rules R190, R191; 60_exceptions.md rule R779). -/
def enterColdReset (m : BitVec 256) (bigEndianPin : Bool) (s0 : State) : State :=
  let s := loseCacheState s0
  let p := modeParams m bigEndianPin s.params
  { s.drew 280 with
    params := p
    gpr := Vector.ofFn (fun i => s.free i.val)
    hi := s.free 32
    lo := s.free 33
    fpu := { fgr := Vector.ofFn (fun i => s.free (34 + i.val)), fcr31 := freeFcr31 (s.free 66) }
    cp0 := coldCp0 (if p.jtlb64 then 63 else 47) s.pc (fun k => s.free (67 + k))
    tlb := Vector.ofFn (fun i => freeEntry (s.free (80 + 3 * i.val)) (s.free (81 + 3 * i.val)) (s.free (82 + 3 * i.val)))
    llBit := (s.free 79).getLsbD 0
    pc := Config.resetVector
    inDelaySlot := false
    branchTarget := 0
    intReg := 0
    timerPending := false
    standby := false
    pendingErrors := []
    nmiLevel := s.nmiPin
    hazards := Hazards.closed }

/-- The Reset exception; a mode stream that selects a reserved value is `UNDEFINED` (rule R874). -/
def coldReset (m : BitVec 256) (bigEndianPin : Bool) (s : State) : Out :=
  if modeStreamOk m then .next (enterColdReset m bigEndianPin s) else .fault .reservedModeStream

/-- The Soft Reset: Figure 13.18, and the caches become unspecified (60_exceptions.md rule R780). -/
def softReset (s : State) : State :=
  let s1 := enterSoftReset (loseCacheState s)
  { s1 with nmiLevel := nmiNow s1 }

end Sys2Proof.Machine
end

