-- ==== Sys2Proof/Machine/Cycle.lean ====
section
/-! DEFINITION. One step, in the order of 60_exceptions.md rule R772: the resets, the board's event, NMI, Standby,
imprecise errors, the interrupt, then one instruction; and the counters behind every step that is not a reset. -/

namespace Sys2Proof.Machine

/-! ## The board's events -/

/-- What an event that is no reset changes at once. An imprecise error becomes pending (10_state.md rule R188), a parity
error acts in the fetch; a DMA write reaches memory only (20_memory.md rule R274). An external write whose address bits
6:4 are not 0 changes nothing: rule R853 defines only the others; DESIGN CHOICE, log entry 40. -/
def applyEvent (e : HostEvent) (s : State) : State :=
  match e with
  | .quiet => s
  | .coldReset _ _ => s
  | .softReset => s
  | .pins int nmi => { s with intPin := int, nmiPin := nmi }
  | .externalWrite addr data =>
    if addr.extractLsb' 4 3 = 0 then { s with intReg := writeIntReg s.intReg data } else s
  | .nullRequest => s
  | .impreciseError e => { s with pendingErrors := s.pendingErrors ++ [e] }
  | .fetchParity _ => s
  | .dmaWrite addr value =>
    breakLink .externalWrite
      (if regionKind s addr = .ram then { s with mem := Memory.write s.mem addr.toNat value } else s)
  | .linkEvent kind => breakLink kind s
  | .busIdle idle => { s with busIdle := idle }
  | .setCountStep n => { s with params := { s.params with countStep := max n 1 } }
  | .setPerfStep n => { s with params := { s.params with perfStep := n } }

/-- The external requests, which end Standby (60_exceptions.md rule R862). -/
def isExternalRequest : HostEvent → Bool
  | .externalWrite _ _ => true
  | .nullRequest => true
  | _ => false

/-- The parity error of this step's fetch. -/
def parityOf : HostEvent → Option ParityBits
  | .fetchParity bits => some bits
  | _ => none

/-- The destination of a failing load holds a free value (60_exceptions.md rule R812): a general register, or a
floating-point register in its present view. -/
def loseDest (dest : LoadDest) (v : Dword) (s : State) : State :=
  match dest with
  | .none => s
  | .gpr r => writeGpr s r v
  | .fpr r isWide => writeFpr (isWide || s.status.fr) r v s

/-- The record an imprecise error leaves: the address in one of two registers, `EC` = `ER` = 1, a free index, and a
free value in the destination of the failing load (60_exceptions.md rule R812). When `E0` and `E1` are cleared again is
not stated: DESIGN CHOICE, log entry 23, by a cold reset only. -/
def recordError (e : ImpreciseError) (s : State) : State :=
  let idx := (s.free 0).truncate 19
  let low : Word := e.addr.truncate 32
  let err := s.cp0.cacheErr
  let cp0 : Cp0 :=
    if e.second then
      { s.cp0 with dErrAddr1 := low, ecc := { s.cp0.ecc with ea1 := e.addr.extractLsb' 32 4 }
                   cacheErr := { err with e1 := true, ec := true, er := true, idx := idx } }
    else
      { s.cp0 with dErrAddr0 := low, ecc := { s.cp0.ecc with ea0 := e.addr.extractLsb' 32 4 }
                   cacheErr := { err with e0 := true, ec := true, er := true, idx := idx } }
  loseDest e.dest (s.free 1) { s.drew 2 with cp0 := cp0 }

/-- The fields of `CacheErr` that describe a parity error, loaded when the exception is taken (10_state.md rule R148;
60_exceptions.md rule R810). -/
def loadParityBits (b : ParityBits) (s : State) : State :=
  { s with cp0 := { s.cp0 with cacheErr :=
      { s.cp0.cacheErr with ed := b.ed, et := b.et, ee := b.ee, eb := b.eb, ei := b.ei } } }

/-! ## The phases of a step -/

/-- Standby: an enabled interrupt is taken; any other source numbered 2 or more, or an external request, lets
execution resume; else nothing happens (60_exceptions.md rule R862; log entry 16). -/
def standbyStep (e : HostEvent) (s : State) : Out :=
  let awake := { s with standby := false }
  if intRequest s then takeInterrupt awake
  else if isExternalRequest e || (List.range 14).any (fun n => decide (2 ≤ n) && intSource s n) then .next awake
  else .next s

/-- What fetching and running an instruction answers when no hazard is checked. -/
noncomputable def attempt (parity : Option ParityBits) (s : State) : Out :=
  if mode s = .reserved then .fault .reservedMode
  else
    match fetch parity s with
    | .error e => e.answer
    | .ok (w, _, s1) =>
      match decode w with
      | .ok i => exec i s1
      | .error r => reservedEncoding r s1

/-- The state with another `Status`. -/
def withStatus (x : Status) (s : State) : State := { s with cp0 := { s.cp0 with status := x } }

/-- Two answers, from states with `Status` = `a` and `Status` = `b`, differ in nothing but the bits of `Status` both
carried along from their beginnings. -/
def sameButStatus (a b : Status) (x y : Out) : Bool :=
  match x, y with
  | .next t, .next u =>
    decide (withStatus a t = withStatus a u) &&
      ((t.status.toWord ^^^ u.status.toWord) &&&
        ((t.status.toWord ^^^ a.toWord) ||| (u.status.toWord ^^^ b.toWord))) == 0
  | .fault f, .fault g => f == g
  | .refused f, .refused g => f == g
  | _, _ => false

/-- Within four instructions of a write of `Status`, the behaviour of this one depends on what was changed
(70_reset_and_hazards.md rule R905; 92_eei_decisions.md D71): its fetch, its decoding and its meaning answer otherwise
with the earlier value. -/
noncomputable def statusHazard (parity : Option ParityBits) (s : State) : Bool :=
  s.hazards.statusUse.any (fun x =>
    !sameButStatus s.status x.2 (attempt parity s) (attempt parity (withStatus x.2 s)))

/-- The hazard met before the instruction is known: of its fetch, or of a `Status` it depends on. -/
noncomputable def earlyHazard (parity : Option ParityBits) (s : State) : Option HazardKind :=
  if s.params.strictHazards then
    match fetchHazard s with
    | some k => some k
    | none => if statusHazard parity s then some .statusUse else none
  else none

/-- Run a decoded instruction. Under `HAZARD_CHECK` = strict a hazard is `UNDEFINED` and the windows move on
(70_reset_and_hazards.md rule R896). -/
def runInstr (i : Instr) (attr : BitVec 3) (s : State) : Out :=
  if s.params.strictHazards then
    match hazardOf i s attr with
    | some k => .fault (.hazard k)
    | none => exec i { s with hazards := nextHazards i s }
  else exec i s

/-- Run a word that does not decode. -/
def runReserved (r : Reserved) (s : State) : Out :=
  if s.params.strictHazards && reservedDependsOnWrite r s then .fault (.hazard .controlInSlot) else reservedEncoding r s

/-- Decode and run a fetched word; `before` is the state at the start of the step. -/
noncomputable def runWord (before : State) (w : Word) (attr : BitVec 3) (s : State) : Out :=
  match decode w with
  | .ok i => tickOut before true (writtenCp0 i != some 6) (runInstr i attr s)
  | .error r => tickOut before true true (runReserved r s)

/-- Fetch and run one instruction; with `KSU` = 11 and `EXL` = `ERL` = 0 nothing is defined (60_exceptions.md
rule R840). -/
noncomputable def fetchAndRun (before : State) (parity : Option ParityBits) (s : State) : Out :=
  if mode s = .reserved then .fault .reservedMode
  else
    match earlyHazard parity s with
    | some k => .fault (.hazard k)
    | none =>
      match fetch parity s with
      | .error e => tickOut before false true e.answer
      | .ok (w, attr, s1) => runWord before w attr s1

/-- From the interrupt on (rule R772 items 6 to 9). -/
noncomputable def interruptOrRun (before : State) (parity : Option ParityBits) (s : State) : Out :=
  if intRequest s then tickOut before false true (takeInterrupt s) else fetchAndRun before parity s

/-- The oldest pending imprecise error is reported: a bus error and a parity error are taken, a masked parity error is
only recorded and the step goes on (rule R812). -/
noncomputable def reportError (before : State) (parity : Option ParityBits) (e : ImpreciseError) (s : State) : Out :=
  let s1 := recordError e s
  if e.bus then tickOut before false true (raise .dbeImprecise s1)
  else if s.status.de then interruptOrRun before parity s1
  else tickOut before false true (.next (enterCacheError (loadParityBits e.bits s1)))

/-- From the imprecise errors on (rule R772 items 5 to 9). -/
noncomputable def errorOrRun (before : State) (parity : Option ParityBits) (s : State) : Out :=
  match s.pendingErrors with
  | [] => interruptOrRun before parity s
  | e :: es => reportError before parity e { s with pendingErrors := es }

/-- The step after the event has been applied, from NMI on (rule R772 items 3 to 9; rule R781). -/
noncomputable def afterEvent (before : State) (e : HostEvent) (s : State) : Out :=
  let s1 := { s with nmiLevel := nmiNow s }
  if nmiNow s && !s.nmiLevel then tickOut before false true (.next (enterSoftReset s1))
  else if s1.standby then tickOut before false false (standbyStep e s1)
  else errorOrRun before (parityOf e) s1

/-- One step with the event the board gives it (rule R772). -/
noncomputable def cycle (e : HostEvent) (s : State) : Out :=
  match e with
  | .coldReset m pin => coldReset m pin s
  | .softReset => .next (softReset s)
  | e => afterEvent s e (applyEvent e s)

/-- Take the board's next event off its list; when the list is empty nothing happens outside. -/
noncomputable def stepOnce (s : State) : Out :=
  match s.events with
  | [] => cycle .quiet s
  | e :: es => cycle e { s with events := es }

end Sys2Proof.Machine
end

