-- ==== Sys2Proof/Machine/Step.lean ====
section
/-! DEFINITION. The step function, and the placing of an instruction where the next step fetches. -/

namespace Sys2Proof.Machine

/-- One step of the machine (60_exceptions.md rule R772). -/
noncomputable def step (s : State) : Host.Outcome State Fault Refusal := Sys2Proof.Machine.stepOnce s

/-- The state with an instruction stored where `step` fetches next: its bits above `nbits` are 0. -/
def State.withFetchWord (s : State) (nbits w : Nat) : State := Sys2Proof.Machine.placeFetchWord (w % 2 ^ nbits) s

end Sys2Proof.Machine
end

