-- ==== Sys2Proof/Safety.lean ====
section
/-! DEFINITION. The terms the statements use: values and number representations, what an instruction leaves alone, what
its next state holds, tables of the results the rules give, and the invariant of the machine. -/

namespace Sys2Proof.Safety

open Sys2Proof.Machine

/-! ## Numbers -/

/-- `signed64(GPR[r])`. -/
def sval (s : State) (r : RegNum) : Int := (readGpr s r).toInt
/-- `unsigned64(GPR[r])`. -/
def uval (s : State) (r : RegNum) : Nat := (readGpr s r).toNat
/-- `GPR[r][31:0]` as an unsigned number. -/
def lowval (s : State) (r : RegNum) : Nat := (readGpr s r).toNat % 2 ^ 32
/-- `GPR[r][31:0]` as a signed number. -/
def lowsval (s : State) (r : RegNum) : Int := ((lowval s r : Nat) : Int).bmod (2 ^ 32)
/-- `WordValue(GPR[r])`: the register holds a 32-bit signed number (44_computational.md rule R471). -/
def IsWord (s : State) (r : RegNum) : Prop := -(2 ^ 31) ≤ sval s r ∧ sval s r < 2 ^ 31
/-- The low word of a number, sign-extended to 64 bits. -/
def word (x : Int) : Dword := BitVec.ofInt 64 (x.bmod (2 ^ 32))
/-- A number modulo 2^64. -/
def dword (x : Int) : Dword := BitVec.ofInt 64 x

/-- The number `n` bytes of memory make in a byte order: big-endian, the byte at the lowest address is the most
significant (20_memory.md rule R252). -/
def numberAt (big : Bool) (m : List Host.Cell) (a : Nat) : Nat → Nat
  | 0 => 0
  | n + 1 =>
    if big then numberAt big m a n * 256 + (Memory.read m (a + n)).toNat
    else (Memory.read m (a + n)).toNat * 256 ^ n + numberAt big m a n

/-! ## Frames -/

/-- Every general register reads the same. -/
def KeepsGpr (s t : State) : Prop := ∀ q, readGpr t q = readGpr s q
/-- Every general register but `d` reads the same. -/
def KeepsGprBut (d : RegNum) (s t : State) : Prop := ∀ q, q ≠ d → readGpr t q = readGpr s q
/-- `HI` and `LO` are the same. -/
def KeepsHiLo (s t : State) : Prop := t.hi = s.hi ∧ t.lo = s.lo
/-- The CP0 registers and the JTLB are the same. -/
def KeepsControl (s t : State) : Prop := t.cp0 = s.cp0 ∧ t.tlb = s.tlb
/-- The remaining state outside memory is the same: the Interrupt register, pins, the timer latch, Standby, the bus,
the caches, the parameters, the errors to be reported and the events to come. -/
def KeepsRest (s t : State) : Prop :=
  t.intReg = s.intReg ∧ t.intPin = s.intPin ∧ t.nmiPin = s.nmiPin ∧ t.nmiLevel = s.nmiLevel ∧
    t.timerPending = s.timerPending ∧ t.standby = s.standby ∧ t.busIdle = s.busIdle ∧ t.caches = s.caches ∧
    t.params = s.params ∧ t.pendingErrors = s.pendingErrors ∧ t.events = s.events
/-- Every byte of memory reads the same. -/
def KeepsMem (s t : State) : Prop := ∀ a, Memory.read t.mem a = Memory.read s.mem a
/-- Every byte of memory outside the `n` bytes from `a` reads the same. -/
def KeepsMemBut (a n : Nat) (s t : State) : Prop :=
  ∀ b, ¬(a ≤ b ∧ b < a + n) → Memory.read t.mem b = Memory.read s.mem b
/-- The next instruction follows: sequential, or the target of the branch whose slot this is
(45_jump_branch.md rule R560). -/
def Continues (s t : State) : Prop :=
  t.pc = (if s.inDelaySlot then s.branchTarget else s.pc + 4) ∧ t.inDelaySlot = false

/-- Nothing outside the general registers and `pc` changes. -/
def OnlyGpr (d : RegNum) (s t : State) : Prop :=
  KeepsGprBut d s t ∧ KeepsHiLo s t ∧ t.fpu = s.fpu ∧ KeepsControl s t ∧ t.llBit = s.llBit ∧ KeepsRest s t ∧
    KeepsMem s t ∧ Continues s t
/-- Nothing but `HI`, `LO` and `pc` changes. -/
def OnlyHiLo (s t : State) : Prop :=
  KeepsGpr s t ∧ t.fpu = s.fpu ∧ KeepsControl s t ∧ t.llBit = s.llBit ∧ KeepsRest s t ∧ KeepsMem s t ∧ Continues s t
/-- Nothing but the floating-point unit and `pc` changes. -/
def OnlyFpu (s t : State) : Prop :=
  KeepsGpr s t ∧ KeepsHiLo s t ∧ KeepsControl s t ∧ t.llBit = s.llBit ∧ KeepsRest s t ∧ KeepsMem s t ∧ Continues s t
/-- Nothing but `pc` changes. -/
def OnlyPc (s t : State) : Prop :=
  KeepsGpr s t ∧ KeepsHiLo s t ∧ t.fpu = s.fpu ∧ KeepsControl s t ∧ t.llBit = s.llBit ∧ KeepsRest s t ∧ KeepsMem s t ∧
    Continues s t
/-- Nothing but the `n` bytes of memory from `a` and `pc` changes. -/
def OnlyMem (a n : Nat) (s t : State) : Prop :=
  KeepsGpr s t ∧ KeepsHiLo s t ∧ t.fpu = s.fpu ∧ KeepsControl s t ∧ t.llBit = s.llBit ∧ KeepsRest s t ∧
    KeepsMemBut a n s t ∧ Continues s t
/-- Nothing but the CP0 registers and `pc` changes. -/
def OnlyCp0 (s t : State) : Prop :=
  KeepsGpr s t ∧ KeepsHiLo s t ∧ t.fpu = s.fpu ∧ t.tlb = s.tlb ∧ t.llBit = s.llBit ∧ KeepsRest s t ∧ KeepsMem s t ∧
    Continues s t

/-- A general register holds a value, but for register 0, which is hard-wired to zero (10_state.md rule R40). -/
def Holds (t : State) (d : RegNum) (v : Dword) : Prop := readGpr t d = if d = 0 then 0 else v

/-! ## What an instruction does -/

/-- The answer of a step or a meaning is a next state. -/
def Completes (o : Out) : Prop := ∃ t, o = .next t
/-- The instruction completes in a state that satisfies `P`. -/
def Does (i : Instr) (s : State) (P : State → Prop) : Prop := ∃ t, exec i s = .next t ∧ P t
/-- The instruction writes `v` to `GPR[d]` and changes nothing else. -/
def Gives (i : Instr) (s : State) (d : RegNum) (v : Dword) : Prop := Does i s (fun t => Holds t d v ∧ OnlyGpr d s t)
/-- The instruction writes some value to `GPR[d]` and changes nothing else; under `ok` the value is `v`. -/
def GivesIf (i : Instr) (s : State) (d : RegNum) (ok : Prop) (v : Dword) : Prop :=
  Does i s (fun t => (ok → Holds t d v) ∧ OnlyGpr d s t)
/-- The instruction writes `HI`, `LO` and changes nothing else; under `ok` the values are `hi`, `lo`. -/
def GivesHiLo (i : Instr) (s : State) (ok : Prop) (hi lo : Dword) : Prop :=
  Does i s (fun t => (ok → t.hi = hi ∧ t.lo = lo) ∧ OnlyHiLo s t)
/-- The instruction raises an exception. -/
def Raises (i : Instr) (s : State) (e : Exc) : Prop := exec i s = .next (takeException e s)

/-! ## Exceptions -/

/-- What the general exception sequence does (60_exceptions.md rule R790), the exception's own registers aside:
`code` is stored, the handler is at `offset` from the vector base when `EXL` was 0 and at 0x180 when it was 1. -/
structure TakesGeneral (code : BitVec 5) (offset : Dword) (s t : State) : Prop where
  status : t.cp0.status = { s.cp0.status with exl := true }
  excCode : t.cp0.cause.excCode = code
  pc : t.pc = (if s.cp0.status.bev then 0xFFFFFFFFBFC00200 else 0xFFFFFFFF80000000) +
    (if s.cp0.status.exl then 0x180 else offset)
  slot : t.inDelaySlot = false
  fresh : s.cp0.status.exl = false →
    t.cp0.epc = (if s.inDelaySlot then s.pc - 4 else s.pc) ∧ t.cp0.cause.bd = s.inDelaySlot
  nested : s.cp0.status.exl = true → t.cp0.epc = s.cp0.epc ∧ t.cp0.cause.bd = s.cp0.cause.bd
  software : t.cp0.cause.iv = s.cp0.cause.iv ∧ t.cp0.cause.ip1 = s.cp0.cause.ip1 ∧ t.cp0.cause.ip0 = s.cp0.cause.ip0
  gpr : KeepsGpr s t
  hilo : KeepsHiLo s t
  fpu : t.fpu = s.fpu
  tlb : t.tlb = s.tlb
  link : t.llBit = s.llBit
  rest : KeepsRest s t
  mem : KeepsMem s t
  others : t.cp0.index = s.cp0.index ∧ t.cp0.random = s.cp0.random ∧ t.cp0.pageMask = s.cp0.pageMask ∧ t.cp0.wired = s.cp0.wired ∧
    t.cp0.count = s.cp0.count ∧ t.cp0.compare = s.cp0.compare ∧ t.cp0.config = s.cp0.config ∧
    t.cp0.llAddr = s.cp0.llAddr ∧ t.cp0.watch1 = s.cp0.watch1 ∧ t.cp0.watch2 = s.cp0.watch2 ∧
    t.cp0.perfControl = s.cp0.perfControl ∧ t.cp0.watchMask = s.cp0.watchMask ∧ t.cp0.perfCount = s.cp0.perfCount ∧
    t.cp0.ecc = s.cp0.ecc ∧ t.cp0.tagLo = s.cp0.tagLo ∧ t.cp0.tagHi = s.cp0.tagHi ∧
    t.cp0.errorEpc = s.cp0.errorEpc ∧ t.cp0.iplLo = s.cp0.iplLo ∧ t.cp0.iplHi = s.cp0.iplHi ∧
    t.cp0.intControl = s.cp0.intControl ∧ t.cp0.dErrAddr0 = s.cp0.dErrAddr0 ∧ t.cp0.dErrAddr1 = s.cp0.dErrAddr1

/-- The registers that an exception with a failing address loads or leaves undefined are the same. -/
def KeepsFaultAddress (s t : State) : Prop :=
  t.cp0.badVAddr = s.cp0.badVAddr ∧ t.cp0.entryHi = s.cp0.entryHi ∧ t.cp0.context = s.cp0.context ∧
    t.cp0.xcontext = s.cp0.xcontext ∧ t.cp0.entryLo0 = s.cp0.entryLo0 ∧ t.cp0.entryLo1 = s.cp0.entryLo1

/-- The instruction traps with an exception code when a condition holds, and else does nothing
(46_special_trap.md rule R604). -/
def TrapsWhen (i : Instr) (s : State) (c : Prop) : Prop :=
  (c → Does i s (fun t => TakesGeneral 13 0x180 s t ∧ KeepsFaultAddress s t)) ∧ (¬c → Does i s (OnlyPc s))

/-- The instruction moves `v` to `GPR[d]` when a condition holds, and else writes nothing (47_mips4_additions.md rule
R631). -/
def MovesWhen (i : Instr) (s : State) (c : Prop) (d : RegNum) (v : Dword) : Prop :=
  (c → Gives i s d v) ∧ (¬c → Does i s (OnlyPc s))

/-- An entry to the reset vector that saves the restart address (60_exceptions.md rules R780, R781). -/
def EntersResetVector (s t : State) : Prop :=
  t.pc = 0xFFFFFFFFBFC00000 ∧ t.inDelaySlot = false ∧ t.standby = false ∧
    t.cp0 = { s.cp0 with errorEpc := (if s.inDelaySlot then s.pc - 4 else s.pc), status := { s.cp0.status with bev := true, sr := true, erl := true } }

/-! ## Accesses -/

/-- An access with this attribute goes to the byte array: the caches are transparent (20_memory.md rule R290(a)) or the
attribute is one of the uncached ones (rules R265, R267). -/
def Direct (s : State) (attr : BitVec 3) : Prop := s.params.explicitCaches = false ∨ attr = 2 ∨ attr = 6

/-- A load of `n` bytes at `va` reaches readable memory at `pa`: aligned, translated, no Watch match. -/
def LoadReaches (n : Nat) (va : Dword) (s : State) (pa : PAddr) (attr : BitVec 3) : Prop :=
  translateAligned .load n va s = .ok (pa, attr) ∧ (regionKind s pa = .ram ∨ regionKind s pa = .rom) ∧
    watchMatch s .load pa n = (false, false)

/-- A store of `n` bytes at `va` reaches memory at `pa` that is no device: aligned, translated, no Watch match. -/
def StoreReaches (n : Nat) (va : Dword) (s : State) (pa : PAddr) (attr : BitVec 3) : Prop :=
  translateAligned .store n va s = .ok (pa, attr) ∧ regionKind s pa ≠ .device ∧
    watchMatch s .store pa n = (false, false)

/-- The caches are transparent (20_memory.md rule R290(a)). -/
def Transparent (s : State) : Prop := s.params.explicitCaches = false

/-- How many bytes a "left" form accesses (43_load_store.md rule R429). -/
def leftBytes (big : Bool) (n : Nat) (va : Dword) : Nat := if big then n - va.toNat % n else va.toNat % n + 1
/-- The first byte a "left" form accesses: from the address up to the end of its unit, big-endian. -/
def leftFirst (big : Bool) (n : Nat) (va : Dword) (pa : PAddr) : Nat :=
  if big then pa.toNat else pa.toNat - va.toNat % n
/-- How many bytes a "right" form accesses (rule R429). -/
def rightBytes (big : Bool) (n : Nat) (va : Dword) : Nat := if big then va.toNat % n + 1 else n - va.toNat % n
/-- The first byte a "right" form accesses: the start of the unit, big-endian. -/
def rightFirst (big : Bool) (n : Nat) (va : Dword) (pa : PAddr) : Nat :=
  if big then pa.toNat - va.toNat % n else pa.toNat

/-- A data access: its alignment, its virtual address, where its bytes begin for a translated address, how many they
are, whether the link bit decides if it happens, and the enabling tests of its instruction. -/
structure Access where
  align : Nat
  va : Dword
  first : PAddr → PAddr
  count : Nat
  linked : Bool
  ready : Prop

/-- An aligned access of `n` bytes. -/
def alignedAccess (n : Nat) (va : Dword) (linked : Bool) (ready : Prop) : Access :=
  { align := n, va := va, first := id, count := n, linked := linked, ready := ready }

/-- The "left" part of a unit of `n` bytes (43_load_store.md rule R429). -/
def leftAccess (s : State) (n : Nat) (va : Dword) (ready : Prop) : Access :=
  { align := 1, va := va, first := fun pa => BitVec.ofNat 36 (leftFirst (bigEndianCpu s) n va pa)
    count := leftBytes (bigEndianCpu s) n va, linked := false, ready := ready }

/-- The "right" part of a unit of `n` bytes (rule R429). -/
def rightAccess (s : State) (n : Nat) (va : Dword) (ready : Prop) : Access :=
  { align := 1, va := va, first := fun pa => BitVec.ofNat 36 (rightFirst (bigEndianCpu s) n va pa)
    count := rightBytes (bigEndianCpu s) n va, linked := false, ready := ready }

/-- The registers an operation names are even, as they must be with `FR` = 0 (48_fpu.md rule R662). -/
def EvenRegs (s : State) (regs : List RegNum) : Prop := s.status.fr = true ∨ ∀ r ∈ regs, r.toNat % 2 = 0

/-- An indexed access may execute and stays in the region of its base (48_fpu.md rules R661, R684). -/
def IndexedReady (s : State) (b x : RegNum) : Prop :=
  isMips4 s = true ∧ s.status.cu1 = true ∧ uval s b / 2 ^ 62 = (indexAddr s b x).toNat / 2 ^ 62

/-- The loads (43_load_store.md rules R414 to R420, R430, R431, R434, R435, R440, R441; 48_fpu.md rules R680, R681, R684,
R685). -/
def loadForm (s : State) : Instr → Option Access
  | .lb b _ o => some (alignedAccess 1 (effAddr s b o) false True)
  | .lbu b _ o => some (alignedAccess 1 (effAddr s b o) false True)
  | .lh b _ o => some (alignedAccess 2 (effAddr s b o) false True)
  | .lhu b _ o => some (alignedAccess 2 (effAddr s b o) false True)
  | .lw b _ o => some (alignedAccess 4 (effAddr s b o) false True)
  | .lwu b _ o => some (alignedAccess 4 (effAddr s b o) false (is64 s = true))
  | .ld b _ o => some (alignedAccess 8 (effAddr s b o) false (is64 s = true))
  | .ll b _ o => some (alignedAccess 4 (effAddr s b o) false True)
  | .lld b _ o => some (alignedAccess 8 (effAddr s b o) false (is64 s = true))
  | .lwl b _ o => some (leftAccess s 4 (effAddr s b o) True)
  | .lwr b _ o => some (rightAccess s 4 (effAddr s b o) True)
  | .ldl b _ o => some (leftAccess s 8 (effAddr s b o) (is64 s = true))
  | .ldr b _ o => some (rightAccess s 8 (effAddr s b o) (is64 s = true))
  | .lwc1 b _ o => some (alignedAccess 4 (effAddr s b o) false (s.status.cu1 = true))
  | .ldc1 b f o => some (alignedAccess 8 (effAddr s b o) false (s.status.cu1 = true ∧ EvenRegs s [f]))
  | .lwxc1 b x _ => some (alignedAccess 4 (indexAddr s b x) false (IndexedReady s b x))
  | .ldxc1 b x f => some (alignedAccess 8 (indexAddr s b x) false (IndexedReady s b x ∧ EvenRegs s [f]))
  | _ => none

/-- The stores (43_load_store.md rules R421 to R424, R432, R433, R436, R437, R442, R443; 48_fpu.md rules R682, R683, R686,
R687). -/
def storeForm (s : State) : Instr → Option Access
  | .sb b _ o => some (alignedAccess 1 (effAddr s b o) false True)
  | .sh b _ o => some (alignedAccess 2 (effAddr s b o) false True)
  | .sw b _ o => some (alignedAccess 4 (effAddr s b o) false True)
  | .sd b _ o => some (alignedAccess 8 (effAddr s b o) false (is64 s = true))
  | .sc b _ o => some (alignedAccess 4 (effAddr s b o) true True)
  | .scd b _ o => some (alignedAccess 8 (effAddr s b o) true (is64 s = true))
  | .swl b _ o => some (leftAccess s 4 (effAddr s b o) True)
  | .swr b _ o => some (rightAccess s 4 (effAddr s b o) True)
  | .sdl b _ o => some (leftAccess s 8 (effAddr s b o) (is64 s = true))
  | .sdr b _ o => some (rightAccess s 8 (effAddr s b o) (is64 s = true))
  | .swc1 b _ o => some (alignedAccess 4 (effAddr s b o) false (s.status.cu1 = true))
  | .sdc1 b f o => some (alignedAccess 8 (effAddr s b o) false (s.status.cu1 = true ∧ EvenRegs s [f]))
  | .swxc1 b x _ => some (alignedAccess 4 (indexAddr s b x) false (IndexedReady s b x))
  | .sdxc1 b x f => some (alignedAccess 8 (indexAddr s b x) false (IndexedReady s b x ∧ EvenRegs s [f]))
  | _ => none

/-- An unaligned load of `cnt` bytes from `first` reaches readable memory. -/
def LoadsPart (va : Dword) (first cnt : Nat) (s : State) (pa : PAddr) (attr : BitVec 3) : Prop :=
  Machine.translate .load va s = .ok (pa, attr) ∧
    (regionKind s (BitVec.ofNat 36 first) = .ram ∨ regionKind s (BitVec.ofNat 36 first) = .rom) ∧
    watchMatch s .load (BitVec.ofNat 36 first) cnt = (false, false)

/-- An unaligned store of `cnt` bytes from `first` reaches memory that is no device. -/
def StoresPart (va : Dword) (first cnt : Nat) (s : State) (pa : PAddr) (attr : BitVec 3) : Prop :=
  Machine.translate .store va s = .ok (pa, attr) ∧ regionKind s (BitVec.ofNat 36 first) ≠ .device ∧
    watchMatch s .store (BitVec.ofNat 36 first) cnt = (false, false)

/-- A `CACHE` operation may execute and its address translates (41_cache_instruction.md rules R380, R381);
`userForm` marks the operations `Status.CO` opens. -/
def CacheReaches (userForm : Bool) (base : RegNum) (offset : BitVec 16) (s : State) (pa : PAddr) (attr : BitVec 3) : Prop :=
  (cp0Usable s = true ∨ (userForm = true ∧ s.status.co = true)) ∧
    Machine.translate .load (effAddr s base offset) s = .ok (pa, attr)

/-! ## The explicit cache level (20_memory.md rule R290(b)) -/

/-- The caches are explicit and an access with this attribute goes through them. -/
def ThroughCaches (s : State) (attr : BitVec 3) : Prop := s.params.explicitCaches = true ∧ attr ≠ 2 ∧ attr ≠ 6

/-- Byte `j` of a line. -/
def lineByte (x : BitVec 256) (j : Nat) : Byte := x.extractLsb' (8 * j) 8

/-- The number `n` bytes of a line from an offset make in a byte order (20_memory.md rule R252). -/
def lineNumber (big : Bool) (x : BitVec 256) (off : Nat) : Nat → Nat
  | 0 => 0
  | n + 1 =>
    if big then lineNumber big x off n * 256 + (lineByte x (off + n)).toNat
    else (lineByte x (off + n)).toNat * 256 ^ n + lineNumber big x off n

/-- An access of `n` bytes is translated, unwatched, and goes through the caches. -/
def AccessCached (kind : AccessKind) (n : Nat) (va : Dword) (s : State) (pa : PAddr) (attr : BitVec 3) : Prop :=
  ThroughCaches s attr ∧ translateAligned kind n va s = .ok (pa, attr) ∧ watchMatch s kind pa n = (false, false)

/-- An access to `cnt` bytes from `first`, a part of the unit at `va`, is translated, unwatched, and goes through the
caches. -/
def PartCached (kind : AccessKind) (va : Dword) (first cnt : Nat) (s : State) (pa : PAddr) (attr : BitVec 3) : Prop :=
  ThroughCaches s attr ∧ Machine.translate kind va s = .ok (pa, attr) ∧
    watchMatch s kind (BitVec.ofNat 36 first) cnt = (false, false)

/-- No way the line of an address can go to holds modified data. -/
def CleanWays (s : State) (pa : PAddr) : Prop := ∀ k ∈ primaryWays pa, (dLine s k).w = false

/-- A fill of the data cache reads main memory: by its attribute, or since no other cache is in use (20_memory.md rules
R263, R264, R266, R268). -/
def FillsFromMemory (s : State) (attr : BitVec 3) : Prop :=
  attr = 0 ∨ attr = 1 ∨ attr = 7 ∨ (attr = 3 ∧ secondaryOn s = false ∧ tertiaryOn s = false)

/-- A miss that fills a line from readable memory over an unmodified line. -/
def MissesCleanly (s : State) (pa : PAddr) (attr : BitVec 3) : Prop :=
  lookupD s pa = .ok none ∧ FillsFromMemory s attr ∧ (regionKind s pa = .ram ∨ regionKind s pa = .rom) ∧ CleanWays s pa

/-- Nothing but data-cache line `k` changes in the caches. -/
def OnlyLineD (k : Nat) (s t : State) : Prop :=
  (∀ j, j ≠ k → dLine t j = dLine s j) ∧ { t.caches with dcache := s.caches.dcache } = s.caches
/-- Nothing but instruction-cache line `k` changes in the caches. -/
def OnlyLineI (k : Nat) (s t : State) : Prop :=
  (∀ j, j ≠ k → iLine t j = iLine s j) ∧ { t.caches with icache := s.caches.icache } = s.caches
/-- Nothing but secondary line `k` changes in the caches. -/
def OnlyLineS (k : Nat) (s t : State) : Prop :=
  (∀ j, j ≠ k → sLine t j = sLine s j) ∧ { t.caches with scache := s.caches.scache } = s.caches
/-- Nothing but tertiary line `k` changes in the caches. -/
def OnlyLineT (k : Nat) (s t : State) : Prop :=
  (∀ j, j ≠ k → tLine t j = tLine s j) ∧ { t.caches with tcache := s.caches.tcache } = s.caches

/-- A valid data-cache line for an address, with its `W` bit, and nothing else in the caches changed. -/
def HoldsLineD (pa : PAddr) (w : Bool) (s t : State) (k : Nat) : Prop :=
  k ∈ primaryWays pa ∧ OnlyLineD k s t ∧ (dLine t k).tag = pa.extractLsb' 12 24 ∧ (dLine t k).state = 3 ∧ (dLine t k).w = w

/-- A data-cache line is filled with the bytes memory holds, unmodified, and nothing else in the caches changed. -/
def LineFilled (pa : PAddr) (s t : State) : Prop :=
  ∃ k, HoldsLineD pa false s t k ∧
    ∀ j, j < 32 → lineByte (dLine t k).data j = Memory.read s.mem (pa.toNat / 32 * 32 + j)

/-- The data-cache line of a store that hits: its bytes, `W` set by a write-back, the rest of the line as it was. -/
def LineStored (s t : State) (k : Nat) (pa : PAddr) (n v : Nat) (dirty : Bool) : Prop :=
  OnlyLineD k s t ∧ lineNumber (bigEndianCpu s) (dLine t k).data (pa.toNat % 32) n = v % 256 ^ n ∧
    (∀ j, j < 32 → ¬(pa.toNat % 32 ≤ j ∧ j < pa.toNat % 32 + n) →
      lineByte (dLine t k).data j = lineByte (dLine s k).data j) ∧
    (dLine t k).tag = (dLine s k).tag ∧ (dLine t k).state = (dLine s k).state ∧
    (dLine t k).w = ((dLine s k).w || dirty)

/-- Nothing outside the caches and memory changes but `pc`. -/
def OnlyMemSystem (s t : State) : Prop :=
  KeepsGpr s t ∧ KeepsHiLo s t ∧ t.fpu = s.fpu ∧ KeepsControl s t ∧ t.llBit = s.llBit ∧
    KeepsRest s { t with caches := s.caches } ∧ Continues s t

/-- Nothing outside the caches and memory changes but `pc` and one general register. -/
def OnlyGprAndCaches (d : RegNum) (s t : State) : Prop :=
  KeepsGprBut d s t ∧ KeepsHiLo s t ∧ t.fpu = s.fpu ∧ KeepsControl s t ∧ t.llBit = s.llBit ∧
    KeepsRest s { t with caches := s.caches } ∧ KeepsMem s t ∧ Continues s t

/-- Nothing outside the caches and memory changes but `pc` and one general register, which holds `v`. -/
def GprAndMemSystem (d : RegNum) (v : Dword) (s t : State) : Prop :=
  Holds t d v ∧ KeepsGprBut d s t ∧ KeepsHiLo s t ∧ t.fpu = s.fpu ∧ KeepsControl s t ∧ t.llBit = s.llBit ∧
    KeepsRest s { t with caches := s.caches } ∧ Continues s t

/-- The `n` bytes of memory from `a` hold the low bytes of `v` if they are RAM, and no other byte changes. -/
def MemoryStored (s t : State) (pa : PAddr) (n v : Nat) : Prop :=
  KeepsMemBut pa.toNat n s t ∧
    (regionKind s pa = .ram → Memory.wf s.mem = true → numberAt (bigEndianCpu s) t.mem pa.toNat n = v % 256 ^ n) ∧
    (regionKind s pa ≠ .ram → KeepsMem s t)

/-- A store of `n` bytes from `pa` through the explicit caches (20_memory.md rules R263, R264, R266, R268): a hit writes
the line and, written through, memory; a miss without allocation writes memory only; a miss with allocation also fills the
line. `frame` says what else the next state holds. -/
def StoresThrough (i : Instr) (s : State) (frame : State → Prop) (pa : PAddr) (attr : BitVec 3) (n v : Nat) : Prop :=
  (∀ k, lookupD s pa = .ok (some k) →
    (attr = 3 ∨ attr = 7 → Does i s (fun t => frame t ∧ LineStored s t k pa n v true ∧ KeepsMem s t)) ∧
    (attr = 0 ∨ attr = 1 → regionKind s pa ≠ .device →
      Does i s (fun t => frame t ∧ LineStored s t k pa n v false ∧ MemoryStored s t pa n v))) ∧
  (lookupD s pa = .ok none → attr = 0 → regionKind s pa ≠ .device →
    Does i s (fun t => frame t ∧ t.caches = s.caches ∧ MemoryStored s t pa n v)) ∧
  (MissesCleanly s pa attr →
    (attr = 1 → Does i s (fun t => frame t ∧ MemoryStored s t pa n v ∧ ∃ k, HoldsLineD pa false s t k ∧
      ∀ j, j < 32 → lineByte (dLine t k).data j = Memory.read t.mem (pa.toNat / 32 * 32 + j))) ∧
    (attr = 3 ∨ attr = 7 → Does i s (fun t => frame t ∧ KeepsMem s t ∧ ∃ k, HoldsLineD pa true s t k ∧
      lineNumber (bigEndianCpu s) (dLine t k).data (pa.toNat % 32) n = v % 256 ^ n ∧
      ∀ j, j < 32 → ¬(pa.toNat % 32 ≤ j ∧ j < pa.toNat % 32 + n) →
        lineByte (dLine t k).data j = Memory.read s.mem (pa.toNat / 32 * 32 + j))))

/-- An aligned store of `n` bytes through the explicit caches. -/
def StoresCached (i : Instr) (s : State) (va : Dword) (pa : PAddr) (attr : BitVec 3) (n v : Nat) : Prop :=
  AccessCached .store n va s pa attr → StoresThrough i s (OnlyMemSystem s) pa attr n v

/-! ## `CACHE` -/

/-- What every `CACHE` operation leaves alone, but for memory, the CP0 registers and the caches; the link breaks if the
platform says so (60_exceptions.md rule R860). -/
def CacheFrame (s t : State) : Prop :=
  KeepsGpr s t ∧ KeepsHiLo s t ∧ t.fpu = s.fpu ∧ t.tlb = s.tlb ∧ KeepsRest s t ∧ Continues s t ∧
    t.llBit = (s.llBit && !s.params.llBreak.contains .cacheOp)

/-- Every byte of memory reads as before, or, if `p` selects it, as a value recorded as not yet written back
(41_cache_instruction.md rule R398). -/
def LosesOnlyStale (p : Nat → Prop) (s t : State) : Prop :=
  ∀ a, Memory.read t.mem a = Memory.read s.mem a ∨ (p a ∧ ∃ b, (a, b) ∈ s.stale ∧ Memory.read t.mem a = b)

/-- The 32 bytes of memory at a line's address hold the line's data, and no other byte changes. -/
def LineWritten (s t : State) (a : PAddr) (x : BitVec 256) : Prop :=
  KeepsMemBut (a.toNat / 32 * 32) 32 s t ∧
    ∀ j, j < 32 → Memory.read t.mem (a.toNat / 32 * 32 + j) = lineByte x j

/-- Nothing changes in the caches but secondary line `k`, data-cache line `d` if one is named, and tertiary lines. -/
def CachesBut (d : Option Nat) (k : Nat) (s t : State) : Prop :=
  (∀ i, d ≠ some i → dLine t i = dLine s i) ∧ (∀ i, i ≠ k → sLine t i = sLine s i) ∧
    { t.caches with dcache := s.caches.dcache, scache := s.caches.scache, tcache := s.caches.tcache } = s.caches

/-- A line goes to main memory, and to the tertiary cache where that is enabled and holds it (20_memory.md rule R261;
41_cache_instruction.md rule R385). -/
def SentBelow (a : PAddr) (x : BitVec 256) (s t : State) : Prop :=
  LineWritten s t a x ∧
    ∀ q, (tertiaryOn s = true → lookupT s a = .ok (some q) → (tLine t q).data = x ∧
        (tLine t q).tag = (tLine s q).tag ∧ (tLine t q).state = (tLine s q).state) ∧
      (tertiaryOn s = false ∨ lookupT s a ≠ .ok (some q) → tLine t q = tLine s q)

/-- Nothing below the secondary cache changes. -/
def NothingSent (s t : State) : Prop := KeepsMem s t ∧ ∀ q, tLine t q = tLine s q

/-- The data-cache line that holds modified data, of one that a lookup finds. -/
def modifiedLine (s : State) (found : Option Nat) : Option Nat := found.filter (fun d => (dLine s d).w)

/-- The newest data of secondary line `k`: that of the data cache where it is modified (41_cache_instruction.md rule
R385). -/
def newestData (s : State) (k : Nat) (found : Option Nat) : BitVec 256 :=
  match modifiedLine s found with
  | some d => (dLine s d).data
  | none => (sLine s k).data

/-! ## CP0 moves (40_cp0_instructions.md) -/

/-- The bits of a set 0 register that a move to it changes (10_state.md rules R121 to R151). -/
def cp0Mask (n : RegNum) : Dword :=
  match n.toNat with
  | 0 => 0x3F
  | 2 => 0x3FFFFFFF
  | 3 => 0x3FFFFFFF
  | 4 => 0xFFFFFFFFFF800000
  | 5 => 0x01FFE000
  | 6 => 0x3F
  | 9 => 0xFFFFFFFF
  | 10 => 0xC00000FFFFFFE0FF
  | 11 => 0xFFFFFFFF
  | 12 => 0xFE57FFFF
  | 13 => 0x07000300
  | 14 => 0xFFFFFFFFFFFFFFFF
  | 16 => 0x100F
  | 17 => 0xFFFFFFFF
  | 18 => 0xE000000FFFFFFFFC
  | 19 => 0xE000000FFFFFFFFC
  | 20 => 0xFFFFFFFE00000000
  | 22 => 0x71F
  | 24 => 0xFFFFFFFF
  | 25 => 0xFFFFFFFF
  | 26 => 0x1E0000FF
  | 28 => 0xFFFFFFFF
  | 29 => 0xFFFFFFFF
  | 30 => 0xFFFFFFFFFFFFFFFF
  | _ => 0

/-- The bits of a set 1 register that a move to it changes (10_state.md rules R160 to R165). -/
def cp0ControlMask (n : RegNum) : Word :=
  match n.toNat with
  | 18 => 0xFFFFFFFF
  | 19 => 0x00FFFFFF
  | 20 => 0x0000FF9F
  | _ => 0

/-- The registers that read differently after a move to another one: `Random` after `Wired`, `Status` after `Info`,
`Cause` after `Compare` and after `PerfCount`. -/
def readsAlong (n q : RegNum) : Bool :=
  (n == 6 && q == 1) || (n == 7 && q == 12) || (n == 11 && q == 13) || (n == 25 && q == 13)

/-- `CPR[0, n]` receives `v` through its mask; the side effects are those of rule R364; nothing else changes. -/
def Cp0Written (n : RegNum) (v : Dword) (s t : State) : Prop :=
  (∀ old, readCp0 s n = some old → readCp0 t n = some ((old &&& ~~~(cp0Mask n)) ||| (v &&& cp0Mask n))) ∧
    (∀ q, q ≠ n → readsAlong n q = false → readCp0 t q = readCp0 s q) ∧
    (∀ q, readCp0Control t q = readCp0Control s q) ∧
    (n = 6 → t.cp0.random = tlbTop s) ∧
    (n = 7 → t.cp0.status = (if 0x20 ≤ s.params.rev.toNat then { s.cp0.status with ie := v.getLsbD 0 } else s.cp0.status)) ∧
    t.timerPending = (if n = 11 then false else s.timerPending) ∧
    (n ≠ 12 ∨ v.getLsbD 26 = s.cp0.status.fr → t.fpu = s.fpu) ∧
    (n ≠ 16 ∨ v.getLsbD 12 = false ∨ s.cp0.config.te = true → t.caches = s.caches) ∧
    KeepsGpr s t ∧ KeepsHiLo s t ∧ t.tlb = s.tlb ∧ t.llBit = s.llBit ∧ KeepsMem s t ∧ Continues s t ∧
    t.intReg = s.intReg ∧ t.intPin = s.intPin ∧ t.nmiPin = s.nmiPin ∧ t.nmiLevel = s.nmiLevel ∧ t.standby = s.standby ∧
    t.busIdle = s.busIdle ∧ t.params = s.params ∧ t.pendingErrors = s.pendingErrors ∧ t.events = s.events ∧
    t.fpu.fcr31 = s.fpu.fcr31

/-- Nothing but one JTLB entry and `pc` changes. -/
def OnlyTlbEntry (i : Fin 64) (e : TlbEntry) (s t : State) : Prop :=
  t.tlb = s.tlb.set i.val e i.isLt ∧ t.cp0 = s.cp0 ∧ KeepsGpr s t ∧ KeepsHiLo s t ∧ t.fpu = s.fpu ∧ t.llBit = s.llBit ∧
    KeepsRest s t ∧ KeepsMem s t ∧ Continues s t

/-- The instruction stores the low `n` bytes of `v` at `pa` in the processor's byte order and changes nothing else; only
RAM keeps what is written (20_memory.md rules R251, R259). -/
def Stores (i : Instr) (s : State) (pa : PAddr) (n : Nat) (v : Nat) : Prop :=
  Does i s (fun t => OnlyMem pa.toNat n s t ∧
    (regionKind s pa = .ram → Memory.wf s.mem = true → numberAt (bigEndianCpu s) t.mem pa.toNat n = v % 256 ^ n) ∧
    (regionKind s pa ≠ .ram → KeepsMem s t))

/-! ## Jumps and branches (45_jump_branch.md) -/

/-- The delay slot comes next, and after it `target`. -/
def EntersSlot (target : Dword) (s t : State) : Prop := t.pc = s.pc + 4 ∧ t.inDelaySlot = true ∧ t.branchTarget = target

/-- Nothing but the link register, if there is one, and the program counter changes. -/
def OnlyLink (link : Option RegNum) (s t : State) : Prop :=
  (match link with
    | some r => Holds t r (s.pc + 8) ∧ KeepsGprBut r s t
    | none => KeepsGpr s t) ∧
    KeepsHiLo s t ∧ t.fpu = s.fpu ∧ KeepsControl s t ∧ t.llBit = s.llBit ∧ KeepsRest s t ∧ KeepsMem s t

/-- The target of a branch: the address of the slot plus four times the signed offset (rule R562). -/
def branchTo (s : State) (offset : BitVec 16) : Dword := s.pc + 4 + BitVec.ofInt 64 (offset.toInt * 4)

/-- An ordinary branch: the slot executes in both cases (rule R560). -/
def Branches (i : Instr) (s : State) (taken : Prop) (offset : BitVec 16) (link : Option RegNum) : Prop :=
  Does i s (fun t => OnlyLink link s t ∧ (taken → EntersSlot (branchTo s offset) s t) ∧
    (¬taken → EntersSlot (s.pc + 8) s t))

/-- A branch-likely: not taken, the slot is skipped (rule R560). -/
def BranchesLikely (i : Instr) (s : State) (taken : Prop) (offset : BitVec 16) (link : Option RegNum) : Prop :=
  Does i s (fun t => OnlyLink link s t ∧ (taken → EntersSlot (branchTo s offset) s t) ∧
    (¬taken → t.pc = s.pc + 8 ∧ t.inDelaySlot = false))

/-! ## The floating-point unit -/

/-- The value of a finite pattern; an infinity counts as the power of two above every finite value of its format
(48_fpu.md rule R663). Meaningless for a NaN. -/
def fpValue (f : FpFmt) (x : Dword) : Rat :=
  let e := x.toNat / 2 ^ f.fracBits % 2 ^ f.expBits
  let m := x.toNat % 2 ^ f.fracBits
  let v : Rat :=
    if e = 0 then (m : Rat) * (2 : Rat) ^ (f.emin - f.fracBits)
    else ((2 ^ f.fracBits + m : Nat) : Rat) * (2 : Rat) ^ ((e : Int) - f.bias - f.fracBits)
  if x.getLsbD f.signPos then -v else v

/-- A pattern of a normal number, with nothing above the format's bits. -/
def IsNormal (f : FpFmt) (x : Dword) : Prop :=
  x.toNat < 2 ^ (f.signPos + 1) ∧ ∃ neg m e, classify f x = .norm neg m e

/-- A pattern of an infinity. -/
def IsInf (f : FpFmt) (x : Dword) : Prop := ∃ neg, classify f x = .inf neg
/-- A pattern of a quiet NaN. -/
def IsQnan (f : FpFmt) (x : Dword) : Prop := ∃ neg, classify f x = .qnan neg
/-- A pattern of a signaling NaN. -/
def IsSnan (f : FpFmt) (x : Dword) : Prop := ∃ neg, classify f x = .snan neg
/-- A pattern of a NaN. -/
def IsNan (f : FpFmt) (x : Dword) : Prop := IsQnan f x ∨ IsSnan f x
/-- A pattern of a denormalized number. -/
def IsDenorm (f : FpFmt) (x : Dword) : Prop := ∃ neg m, classify f x = .denorm neg m
/-- The sign of a pattern. -/
def signOf (f : FpFmt) (x : Dword) : Bool := x.getLsbD f.signPos
/-- A pattern with the other sign. -/
def invertSign (f : FpFmt) (x : Dword) : Dword := x ^^^ (1#64 <<< f.signPos)

/-- A pattern of a zero. -/
def IsZero (f : FpFmt) (x : Dword) : Prop := x.toNat < 2 ^ (f.signPos + 1) ∧ ∃ neg, classify f x = .zero neg

/-- A pattern of a finite value, with nothing above the format's bits. -/
def IsFinite (f : FpFmt) (x : Dword) : Prop :=
  x.toNat < 2 ^ (f.signPos + 1) ∧ x.toNat / 2 ^ f.fracBits % 2 ^ f.expBits ≠ 2 ^ f.expBits - 1

/-- The real value of a pattern. -/
noncomputable def realValue (f : FpFmt) (x : Dword) : ℝ := ((fpValue f x : ℚ) : ℝ)

/-- A number of the precision of a format, its exponent unbounded, with `less` bits of the fraction 0. -/
def HasPrecision (f : FpFmt) (less : Nat) (r : ℝ) : Prop :=
  ∃ m e : Int, |m| < 2 ^ (f.fracBits + 1 - less) ∧ r = (m : ℝ) * (2 : ℝ) ^ e

/-- `Round(x, fmt, mode)` (48_fpu.md rule R666): the number of the format's precision, exponent unbounded, that is nearest
to `x`, a tie to the one whose last bit is 0; or nearest and not above in magnitude; not below; not above. -/
def IsRounded (f : FpFmt) (rm : BitVec 2) (x r : ℝ) : Prop :=
  HasPrecision f 0 r ∧
    (rm = 0 → ∀ u, HasPrecision f 0 u → |r - x| ≤ |u - x| ∧ (|u - x| = |r - x| → u ≠ r → HasPrecision f 1 r)) ∧
    (rm = 1 → 0 ≤ x * r ∧ |r| ≤ |x| ∧ ∀ u, HasPrecision f 0 u → |u| ≤ |x| → |u| ≤ |r|) ∧
    (rm = 2 → x ≤ r ∧ ∀ u, HasPrecision f 0 u → x ≤ u → r ≤ u) ∧
    (rm = 3 → r ≤ x ∧ ∀ u, HasPrecision f 0 u → u ≤ x → u ≤ r)

/-- The largest finite number of a format. -/
noncomputable def maxFinite (f : FpFmt) : ℝ := (2 - (2 : ℝ) ^ (-(f.fracBits : Int))) * (2 : ℝ) ^ f.bias

/-- A pattern given for each format, with a sign. -/
def signedPattern (f : FpFmt) (neg : Bool) (single double : Nat) : Dword :=
  match f with
  | .single => BitVec.ofNat 64 (single + if neg then 2 ^ 31 else 0)
  | .double => BitVec.ofNat 64 (double + if neg then 2 ^ 63 else 0)

/-- Signed infinity. -/
def infinityPattern (f : FpFmt) (neg : Bool) : Dword := signedPattern f neg 0x7F800000 0x7FF0000000000000
/-- Signed zero. -/
def zeroPattern (f : FpFmt) (neg : Bool) : Dword := signedPattern f neg 0 0

/-- The default result on overflow, Table 15.1 (rule R674). -/
def overflowDefault (f : FpFmt) (rm : BitVec 2) (neg : Bool) : Dword :=
  if rm = 0 ∨ (rm = 2 ∧ neg = false) ∨ (rm = 3 ∧ neg = true) then infinityPattern f neg
  else signedPattern f neg 0x7F7FFFFF 0x7FEFFFFFFFFFFFFF

/-- The flushed result on underflow, Table 15.1 (rule R675). -/
def underflowDefault (f : FpFmt) (rm : BitVec 2) (neg : Bool) : Dword :=
  if (rm = 2 ∧ neg = false) ∨ (rm = 3 ∧ neg = true) then signedPattern f neg 0x00800000 0x0010000000000000
  else zeroPattern f neg

/-- An operation with the exact result `x`, not 0, delivers it (rules R669 step 3, R671, R674, R675). Its rounding `r`
beyond the largest finite number is an Overflow with the default result; below the smallest normal number it is
Unimplemented, or flushed with Underflow; between, it is the result, Inexact exactly when rounding changed it or an
earlier step of the operation was inexact (`also`). -/
def DeliversRounded (c : Fcr31) (f : FpFmt) (x : ℝ) (also : Prop) (res : FpResult) : Prop :=
  ∃ r, IsRounded f c.rm x r ∧
    (maxFinite f < |r| → ∃ neg : Bool, (neg = true ↔ x < 0) ∧
      res = { unimpl := false, flags := { FpFlags.none with o := true, i := true }, value := overflowDefault f c.rm neg }) ∧
    (|r| < (2 : ℝ) ^ f.emin →
      (c.enables.u = true ∨ c.enables.i = true ∨ c.fs = false → res.unimpl = true ∧ res.flags = .none) ∧
      (c.enables.u = false → c.enables.i = false → c.fs = true → ∃ neg : Bool, (neg = true ↔ x < 0) ∧
        res = { unimpl := false, flags := { FpFlags.none with u := true, i := true }
                value := underflowDefault f c.rm neg })) ∧
    ((2 : ℝ) ^ f.emin ≤ |r| → |r| ≤ maxFinite f →
      IsFinite f res.value ∧ realValue f res.value = r ∧ res.unimpl = false ∧
        res.flags = { FpFlags.none with i := res.flags.i } ∧ (res.flags.i = true ↔ r ≠ x ∨ also))

/-- A rational number rounded to an integer in the mode `rm` (rule R666): nearest, a tie to even; toward zero; up;
down. -/
def roundedInt (rm : BitVec 2) (x : Rat) : Int :=
  if rm = 0 then
    (if x - x.floor < 1 / 2 then x.floor
     else if 1 / 2 < x - x.floor then x.floor + 1
     else if x.floor % 2 = 0 then x.floor else x.floor + 1)
  else if rm = 1 then (if 0 ≤ x then x.floor else x.ceil)
  else if rm = 2 then x.ceil
  else x.floor

/-- A Division by Zero: signed infinity (rule R673). -/
def divisionByZero (f : FpFmt) (neg : Bool) : FpResult :=
  { unimpl := false, flags := { FpFlags.none with z := true }, value := infinityPattern f neg }

/-- With `FS` = 1 a denormalized operand acts as the zero of its sign, in every operand place of every arithmetic operation
(rule R668 (a)). -/
def FlushesOperands (c : Fcr31) (f : FpFmt) (w a b d : Dword) : Prop :=
  c.fs = true → IsDenorm f a →
    let z := zeroPattern f (signOf f a)
    (∀ sub, fpAdd c f sub w a b = fpAdd c f sub w z b ∧ fpAdd c f sub w b a = fpAdd c f sub w b z) ∧
    fpMul c f w a b = fpMul c f w z b ∧ fpMul c f w b a = fpMul c f w b z ∧
    fpDiv c f w a b = fpDiv c f w z b ∧ fpDiv c f w b a = fpDiv c f w b z ∧
    fpSqrt c f w a = fpSqrt c f w z ∧ fpRecip c f w a = fpRecip c f w z ∧ fpRsqrt c f w a = fpRsqrt c f w z ∧
    (∀ negate, fpSignOp c f negate a = fpSignOp c f negate z) ∧
    (∀ sub negate, fpMadd c f sub negate w a b d = fpMadd c f sub negate w z b d ∧
      fpMadd c f sub negate w b a d = fpMadd c f sub negate w b z d ∧
      fpMadd c f sub negate w b d a = fpMadd c f sub negate w b d z)

/-- The special operands of `a * b + d`, or with `sub` of `a * b - d`, in the order of rule R710; a negated form inverts the
sign of a numeric result and may invert that of a NaN (step 8). A denormalized operand is one that `FS` does not
flush. -/
def MaddSpecial (c : Fcr31) (f : FpFmt) (sub : Bool) (w a b d : Dword) : Prop :=
  let r := fpMadd c f sub false w a b d
  let invalid := FpResult.invalid (genQnan f)
  let denorm (x : Dword) : Prop := IsDenorm f x ∧ c.fs = false
  let either (p q : Dword → Prop) : Prop := (p a ∧ q b) ∨ (q a ∧ p b)
  let product := xor (signOf f a) (signOf f b)
  let addend := xor (signOf f d) sub
  (IsSnan f a ∨ IsSnan f b → r = invalid) ∧
  (¬IsSnan f a → ¬IsSnan f b → IsQnan f a ∨ IsQnan f b → (IsSnan f d → r = invalid) ∧
    (¬IsSnan f d → ∃ q ∈ [a, b, d], IsQnan f q ∧ r = .exact q)) ∧
  (either (IsInf f) (IsZero f) → r = invalid) ∧
  (either (IsInf f) (fun x => IsInf f x ∨ IsNormal f x ∨ denorm x) →
    (IsSnan f d → r = invalid) ∧ (IsQnan f d → r = .exact d) ∧
    (IsInf f d → r = if addend = product then .exact (infinityPattern f product) else invalid) ∧
    (¬IsNan f d → ¬IsInf f d → r = .exact (infinityPattern f product))) ∧
  (either (IsZero f) (fun x => IsZero f x ∨ IsNormal f x ∨ denorm x) →
    (IsSnan f d → r = invalid) ∧ (IsQnan f d → r = .exact d) ∧ (denorm d → r = .unimplemented) ∧
    (IsInf f d → r = .exact (infinityPattern f addend)) ∧
    (IsZero f d → r = .exact (zeroPattern f (if product = addend then product else c.rm == 3))) ∧
    (IsNormal f d → r = .exact (if sub then invertSign f d else d))) ∧
  (either denorm (fun x => IsNormal f x ∨ denorm x) → r = .unimplemented) ∧
  (IsNormal f a → IsNormal f b → (IsNan f d ∨ denorm d → r = .unimplemented) ∧
    (IsInf f d ∨ IsZero f d → let v := realValue f a * realValue f b
      ∃ p, IsRounded f c.rm v p ∧
        (maxFinite f < |p| ∨ |p| < (2 : ℝ) ^ f.emin → r = .unimplemented) ∧
        ((2 : ℝ) ^ f.emin ≤ |p| → |p| ≤ maxFinite f →
          r.unimpl = false ∧ r.flags = { FpFlags.none with i := r.flags.i } ∧ (r.flags.i = true ↔ p ≠ v) ∧
          (IsInf f d → r.value = infinityPattern f addend) ∧
          (IsZero f d → IsFinite f r.value ∧ realValue f r.value = p)))) ∧
  (let n := fpMadd c f sub true w a b d
   let inverted := { r with value := invertSign f r.value }
   (n = r ∨ n = inverted) ∧ (¬IsNan f r.value → n = inverted))

/-- What a floating-point operation is to deliver: its width, destination, and the outcome of its rule. -/
structure FpCase where
  isWide : Bool
  regs : List RegNum
  fd : RegNum
  result : FpResult

/-- The two-operand cases. -/
def fpCase2 (s : State) (f : FpFmt) (op : Dword → Dword → FpResult) (ft fs fd : RegNum) : FpCase :=
  { isWide := f.isWide, regs := [ft, fs, fd], fd := fd, result := op (readFpr s f fs) (readFpr s f ft) }

/-- The one-operand cases. -/
def fpCase1 (s : State) (src dst : FpFmt) (op : Dword → FpResult) (fs fd : RegNum) : FpCase :=
  { isWide := dst.isWide, regs := [fs, fd], fd := fd, result := op (readFpr s src fs) }

/-- The arithmetic of opcode 17 that is MIPS III (48_fpu.md rules R700 to R705, R707). -/
def fpArithCase (i : Instr) (s : State) : Option FpCase :=
  let c := s.fpu.fcr31
  let w := s.free 0
  match i with
  | .addS ft fs fd => some (fpCase2 s .single (fpAdd c .single false w) ft fs fd)
  | .addD ft fs fd => some (fpCase2 s .double (fpAdd c .double false w) ft fs fd)
  | .subS ft fs fd => some (fpCase2 s .single (fpAdd c .single true w) ft fs fd)
  | .subD ft fs fd => some (fpCase2 s .double (fpAdd c .double true w) ft fs fd)
  | .mulS ft fs fd => some (fpCase2 s .single (fpMul c .single w) ft fs fd)
  | .mulD ft fs fd => some (fpCase2 s .double (fpMul c .double w) ft fs fd)
  | .divS ft fs fd => some (fpCase2 s .single (fpDiv c .single w) ft fs fd)
  | .divD ft fs fd => some (fpCase2 s .double (fpDiv c .double w) ft fs fd)
  | .sqrtS fs fd => some (fpCase1 s .single .single (fpSqrt c .single w) fs fd)
  | .sqrtD fs fd => some (fpCase1 s .double .double (fpSqrt c .double w) fs fd)
  | .absS fs fd => some (fpCase1 s .single .single (fpSignOp c .single false) fs fd)
  | .absD fs fd => some (fpCase1 s .double .double (fpSignOp c .double false) fs fd)
  | .negS fs fd => some (fpCase1 s .single .single (fpSignOp c .single true) fs fd)
  | .negD fs fd => some (fpCase1 s .double .double (fpSignOp c .double true) fs fd)
  | _ => none

/-- The MIPS IV arithmetic: reciprocals inside opcode 17 (rules R708, R709) and the multiply-adds of opcode 19
(rules R711 to R714). -/
def fpMips4Case (i : Instr) (s : State) : Option FpCase :=
  let c := s.fpu.fcr31
  let w := s.free 0
  let madd (f : FpFmt) (sub neg : Bool) (fr ft fs fd : RegNum) : Option FpCase :=
    some { isWide := f.isWide, regs := [fr, ft, fs, fd], fd := fd
           result := fpMadd c f sub neg w (readFpr s f fs) (readFpr s f ft) (readFpr s f fr) }
  match i with
  | .recipS fs fd => some (fpCase1 s .single .single (fpRecip c .single w) fs fd)
  | .recipD fs fd => some (fpCase1 s .double .double (fpRecip c .double w) fs fd)
  | .rsqrtS fs fd => some (fpCase1 s .single .single (fpRsqrt c .single w) fs fd)
  | .rsqrtD fs fd => some (fpCase1 s .double .double (fpRsqrt c .double w) fs fd)
  | .maddS fr ft fs fd => madd .single false false fr ft fs fd
  | .maddD fr ft fs fd => madd .double false false fr ft fs fd
  | .msubS fr ft fs fd => madd .single true false fr ft fs fd
  | .msubD fr ft fs fd => madd .double true false fr ft fs fd
  | .nmaddS fr ft fs fd => madd .single false true fr ft fs fd
  | .nmaddD fr ft fs fd => madd .double false true fr ft fs fd
  | .nmsubS fr ft fs fd => madd .single true true fr ft fs fd
  | .nmsubD fr ft fs fd => madd .double true true fr ft fs fd
  | _ => none

/-- The conversions without an `L` operand or result (rules R715 to R718, R720 to R723). -/
def fpConvertCase (i : Instr) (s : State) : Option FpCase :=
  let c := s.fpu.fcr31
  let w := s.free 0
  let toWord (f : FpFmt) (rm : BitVec 2) (fs fd : RegNum) : Option FpCase :=
    some { isWide := false, regs := [fs, fd], fd := fd, result := fpToWord c f rm w (readFpr s f fs) }
  match i with
  | .roundWS fs fd => toWord .single 0 fs fd
  | .roundWD fs fd => toWord .double 0 fs fd
  | .truncWS fs fd => toWord .single 1 fs fd
  | .truncWD fs fd => toWord .double 1 fs fd
  | .ceilWS fs fd => toWord .single 2 fs fd
  | .ceilWD fs fd => toWord .double 2 fs fd
  | .floorWS fs fd => toWord .single 3 fs fd
  | .floorWD fs fd => toWord .double 3 fs fd
  | .cvtWS fs fd => toWord .single c.rm fs fd
  | .cvtWD fs fd => toWord .double c.rm fs fd
  | .cvtSD fs fd => some (fpCase1 s .double .single (fpToFp c .double .single) fs fd)
  | .cvtDS fs fd => some (fpCase1 s .single .double (fpToFp c .single .double) fs fd)
  | .cvtSW fs fd =>
    some { isWide := false, regs := [fs, fd], fd := fd, result := fpFromInt c .single (readFprWord s fs).toInt }
  | .cvtDW fs fd =>
    some { isWide := true, regs := [fs, fd], fd := fd, result := fpFromInt c .double (readFprWord s fs).toInt }
  | _ => none

/-- The conversions with an `L` operand or result (rules R716, R717, R719, R724 to R727). -/
def fpLongCase (i : Instr) (s : State) : Option FpCase :=
  let c := s.fpu.fcr31
  let w := s.free 0
  let toLong (f : FpFmt) (rm : BitVec 2) (fs fd : RegNum) : Option FpCase :=
    some { isWide := true, regs := [fs, fd], fd := fd, result := fpToLong c f rm w (readFpr s f fs) }
  match i with
  | .roundLS fs fd => toLong .single 0 fs fd
  | .roundLD fs fd => toLong .double 0 fs fd
  | .truncLS fs fd => toLong .single 1 fs fd
  | .truncLD fs fd => toLong .double 1 fs fd
  | .ceilLS fs fd => toLong .single 2 fs fd
  | .ceilLD fs fd => toLong .double 2 fs fd
  | .floorLS fs fd => toLong .single 3 fs fd
  | .floorLD fs fd => toLong .double 3 fs fd
  | .cvtLS fs fd => toLong .single c.rm fs fd
  | .cvtLD fs fd => toLong .double c.rm fs fd
  | .cvtSL fs fd =>
    some { isWide := false, regs := [fs, fd], fd := fd, result := fpFromInt c .single (readFprDword s fs).toInt }
  | .cvtDL fs fd =>
    some { isWide := true, regs := [fs, fd], fd := fd, result := fpFromInt c .double (readFprDword s fs).toInt }
  | _ => none

/-- The compares: format, condition, `ft`, `fs`, `cc` (rule R730). -/
def fpCompareCase : Instr → Option (FpFmt × BitVec 4 × RegNum × RegNum × BitVec 3)
  | .cFS ft fs cc => some (.single, 0, ft, fs, cc)
  | .cUnS ft fs cc => some (.single, 1, ft, fs, cc)
  | .cEqS ft fs cc => some (.single, 2, ft, fs, cc)
  | .cUeqS ft fs cc => some (.single, 3, ft, fs, cc)
  | .cOltS ft fs cc => some (.single, 4, ft, fs, cc)
  | .cUltS ft fs cc => some (.single, 5, ft, fs, cc)
  | .cOleS ft fs cc => some (.single, 6, ft, fs, cc)
  | .cUleS ft fs cc => some (.single, 7, ft, fs, cc)
  | .cSfS ft fs cc => some (.single, 8, ft, fs, cc)
  | .cNgleS ft fs cc => some (.single, 9, ft, fs, cc)
  | .cSeqS ft fs cc => some (.single, 10, ft, fs, cc)
  | .cNglS ft fs cc => some (.single, 11, ft, fs, cc)
  | .cLtS ft fs cc => some (.single, 12, ft, fs, cc)
  | .cNgeS ft fs cc => some (.single, 13, ft, fs, cc)
  | .cLeS ft fs cc => some (.single, 14, ft, fs, cc)
  | .cNgtS ft fs cc => some (.single, 15, ft, fs, cc)
  | .cFD ft fs cc => some (.double, 0, ft, fs, cc)
  | .cUnD ft fs cc => some (.double, 1, ft, fs, cc)
  | .cEqD ft fs cc => some (.double, 2, ft, fs, cc)
  | .cUeqD ft fs cc => some (.double, 3, ft, fs, cc)
  | .cOltD ft fs cc => some (.double, 4, ft, fs, cc)
  | .cUltD ft fs cc => some (.double, 5, ft, fs, cc)
  | .cOleD ft fs cc => some (.double, 6, ft, fs, cc)
  | .cUleD ft fs cc => some (.double, 7, ft, fs, cc)
  | .cSfD ft fs cc => some (.double, 8, ft, fs, cc)
  | .cNgleD ft fs cc => some (.double, 9, ft, fs, cc)
  | .cSeqD ft fs cc => some (.double, 10, ft, fs, cc)
  | .cNglD ft fs cc => some (.double, 11, ft, fs, cc)
  | .cLtD ft fs cc => some (.double, 12, ft, fs, cc)
  | .cNgeD ft fs cc => some (.double, 13, ft, fs, cc)
  | .cLeD ft fs cc => some (.double, 14, ft, fs, cc)
  | .cNgtD ft fs cc => some (.double, 15, ft, fs, cc)
  | _ => none

/-- Every floating-point register outside a destination is the same: with `FR` = 0 a result of 64 bits also covers the
next register (rule R662). -/
def KeepsFgrBut (isWide : Bool) (fd : RegNum) (s t : State) : Prop :=
  ∀ q, q ≠ fd → (q ≠ fd + 1 ∨ isWide = false ∨ s.status.fr = true) → readFgr t q = readFgr s q

/-- A floating-point register holds a result: 64 bits through the register view, or the low 32 (rule R662); with
`FR` = 0 the upper halves are not written. -/
def FprHolds (isWide : Bool) (fd : RegNum) (v : Dword) (s t : State) : Prop :=
  (if isWide then readFprDword t fd = v else readFprWord t fd = low32 v) ∧
    (s.status.fr = false → ∀ q, high32 (readFgr t q) = high32 (readFgr s q))

/-- The fields of `FCR31` no arithmetic operation writes. -/
def KeepsFcr31Modes (s t : State) : Prop :=
  t.fpu.fcr31.fs = s.fpu.fcr31.fs ∧ t.fpu.fcr31.enables = s.fpu.fcr31.enables ∧ t.fpu.fcr31.rm = s.fpu.fcr31.rm

/-- A value is written to a floating-point register and nothing else changes; `FCR31` stays. -/
def GivesFpr (isWide : Bool) (fd : RegNum) (v : Dword) (i : Instr) (s : State) : Prop :=
  Does i s (fun t => OnlyFpu s t ∧ FprHolds isWide fd v s t ∧ KeepsFgrBut isWide fd s t ∧ t.fpu.fcr31 = s.fpu.fcr31)

/-- A miss in the explicit data cache: as `GivesFpr`, with a line filled from memory. -/
def FillsFpr (isWide : Bool) (fd : RegNum) (v : Dword) (pa : PAddr) (i : Instr) (s : State) : Prop :=
  Does i s (fun t => KeepsGpr s t ∧ KeepsHiLo s t ∧ KeepsControl s t ∧ t.llBit = s.llBit ∧
    KeepsRest s { t with caches := s.caches } ∧ KeepsMem s t ∧ Continues s t ∧ FprHolds isWide fd v s t ∧
    KeepsFgrBut isWide fd s t ∧ t.fpu.fcr31 = s.fpu.fcr31 ∧ LineFilled pa s t)

/-- A floating-point register is copied when a condition holds, and else nothing is written (rules R740 to R744). -/
def CopiesWhen (i : Instr) (s : State) (c : Prop) (f : FpFmt) (fs fd : RegNum) : Prop :=
  (c → GivesFpr f.isWide fd (readFpr s f fs) i s) ∧ (¬c → Does i s (OnlyPc s))

/-- An operation traps: Unimplemented Operation, or an exception whose Enable bit is set (rule R670). -/
def TrapsOn (r : FpResult) (e : FpFlags) : Prop :=
  r.unimpl = true ∨ (r.flags.v = true ∧ e.v = true) ∨ (r.flags.z = true ∧ e.z = true) ∨
    (r.flags.o = true ∧ e.o = true) ∨ (r.flags.u = true ∧ e.u = true) ∨ (r.flags.i = true ∧ e.i = true)

/-- The state with the six `Cause` bits of `FCR31` written. -/
def withFpCause (unimpl : Bool) (cause : FpFlags) (s : State) : State :=
  { s with fpu := { s.fpu with fcr31 := { s.fpu.fcr31 with causeE := unimpl, cause := cause } } }

/-- The end of an operation (rule R670). With an exception: `Cause` is written and the Floating-Point exception is
taken, nothing else changes. Without: `Cause`, the accumulated flags and the destination are written. -/
def FpDelivers (i : Instr) (s : State) (c : FpCase) : Prop :=
  Does i s (fun t =>
    let r := c.result
    (TrapsOn r s.fpu.fcr31.enables →
      t = takeException .fpe (withFpCause r.unimpl r.flags { s with freeCount := s.freeCount + 1 })) ∧
    (¬TrapsOn r s.fpu.fcr31.enables →
      OnlyFpu s t ∧ FprHolds c.isWide c.fd r.value s t ∧ KeepsFgrBut c.isWide c.fd s t ∧ KeepsFcr31Modes s t ∧
        t.fpu.fcr31.cc = s.fpu.fcr31.cc ∧ t.fpu.fcr31.causeE = r.unimpl ∧ t.fpu.fcr31.cause = r.flags ∧
        t.fpu.fcr31.flags = s.fpu.fcr31.flags.or r.flags))

/-! ## The machine as a whole -/

/-- `Random` lies between `Wired` and the last JTLB entry (10_state.md rule R122); with `Wired` above the last entry
only the upper bound is meant. -/
def randomInRange (s : State) : Prop :=
  s.cp0.random ≤ tlbTop s ∧ (s.cp0.wired ≤ tlbTop s → s.cp0.wired ≤ s.cp0.random)

/-- The data the model keeps in one form is in that form: memory and the lists of cache lines. -/
def dataWf (s : State) : Prop := Memory.wf s.mem = true ∧ s.caches.wf = true

/-- `Count` advances by a positive amount (10_state.md rule R130). -/
def countRuns (s : State) : Prop := 0 < s.params.countStep

/-- 64 JTLB entries exist in revision 2.x only (70_reset_and_hazards.md rule R880). -/
def paramsOk (s : State) : Prop := s.params.jtlb64 = true → 0x20 ≤ s.params.rev.toNat

/-- Nothing stands between the start of a step and the fetch of an instruction: no event of the board, no NMI edge, no
Standby, no error to report, no interrupt, an operating mode (60_exceptions.md rule R772). -/
def Undisturbed (s : State) : Prop :=
  s.events = [] ∧ (nmiNow s = false ∨ s.nmiLevel = true) ∧ s.standby = false ∧ s.pendingErrors = [] ∧
    intRequest s = false ∧ mode s ≠ .reserved

/-- The NMI level has been sampled (rule R781). -/
def sampled (s : State) : State := { s with nmiLevel := nmiNow s }

/-- A Watch register matches an access of `n` bytes at `pa` (60_exceptions.md rule R854): it is enabled for the kind of
access, and its address equals that of a word the access touches, but for the bits of `PA[31:2]` that `WatchMask.MASK`
masks where `WatchMask` says so (`masked`). -/
def WatchMatches (x : Watch) (masked : Bool) (mask : BitVec 30) (kind : AccessKind) (pa : PAddr) (n : Nat) : Prop :=
  (match kind with
    | .fetch => x.ifetch
    | .load => x.ld
    | .store => x.st) = true ∧
  ∃ j, j < n ∧ ∀ b, b < 34 → (masked = true ∧ b < 30 ∧ mask.getLsbD b = true) ∨
    x.pa.getLsbD b = (pa.toNat + j).testBit (b + 2)

/-- The word at the program counter can be fetched from memory. -/
def FetchReaches (s : State) (pa : PAddr) (attr : BitVec 3) : Prop :=
  s.pc.toNat % 4 = 0 ∧ Machine.translate .fetch s.pc s = .ok (pa, attr) ∧
    (regionKind s pa = .ram ∨ regionKind s pa = .rom) ∧ watchMatch s .fetch pa 4 = (false, false)

/-- The invariant of the machine. -/
structure Inv (s : State) : Prop where
  data : dataWf s
  random : randomInRange s
  count : countRuns s
  params : paramsOk s

/-- The control state a User-mode program without `CU0` must not change: the JTLB, and the CP0 registers but those an
exception loads or leaves undefined, `LLAddr` and the counters (60_exceptions.md rule R841). -/
def KeepsPrivileged (s t : State) : Prop :=
  t.tlb = s.tlb ∧ t.params = s.params ∧ t.cp0.config = s.cp0.config ∧ t.cp0.wired = s.cp0.wired ∧
    t.cp0.compare = s.cp0.compare ∧ t.cp0.intControl = s.cp0.intControl ∧ t.cp0.iplLo = s.cp0.iplLo ∧
    t.cp0.iplHi = s.cp0.iplHi ∧ t.cp0.watch1 = s.cp0.watch1 ∧ t.cp0.watch2 = s.cp0.watch2 ∧
    t.cp0.watchMask = s.cp0.watchMask ∧ t.cp0.perfControl = s.cp0.perfControl ∧ t.cp0.index = s.cp0.index ∧
    t.cp0.pageMask = s.cp0.pageMask ∧ t.cp0.entryHi.asid = s.cp0.entryHi.asid ∧
    t.cp0.context.pteBase = s.cp0.context.pteBase ∧ t.cp0.xcontext.pteBase = s.cp0.xcontext.pteBase ∧
    t.cp0.errorEpc = s.cp0.errorEpc ∧ t.cp0.tagLo = s.cp0.tagLo ∧ t.cp0.tagHi = s.cp0.tagHi ∧ t.cp0.ecc = s.cp0.ecc ∧
    t.cp0.dErrAddr0 = s.cp0.dErrAddr0 ∧ t.cp0.dErrAddr1 = s.cp0.dErrAddr1 ∧ t.cp0.cause.iv = s.cp0.cause.iv ∧
    t.cp0.cause.ip1 = s.cp0.cause.ip1 ∧ t.cp0.cause.ip0 = s.cp0.cause.ip0 ∧ t.standby = s.standby

/-- The offsets at which the handler of an exception taken with `EXL` = 0 can lie: a refill, an extended refill, every
other, a vectored interrupt (60_exceptions.md rules R777, R855). -/
def HandlerOffset (s : State) (k : Nat) : Prop :=
  k = 0 ∨ k = 0x80 ∨ k = 0x180 ∨
    ∃ level spacing, level ≤ 15 ∧ vectorSpacing s.cp0.intControl.vs = some spacing ∧ k = 0x200 + level * spacing

end Sys2Proof.Safety
end

