-- ==== Sys2Proof/Certificates/Slice0/Obligations.lean ====
section
/-! DEFINITION. The statements for the provers: each says what an instruction or the machine does, from the numbered
rules of the spec. -/

open Sys2Proof Sys2Proof.Machine Sys2Proof.Safety

/-! ## Decoding and the step -/

/-- Decoding the encoding of an instruction gives it back, whatever its operands: from the word, from its bytes in
either byte order, and through `decodeTableWord` (30_encoding.md rules R301 to R311). -/
def Obligations.EncodingDecodesToItself : Prop :=
  ∀ i : Instr, decode (encode i) = .ok i ∧ (∀ big, decodeBytes big (bytesOfWord big (encode i)) = .ok i) ∧
    decodeTableWord 32 (encode i).toNat = some i

/-- Words the spec writes out in its examples decode to the instructions it names (rules R480 to R735). -/
def Obligations.ExampleWordsDecode : Prop :=
  decode 0x24020001#32 = .ok (.addiu 0 2 1) ∧
  decode 0x34030001#32 = .ok (.ori 0 3 1) ∧
  decode 0x0000000C#32 = .ok (.syscall 0) ∧
  decode 0x0007000D#32 = .ok (.brk 0x1C00) ∧
  decode 0x0000000F#32 = .ok (.sync 0) ∧
  decode 0x00000034#32 = .ok (.teq 0 0 0) ∧
  decode 0x048CFFFF#32 = .ok (.teqi 4 0xFFFF) ∧
  decode 0x0085100B#32 = .ok (.movn 4 5 2) ∧
  decode 0x00811001#32 = .ok (.movt 4 0 2) ∧
  decode 0xCC800008#32 = .ok (.pref 4 0 8) ∧
  decode 0x4C85000F#32 = .ok (.prefx 4 5 0) ∧
  decode 0x03E00008#32 = .ok (.jr 31) ∧
  decode 0x0320F809#32 = .ok (.jalr 25 31) ∧
  decode 0x0BF00100#32 = .ok (.j 0x3F00100) ∧
  decode 0x1000FFFF#32 = .ok (.beq 0 0 0xFFFF) ∧
  decode 0x54000003#32 = .ok (.bnel 0 0 3)

/-- The undefined major opcodes, `SPECIAL` functions (with `MOVCI` when bit 17 is 1), `REGIMM` sub-opcodes, encodings of
coprocessor 0, formats and functions of coprocessor 1 (with `MOVCF` when bit 17 is 1), functions of opcode 19 and of opcode
28 are rejected, and no other word is rejected by those names (30_encoding.md rules R304 to R311, R314). -/
def Obligations.UndefinedOpcodesAreReserved : Prop :=
  ∀ w : Word,
    (decode w = .error .majorOpcode ↔ (opF w).toNat ∈ [29, 30, 31, 59]) ∧
    (decode w = .error .special ↔ opF w = 0 ∧
      ((functF w).toNat ∈ [5, 14, 21, 40, 41, 53, 55, 57, 61] ∨ (functF w = 1 ∧ w.getLsbD 17 = true))) ∧
    (decode w = .error .regimm ↔
      opF w = 1 ∧ (rtF w).toNat ∈ [4, 5, 6, 7, 13, 15, 20, 21, 22, 23, 24, 25, 26, 27, 28, 29, 30, 31]) ∧
    (decode w = .error .cop0 ↔ opF w = 16 ∧
      (if w.getLsbD 25 then (functF w).toNat ∉ [1, 2, 6, 8, 24, 32] else (rsF w).toNat ∉ [0, 1, 2, 4, 5, 6])) ∧
    (∀ (fmt : BitVec 5) (funct : BitVec 6), decode w = .error (.cop1 fmt funct) ↔
      opF w = 17 ∧ rsF w = fmt ∧ functF w = funct ∧ fmt.toNat ∉ [0, 1, 2, 4, 5, 6, 8] ∧
      (let shared : Prop := funct.toNat < 16 ∨ funct.toNat ∈ [18, 19, 21, 22, 36, 37] ∨ 48 ≤ funct.toNat ∨
        (funct = 17 ∧ w.getLsbD 17 = false)
       (fmt = 16 → ¬(shared ∨ funct = 33)) ∧ (fmt = 17 → ¬(shared ∨ funct = 32)) ∧
        (fmt = 20 ∨ fmt = 21 → funct ≠ 32 ∧ funct ≠ 33))) ∧
    (decode w = .error .cop1x ↔
      opF w = 19 ∧ (functF w).toNat ∉ [0, 1, 8, 9, 15, 32, 33, 40, 41, 48, 49, 56, 57]) ∧
    (decode w = .error .rm7000 ↔ opF w = 28 ∧ 3 ≤ (functF w).toNat) ∧
    decode w ≠ .error .truncated

/-- A step runs the decoded instruction: with nothing else to do, the step is the meaning of the instruction the
fetched word decodes to, with the counters advancing behind it; a word that does not decode raises what its class
raises; a fetch that fails gives its exception. Under strict hazard checking a hazard stops the machine, and else the
windows move on (60_exceptions.md rule R772; 70_reset_and_hazards.md rule R896). -/
def Obligations.StepRunsTheDecodedInstruction : Prop :=
  ∀ (s : State), Undisturbed s →
    (s.params.strictHazards = false → earlyHazard none (sampled s) = none) ∧
    (∀ k, earlyHazard none (sampled s) = some k → step s = .fault (.hazard k)) ∧
    (earlyHazard none (sampled s) = none →
      (∀ w attr s1 i, fetch none (sampled s) = .ok (w, attr, s1) → decode w = .ok i →
        (s1.params.strictHazards = false →
          step s = tickOut s true (writtenCp0 i != some 6) (exec i s1)) ∧
        (s1.params.strictHazards = true → hazardOf i s1 attr = none →
          step s = tickOut s true (writtenCp0 i != some 6) (exec i { s1 with hazards := nextHazards i s1 })) ∧
        (s1.params.strictHazards = true → ∀ k, hazardOf i s1 attr = some k → step s = .fault (.hazard k))) ∧
      (∀ w attr s1 r, fetch none (sampled s) = .ok (w, attr, s1) → decode w = .error r →
        (s1.params.strictHazards = false ∨ reservedDependsOnWrite r s1 = false →
          step s = tickOut s true true (reservedEncoding r s1)) ∧
        (s1.params.strictHazards = true → reservedDependsOnWrite r s1 = true →
          step s = .fault (.hazard .controlInSlot))) ∧
      (∀ e, fetch none (sampled s) = .error e → step s = tickOut s false true e.answer))

/-- The fetch reads the word at the program counter in the base byte order (20_memory.md rule R254), and the bytes there
are what the decoder reads. Through the explicit instruction cache a hit delivers the line's word, and a miss with the
bypass attribute fills a line from memory and delivers its word (rules R262, R291). Its exceptions stand in this order: a
misaligned address is an Address Error, a failed translation its exception, a hole an instruction bus error, a watched word
an Instruction Watch (60_exceptions.md rules R772, R776, R794, R815, R854; 45_jump_branch.md rule R565); the step takes
them. That a hole is what fails and a device window stops is the model's choice (log entry 10). -/
def Obligations.FetchReadsTheWordAtThePc : Prop :=
  ∀ (s : State) (pa : PAddr) (attr : BitVec 3),
    let w := BitVec.ofNat 32 (numberAt s.params.bigEndian s.mem pa.toNat 4)
    (Direct s attr → FetchReaches s pa attr →
      fetch none s = .ok (w, attr, s) ∧
        decodeBytes s.params.bigEndian [Memory.read s.mem pa.toNat, Memory.read s.mem (pa.toNat + 1),
          Memory.read s.mem (pa.toNat + 2), Memory.read s.mem (pa.toNat + 3)] = decode w) ∧
    (ThroughCaches s attr → s.pc.toNat % 4 = 0 → Machine.translate .fetch s.pc s = .ok (pa, attr) →
      watchMatch s .fetch pa 4 = (false, false) → ∀ k, lookupI s pa = .ok (some k) → (iLine s k).preDec = none →
      fetch none s =
        .ok (BitVec.ofNat 32 (lineNumber s.params.bigEndian (iLine s k).data (pa.toNat % 32) 4), attr, s)) ∧
    (ThroughCaches s attr → FetchReaches s pa attr → lookupI s pa = .ok none → attr = 7 →
      ∃ t, fetch none s = .ok (w, attr, t) ∧ t = { s with caches := t.caches, freeCount := t.freeCount } ∧
        ∃ k ∈ primaryWays pa, OnlyLineI k s t ∧ (iLine t k).tag = pa.extractLsb' 12 24 ∧ (iLine t k).state = 2 ∧
          ∀ j, j < 32 → lineByte (iLine t k).data j = Memory.read s.mem (pa.toNat / 32 * 32 + j)) ∧
    (s.pc.toNat % 4 ≠ 0 → fetch none s = .error (.exc (.adE false s.pc) s)) ∧
    (s.pc.toNat % 4 = 0 →
      (∀ e, Machine.translate .fetch s.pc s = .error e → fetch none s = .error e) ∧
      (Machine.translate .fetch s.pc s = .ok (pa, attr) →
        (Direct s attr ∨ (ThroughCaches s attr ∧ attr = 7 ∧ lookupI s pa = .ok none) →
          (regionKind s pa = .hole → fetch none s = .error (.exc (.ibe pa) s)) ∧
          (regionKind s pa = .device → fetch none s = .error (.refused .deviceAccess))) ∧
        (∀ w1 w2, watchMatch s .fetch pa 4 = (w1, w2) → (w1 || w2) = true →
          (Direct s attr → regionKind s pa = .ram ∨ regionKind s pa = .rom →
            fetch none s = .error (.exc (.iwe w1 w2) s)) ∧
          (ThroughCaches s attr → ∀ k, lookupI s pa = .ok (some k) → (iLine s k).preDec = none →
            fetch none s = .error (.exc (.iwe w1 w2) s))))) ∧
    (Undisturbed s → earlyHazard none (sampled s) = none → ∀ e u, fetch none (sampled s) = .error (.exc e u) →
      step s = tickOut s false true (.next (takeException e u)))

/-- A reserved encoding raises Reserved Instruction; inside the coprocessor classes the usability tests come first, and
inside coprocessor 1 the exception is Unimplemented Operation (30_encoding.md rule R312; 48_fpu.md rule R676). An encoding
of the format L, or of W with a result L, is tested for 64-bit operations before `CU1` (48_fpu.md rule R661; that this
order holds for a reserved encoding too is the model's reading, log entry 41). -/
def Obligations.ReservedEncodingsRaise : Prop :=
  ∀ (s : State),
    let unimplemented (t : State) : Prop := t.cp0.cause.excCode = 15 ∧ t.fpu.fcr31.causeE = true ∧
      t.fpu.fcr31.cause = .none ∧ t.fpu.fcr31.flags = s.fpu.fcr31.flags ∧ t.fpu.fgr = s.fpu.fgr
    let byCu1 (r : Reserved) : Prop := ∃ t, reservedEncoding r s = .next t ∧ KeepsFaultAddress s t ∧
      (s.status.cu1 = false → TakesGeneral 11 0x180 s t ∧ t.cp0.cause.ce = 1) ∧ (s.status.cu1 = true → unimplemented t)
    let reserved (r : Reserved) : Prop :=
      ∃ t, reservedEncoding r s = .next t ∧ TakesGeneral 10 0x180 s t ∧ KeepsFaultAddress s t
    (∀ r ∈ [Reserved.majorOpcode, .special, .regimm, .rm7000], reserved r) ∧
    (∃ t, reservedEncoding .cop0 s = .next t ∧ KeepsFaultAddress s t ∧
      (cp0Usable s = true → TakesGeneral 10 0x180 s t) ∧
      (cp0Usable s = false → TakesGeneral 11 0x180 s t ∧ t.cp0.cause.ce = 0)) ∧
    (∀ (fmt : BitVec 5) (funct : BitVec 6),
      let long : Prop := fmt = 21 ∨ (fmt = 20 ∧ funct.toNat ∈ [8, 9, 10, 11, 37])
      (¬long ∨ is64 s = true → byCu1 (.cop1 fmt funct)) ∧ (long → is64 s = false → reserved (.cop1 fmt funct))) ∧
    (isMips4 s = true → byCu1 .cop1x) ∧ (isMips4 s = false → reserved .cop1x)

/-- What a step adds behind an instruction: `Count` advances by `COUNT_STEP` and the timer latch is set when it meets
`Compare` (60_exceptions.md rules R851, R857; 10_state.md rules R122, R130). How `Random` moves, and which steps count,
are the model's choice (log entries 14, 15, 24). -/
def Obligations.CountersAdvance : Prop :=
  ∀ (before s : State) (executed random : Bool),
    let t := tick before executed random s
    t.cp0.count = s.cp0.count + BitVec.ofNat 32 s.params.countStep ∧
    (t.timerPending = true ↔ s.timerPending = true ∨
      ∃ k : Nat, 1 ≤ k ∧ k ≤ s.params.countStep ∧ s.cp0.count + BitVec.ofNat 32 k = s.cp0.compare) ∧
    t.cp0.random = (if random then (if s.cp0.random ≤ s.cp0.wired then tlbTop s else s.cp0.random - 1) else s.cp0.random) ∧
    ((before.cp0.perfControl.ce = false ∨ (mode before = .user ∧ before.cp0.perfControl.um = false) ∨
        (mode before = .kernel ∧ before.cp0.perfControl.km = false) ∨ before.cp0.perfControl.csf = 0x1F) →
      t.cp0.perfCount = s.cp0.perfCount) ∧
    (before.cp0.perfControl.ce = true → mode before = .kernel → before.cp0.perfControl.km = true →
      before.cp0.perfControl.csf = 1 → t.cp0.perfCount = s.cp0.perfCount + (if executed then 1 else 0)) ∧
    (∃ k : Nat, k ≤ max s.params.perfStep 1 ∧ t.cp0.perfCount = s.cp0.perfCount + BitVec.ofNat 32 k) ∧
    t.cp0 = { s.cp0 with count := t.cp0.count, random := t.cp0.random, perfCount := t.cp0.perfCount } ∧
    t = { s with cp0 := t.cp0, timerPending := t.timerPending, freeCount := t.freeCount }

/-! ## Reset -/

/-- Right after a cold reset the machine is in Kernel mode at the reset vector with the values the spec states
(10_state.md rules R190, R191). -/
def Obligations.ResetStateHasTheStatedValues : Prop :=
  let s := State.reset
  s.pc = 0xFFFFFFFFBFC00000 ∧ mode s = .kernel ∧ intRequest s = false ∧
  s.cp0.status.erl = true ∧ s.cp0.status.bev = true ∧ s.cp0.status.sr = false ∧ s.cp0.status.co = false ∧
  s.cp0.random = tlbTop s ∧ s.cp0.wired = 0 ∧ s.cp0.config.te = false ∧
  s.cp0.count = 0 ∧ s.cp0.compare = 0 ∧ readCp0 s 4 = some 0 ∧ readCp0 s 20 = some 0 ∧ readCp0 s 13 = some 0 ∧
  s.cp0.badVAddr = 0 ∧ s.cp0.tagLo = 0 ∧ s.cp0.tagHi = 0 ∧ readCp0 s 26 = some 0 ∧ readCp0 s 27 = some 0 ∧
  s.cp0.perfCount = 0 ∧ readCp0 s 22 = some 0 ∧ readCp0 s 18 = some 0 ∧ readCp0 s 19 = some 0 ∧ readCp0 s 24 = some 0 ∧
  s.cp0.iplLo = 0 ∧ s.cp0.iplHi = 0 ∧ readCp0Control s 20 = some 0 ∧ s.cp0.dErrAddr0 = 0 ∧ s.cp0.dErrAddr1 = 0 ∧
  s.intReg = 0 ∧ s.timerPending = false ∧ s.standby = false ∧ s.inDelaySlot = false ∧ Memory.wf s.mem = true

/-- A cold reset with a legal mode stream, from any state, leaves the values the spec states and selects the parameters
of the stream; a stream that selects a reserved value stops the machine (10_state.md rules R190, R191;
70_reset_and_hazards.md rules R874, R880). That a half-integer ratio is accepted with every multiplier, and that
a stream asking for 64 JTLB entries on revision 1.x is accepted with 48, is the model's choice (log entry 9). -/
def Obligations.ColdResetEstablishesTheStatedValues : Prop :=
  ∀ (s : State) (m : BitVec 256) (pin : Bool) (es : List HostEvent), s.events = .coldReset m pin :: es →
    (modeStreamOk m = false → step s = .fault .reservedModeStream) ∧
    (modeStreamOk m = true → ∃ t, step s = .next t ∧
      t.pc = 0xFFFFFFFFBFC00000 ∧ t.inDelaySlot = false ∧ t.standby = false ∧ mode t = .kernel ∧
      t.cp0.errorEpc = s.pc ∧
      t.cp0.status.erl = true ∧ t.cp0.status.bev = true ∧ t.cp0.status.sr = false ∧ t.cp0.status.co = false ∧
      t.cp0.random = tlbTop t ∧ t.cp0.wired = 0 ∧ t.cp0.config.te = false ∧ t.cp0.count = 0 ∧ t.cp0.compare = 0 ∧
      t.cp0.context = { pteBase := 0, badVpn2 := 0 } ∧ t.cp0.xcontext = { pteBase := 0, r := 0, badVpn2 := 0 } ∧
      t.cp0.cause = Cause.reset ∧ t.cp0.badVAddr = 0 ∧ t.cp0.tagLo = 0 ∧ t.cp0.tagHi = 0 ∧ t.cp0.perfCount = 0 ∧
      readCp0 t 22 = some 0 ∧ readCp0 t 24 = some 0 ∧ readCp0 t 26 = some 0 ∧ readCp0 t 27 = some 0 ∧
      t.cp0.watch1 = Watch.reset ∧ t.cp0.watch2 = Watch.reset ∧ t.cp0.iplLo = 0 ∧ t.cp0.iplHi = 0 ∧
      t.cp0.intControl = { im := 0, te := false, vs := 0 } ∧ t.cp0.dErrAddr0 = 0 ∧ t.cp0.dErrAddr1 = 0 ∧
      t.intReg = 0 ∧ t.timerPending = false ∧
      t.params.bigEndian = (m.getLsbD 8 || pin) ∧ t.params.tmrIntEn = m.getLsbD 11 ∧
      t.params.scPresent = m.getLsbD 25 ∧ t.params.tcPresent = m.getLsbD 12 ∧
      (tlbSize t = 64 ↔ m.getLsbD 24 = true ∧ 0x20 ≤ s.params.rev.toNat))

/-- Soft Reset and NMI enter the reset vector with `ErrorEPC`, `BEV`, `SR` and `ERL` loaded and every other register
preserved (60_exceptions.md rules R780, R781). -/
def Obligations.SoftResetAndNmiPreserveRegisters : Prop :=
  ∀ (s : State),
    (∀ es, s.events = .softReset :: es → ∃ t, step s = .next t ∧ EntersResetVector s t ∧ KeepsGpr s t ∧ KeepsHiLo s t ∧
      t.fpu = s.fpu ∧ t.tlb = s.tlb ∧ t.llBit = s.llBit) ∧
    (s.events = [] → s.nmiLevel = false → nmiNow s = true →
      ∃ t, step s = tickOut s false true (.next t) ∧ EntersResetVector s t ∧ KeepsGpr s t ∧ KeepsHiLo s t ∧
        t.fpu = s.fpu ∧ t.tlb = s.tlb ∧ t.llBit = s.llBit ∧ t.caches = s.caches ∧ KeepsMem s t ∧ t.nmiLevel = true)

/-! ## The machine as a whole -/

/-- Every step keeps the invariant: memory and the cache lists in their one form, `Random` within its bounds, `Count`
running, 64 JTLB entries only where they exist (10_state.md rules R122, R130; 20_memory.md rule R251). -/
def Obligations.StepKeepsTheInvariant : Prop := ∀ s t : State, Inv s → step s = .next t → Inv t

/-- The invariant holds right after reset. -/
def Obligations.ResetMeetsTheInvariant : Prop := Inv State.reset

/-- In User mode without `CU0` and `CO`, and without an event of the board or an error to report, no step changes the
control state; the only way out of User mode is an exception entry, to one of the vectors (60_exceptions.md rules R777,
R790, R840, R841, R855). -/
def Obligations.UserModeCannotChangeControlState : Prop :=
  ∀ s t : State, mode s = .user → s.status.cu0 = false → s.status.co = false → s.events = [] → nmiNow s = false →
    s.standby = false → s.pendingErrors = [] → step s = .next t →
    KeepsPrivileged s t ∧
      ((t.cp0.status = s.cp0.status ∧ t.cp0.entryLo0 = s.cp0.entryLo0 ∧ t.cp0.entryLo1 = s.cp0.entryLo1) ∨
        (t.cp0.status = { s.cp0.status with exl := true } ∧
          ∃ k : Nat, HandlerOffset s k ∧ t.pc = vectorBase s + BitVec.ofNat 64 k))

/-- The operating mode and what it permits: `mode()`, `Is64()`, `IsMIPS4()`, the usability of CP0, the byte order
(60_exceptions.md rules R840, R842, R843; 40_cp0_instructions.md rule R350; 20_memory.md rule R253). -/
def Obligations.ModeDecidesPermissions : Prop :=
  ∀ s : State,
    (mode s = .kernel ↔ s.cp0.status.erl = true ∨ s.cp0.status.exl = true ∨ s.cp0.status.ksu = 0) ∧
    (mode s = .supervisor ↔ s.cp0.status.erl = false ∧ s.cp0.status.exl = false ∧ s.cp0.status.ksu = 1) ∧
    (mode s = .user ↔ s.cp0.status.erl = false ∧ s.cp0.status.exl = false ∧ s.cp0.status.ksu = 2) ∧
    (is64 s = true ↔ mode s = .kernel ∨ (mode s = .supervisor ∧ s.cp0.status.sx = true) ∨
      (mode s = .user ∧ s.cp0.status.ux = true)) ∧
    (isMips4 s = true ↔ mode s = .kernel ∨ mode s = .supervisor ∨ (mode s = .user ∧ s.cp0.status.xx = true)) ∧
    (cp0Usable s = true ↔ mode s = .kernel ∨ s.cp0.status.cu0 = true) ∧
    (bigEndianCpu s = true ↔
      (s.params.bigEndian = true ∧ ¬(s.cp0.status.re = true ∧ mode s = .user)) ∨
      (s.params.bigEndian = false ∧ s.cp0.status.re = true ∧ mode s = .user))

/-- In a mode whose 64-bit operations are disabled every MIPS III instruction raises Reserved Instruction; in User mode
with `XX` = 0 so does every integer-side MIPS IV instruction and every defined instruction of opcode 19
(30_encoding.md rule R313). -/
def Obligations.DisabledInstructionsAreReserved : Prop :=
  ∀ (s : State) (i : Instr),
    (is64 s = false → (isMips3 i = true ∨ fpLongCase i s ≠ none ∨ (∃ rt fs, i = .dmfc1 rt fs ∨ i = .dmtc1 rt fs)) →
      Raises i s .ri) ∧
    (isMips4 s = false → (isMips4Integer i = true ∨ opF (encode i) = 19) → Raises i s .ri)

/-- A coprocessor that is not usable makes its instructions raise Coprocessor Unusable with the unit's number. Only the
instruction's own mode test comes before: `Is64()` for `DMFC0`, `DMTC0`, `DMFC1`, `DMTC1` and the format L, `IsMIPS4()` for
opcode 19, `MOVF` and `MOVT` (60_exceptions.md rule R825; 40_cp0_instructions.md rules R350, R354, R355; 48_fpu.md rule
R661). -/
def Obligations.UnusableCoprocessorsTrap : Prop :=
  ∀ (s : State) (i : Instr),
    let is0 : Prop := ∃ rt rd, i = .dmfc0 rt rd ∨ i = .dmtc0 rt rd
    let is1 : Prop := (∃ rt fs, i = .dmfc1 rt fs ∨ i = .dmtc1 rt fs) ∨ fpLongCase i s ≠ none
    let is4 : Prop := opF (encode i) = 19 ∨ ∃ rs cc rd, i = .movf rs cc rd ∨ i = .movt rs cc rd
    (cp0Usable s = false → isCop0 i = true → (is0 → is64 s = true) → Raises i s (.cpU 0)) ∧
    (s.cp0.status.cu1 = false → isCop1 i = true → (is1 → is64 s = true) → (is4 → isMips4 s = true) →
      Raises i s (.cpU 1))

/-! ## Exceptions -/

/-- Taking an exception follows the general sequence with the codes of Table 13.9 and the vectors of Table 13.13; a
Coprocessor Unusable exception loads `CE`, a Watch exception `W1` and `W2`, a precise bus error clears `CacheErr.EC` and
loads its index; no other exception writes `W1`, `W2` or `CacheErr` (60_exceptions.md rules R775, R777, R790, R815, R854). -/
def Obligations.ExceptionsFollowTheGeneralSequence : Prop :=
  ∀ s : State,
    (∀ off, TakesGeneral 0 off s (takeException (.int off) s)) ∧
    (∀ va, TakesGeneral 1 0x180 s (takeException (.tlbMod va) s)) ∧
    (∀ store va, TakesGeneral (if store then 3 else 2) 0x000 s (takeException (.tlbRefill store false va) s)) ∧
    (∀ store va, TakesGeneral (if store then 3 else 2) 0x080 s (takeException (.tlbRefill store true va) s)) ∧
    (∀ store va, TakesGeneral (if store then 3 else 2) 0x180 s (takeException (.tlbInvalid store va) s)) ∧
    (∀ store va, TakesGeneral (if store then 5 else 4) 0x180 s (takeException (.adE store va) s)) ∧
    (∀ pa, TakesGeneral 6 0x180 s (takeException (.ibe pa) s)) ∧
    (∀ pa, TakesGeneral 7 0x180 s (takeException (.dbe pa) s)) ∧
    TakesGeneral 7 0x180 s (takeException .dbeImprecise s) ∧
    TakesGeneral 8 0x180 s (takeException .sys s) ∧
    TakesGeneral 9 0x180 s (takeException .bp s) ∧
    TakesGeneral 10 0x180 s (takeException .ri s) ∧
    (∀ u, TakesGeneral 11 0x180 s (takeException (.cpU u) s) ∧ (takeException (.cpU u) s).cp0.cause.ce = u) ∧
    TakesGeneral 12 0x180 s (takeException .ov s) ∧
    TakesGeneral 13 0x180 s (takeException .tr s) ∧
    TakesGeneral 15 0x180 s (takeException .fpe s) ∧
    (∀ w1 w2, TakesGeneral 16 0x180 s (takeException (.iwe w1 w2) s) ∧
      (takeException (.iwe w1 w2) s).cp0.cause.w1 = w1 ∧ (takeException (.iwe w1 w2) s).cp0.cause.w2 = w2) ∧
    (∀ w1 w2, TakesGeneral 23 0x180 s (takeException (.dwe w1 w2) s) ∧
      (takeException (.dwe w1 w2) s).cp0.cause.w1 = w1 ∧ (takeException (.dwe w1 w2) s).cp0.cause.w2 = w2) ∧
    (∀ e : Exc,
      let t := takeException e s
      (∀ pa, e = .ibe pa ∨ e = .dbe pa →
        t.cp0.cacheErr = { s.cp0.cacheErr with ec := false, idx := pa.extractLsb' 3 19 }) ∧
      ((∀ pa, e ≠ .ibe pa ∧ e ≠ .dbe pa) → t.cp0.cacheErr = s.cp0.cacheErr) ∧
      ((∀ w1 w2, e ≠ .iwe w1 w2 ∧ e ≠ .dwe w1 w2) →
        t.cp0.cause.w1 = s.cp0.cause.w1 ∧ t.cp0.cause.w2 = s.cp0.cause.w2))

/-- The three TLB exceptions load the failing address, whether or not `EXL` was set, and keep `ASID` and both
`PTEBase` fields; Address Error loads `BadVAddr` only; no other exception writes these registers, `EntryLo0` or `EntryLo1`,
which the four leave undefined (60_exceptions.md rules R794, R803; 10_state.md rules R123, R124; log entry 33). -/
def Obligations.FaultAddressRegisters : Prop :=
  ∀ (s : State) (e : Exc),
    let t := takeException e s
    (∀ va, (e = .tlbMod va ∨ (∃ st x, e = .tlbRefill st x va) ∨ ∃ st, e = .tlbInvalid st va) →
      t.cp0.badVAddr = va ∧
        t.cp0.entryHi = { r := va.extractLsb' 62 2, vpn2 := va.extractLsb' 13 27, asid := s.cp0.entryHi.asid } ∧
        t.cp0.context = { pteBase := s.cp0.context.pteBase, badVpn2 := va.extractLsb' 13 19 } ∧
        t.cp0.xcontext =
          { pteBase := s.cp0.xcontext.pteBase, r := va.extractLsb' 62 2, badVpn2 := va.extractLsb' 13 27 }) ∧
    (∀ st va, e = .adE st va → t.cp0.badVAddr = va ∧ t.cp0.entryHi.asid = s.cp0.entryHi.asid ∧
      t.cp0.context.pteBase = s.cp0.context.pteBase ∧ t.cp0.xcontext.pteBase = s.cp0.xcontext.pteBase) ∧
    ((∀ va, e ≠ .tlbMod va) → (∀ st x va, e ≠ .tlbRefill st x va) → (∀ st va, e ≠ .tlbInvalid st va) →
      (∀ st va, e ≠ .adE st va) → KeepsFaultAddress s t)

/-- A cache error enters through its own vector and writes only `ErrorEPC`, `ERL` and `CacheErr` of CP0 (60_exceptions.md
rules R777, R810). A parity error the platform injects on a fetch takes it with the fields of the error, unless `DE` masks
it (rule R811): on a cached fetch with `EC` = 0 and a valid index, on an uncached one with `EC` and the index unstated.
That one on a cached fetch that misses the explicit instruction cache is reported as that of a hit, and fills no line, is
the model's choice (log entry 27). A pending imprecise error is recorded, and taken as a bus error or, unless `DE` masks it, as a cache error;
masked, the step goes on to its interrupt or instruction (rule R812). That `E0` and `E1` stay set is the model's choice
(log entry 23). -/
def Obligations.CacheErrorEntry : Prop :=
  ∀ (s : State),
    (let t := enterCacheError s
     t.pc = (if s.cp0.status.bev then 0xFFFFFFFFBFC00300 else 0xFFFFFFFFA0000100) ∧ t.inDelaySlot = false ∧
      t.cp0 = { s.cp0 with errorEpc := (if s.inDelaySlot then s.pc - 4 else s.pc)
                           status := { s.cp0.status with erl := true } } ∧
      KeepsGpr s t ∧ KeepsHiLo s t ∧ t.fpu = s.fpu ∧ t.tlb = s.tlb ∧ KeepsRest s t ∧ KeepsMem s t ∧ t.llBit = s.llBit) ∧
    (∀ bits pa attr, s.pc.toNat % 4 = 0 → Machine.translate .fetch s.pc s = .ok (pa, attr) →
      s.cp0.status.de = false → uncached attr = false →
      ∃ u, fetch (some bits) s = .error (.cacheError u) ∧ { u with cp0 := s.cp0 } = s ∧
        u.cp0 = { s.cp0 with cacheErr :=
          { s.cp0.cacheErr with er := false, ec := false, ed := bits.ed, et := bits.et, ee := bits.ee, eb := bits.eb
                                ei := bits.ei, idx := pa.extractLsb' 3 19 } }) ∧
    (∀ bits pa attr, s.pc.toNat % 4 = 0 → Machine.translate .fetch s.pc s = .ok (pa, attr) →
      s.cp0.status.de = false → uncached attr = true →
      ∃ u, fetch (some bits) s = .error (.cacheError u) ∧ { u with cp0 := s.cp0, freeCount := s.freeCount } = s ∧
        u.cp0 = { s.cp0 with cacheErr :=
          { s.cp0.cacheErr with er := false, ec := u.cp0.cacheErr.ec, ed := bits.ed, et := bits.et, ee := bits.ee
                                eb := bits.eb, ei := bits.ei, idx := u.cp0.cacheErr.idx } }) ∧
    (s.cp0.status.de = true → ∀ bits, fetch (some bits) s = fetch none s) ∧
    (∀ e es, s.pendingErrors = e :: es → s.events = [] → (nmiNow s = false ∨ s.nmiLevel = true) → s.standby = false →
      let u := recordError e { sampled s with pendingErrors := es }
      ((e.second = false → u.cp0.dErrAddr0 = BitVec.ofNat 32 e.addr.toNat ∧
          u.cp0.ecc = { s.cp0.ecc with ea0 := e.addr.extractLsb' 32 4 } ∧ u.cp0.dErrAddr1 = s.cp0.dErrAddr1 ∧
          u.cp0.cacheErr = { s.cp0.cacheErr with e0 := true, ec := true, er := true, idx := u.cp0.cacheErr.idx }) ∧
        (e.second = true → u.cp0.dErrAddr1 = BitVec.ofNat 32 e.addr.toNat ∧
          u.cp0.ecc = { s.cp0.ecc with ea1 := e.addr.extractLsb' 32 4 } ∧ u.cp0.dErrAddr0 = s.cp0.dErrAddr0 ∧
          u.cp0.cacheErr = { s.cp0.cacheErr with e1 := true, ec := true, er := true, idx := u.cp0.cacheErr.idx }) ∧
        (∀ q, e.dest ≠ .gpr q → readGpr u q = readGpr s q) ∧ u.pendingErrors = es) ∧
      (e.bus = true → ∃ t, step s = tickOut s false true (.next t) ∧ TakesGeneral 7 0x180 u t ∧ KeepsFaultAddress u t) ∧
      (e.bus = false → s.cp0.status.de = false → ∃ t, step s = tickOut s false true (.next (enterCacheError t)) ∧
        t = { u with cp0 := { u.cp0 with cacheErr :=
          { u.cp0.cacheErr with ed := e.bits.ed, et := e.bits.et, ee := e.bits.ee, eb := e.bits.eb, ei := e.bits.ei } } }) ∧
      (e.bus = false → s.cp0.status.de = true → step s = interruptOrRun s none u))

/-- `ERET`: the return address and the bit cleared follow `ERL`; the link is broken; in a delay slot it stops; without
CP0 it raises `CpU(0)` (40_cp0_instructions.md rule R356). -/
def Obligations.EretReturns : Prop :=
  ∀ s : State,
    (cp0Usable s = true → s.inDelaySlot = false → Does .eret s (fun t =>
      (s.cp0.status.erl = true → t.pc = s.cp0.errorEpc ∧ t.cp0 = { s.cp0 with status := { s.cp0.status with erl := false } }) ∧
      (s.cp0.status.erl = false → t.pc = s.cp0.epc ∧ t.cp0 = { s.cp0 with status := { s.cp0.status with exl := false } }) ∧
      t.llBit = false ∧ t.inDelaySlot = false ∧ KeepsGpr s t ∧ KeepsHiLo s t ∧ t.fpu = s.fpu ∧ t.tlb = s.tlb ∧
      KeepsRest s t ∧ KeepsMem s t)) ∧
    (cp0Usable s = true → s.inDelaySlot = true → exec .eret s = .fault .eretInDelaySlot) ∧
    (cp0Usable s = false → Raises .eret s (.cpU 0))

/-! ## Interrupts -/

/-- The interrupt sources and the request: fourteen sources, masked by `Status.IM` and `IntControl.IM`, enabled by `IE`
with `EXL` = `ERL` = 0; an external write with address bits 6:4 = 0 sets and clears the selected bits of the Interrupt
register (60_exceptions.md rules R850 to R853, R855). That any other external write changes nothing is the model's
choice, log entry 40. -/
def Obligations.InterruptRequestRule : Prop :=
  ∀ (s : State) (addr : PAddr) (data : Word),
    let u := applyEvent (.externalWrite addr data) s
    ((addr.extractLsb' 4 3 = 0 →
      (∀ k, k < 10 → u.intReg.getLsbD k = if data.getLsbD (16 + k) then data.getLsbD k else s.intReg.getLsbD k) ∧
      u.intReg.getLsbD 10 = if data.getLsbD 31 then data.getLsbD 15 else s.intReg.getLsbD 10) ∧
      (addr.extractLsb' 4 3 ≠ 0 → u = s) ∧ { u with intReg := s.intReg } = s) ∧
    (intSource s 0 = s.cp0.cause.ip0 ∧ intSource s 1 = s.cp0.cause.ip1) ∧
    (∀ k, k ≤ 9 → k ≠ 5 → intSource s (2 + k) = (s.intPin.getLsbD k || s.intReg.getLsbD k)) ∧
    intSource s 7 = (if s.params.tmrIntEn then s.intPin.getLsbD 5 || s.intReg.getLsbD 5 else s.timerPending) ∧
    intSource s 12 = (s.timerPending && s.cp0.intControl.te) ∧
    intSource s 13 = s.cp0.perfCount.getLsbD 31 ∧
    (∀ n, 14 ≤ n → intSource s n = false) ∧
    (∀ n, n < 14 → ∀ w, readCp0 s 13 = some w → w.getLsbD (8 + n) = intSource s n) ∧
    (intRequest s = true ↔ s.cp0.status.ie = true ∧ s.cp0.status.exl = false ∧ s.cp0.status.erl = false ∧
      ∃ n, n < 14 ∧ intSource s n = true ∧
        (if n < 8 then s.cp0.status.im.getLsbD n = true else s.cp0.intControl.im.getLsbD (n - 8) = true))

/-- A requested interrupt is taken before the next instruction: code 0, at 0x180, or vectored by the smallest priority
level of a pending source with `IV` = 1 (60_exceptions.md rules R855, R856). That it is taken at the first boundary is
the model's choice (log entry 17). -/
def Obligations.InterruptEntry : Prop :=
  ∀ s : State, s.events = [] → (nmiNow s = false ∨ s.nmiLevel = true) → s.standby = false → s.pendingErrors = [] →
    intRequest s = true →
    (s.cp0.cause.iv = false → ∃ t, step s = tickOut s false true (.next t) ∧ TakesGeneral 0 0x180 (sampled s) t ∧
      KeepsFaultAddress s t) ∧
    (s.cp0.cause.iv = true → ∀ spacing, vectorSpacing s.cp0.intControl.vs = some spacing →
      ∃ n t, n < 14 ∧ intPending s n = true ∧ (∀ k, k < 14 → intPending s k = true → intLevelOf s n ≤ intLevelOf s k) ∧
        step s = tickOut s false true (.next t) ∧
        TakesGeneral 0 (BitVec.ofNat 64 (0x200 + intLevelOf s n * spacing)) (sampled s) t) ∧
    (s.cp0.cause.iv = true → vectorSpacing s.cp0.intControl.vs = none → step s = .fault .reservedVectorSpacing)

/-- `WAIT` enters Standby when the bus is idle and is a no-operation otherwise (40_cp0_instructions.md rule R357); in
Standby no instruction runs, and an enabled interrupt, any other source from 2 up or an external request ends it
(60_exceptions.md rule R862; that a masked source wakes at once is the model's choice, log entry 16). -/
def Obligations.StandbyEndsOnInterrupt : Prop :=
  (∀ s : State, cp0Usable s = true → Does .wait s (fun t =>
    t.standby = (s.standby || s.busIdle) ∧ KeepsGpr s t ∧ KeepsHiLo s t ∧ t.fpu = s.fpu ∧ KeepsControl s t ∧
      t.llBit = s.llBit ∧ KeepsMem s t ∧ Continues s t ∧ KeepsRest s { t with standby := s.standby })) ∧
  (∀ s : State, s.events = [] → (nmiNow s = false ∨ s.nmiLevel = true) → s.standby = true →
    (intRequest s = false → (∀ n, 2 ≤ n → n < 14 → intSource s n = false) →
      step s = tickOut s false false (.next (sampled s))) ∧
    (intRequest s = false → (∃ n, 2 ≤ n ∧ n < 14 ∧ intSource s n = true) →
      step s = tickOut s false false (.next { sampled s with standby := false })) ∧
    (intRequest s = true → s.cp0.cause.iv = false →
      ∃ t, step s = tickOut s false false (.next t) ∧ t.standby = false ∧ t.cp0.cause.excCode = 0 ∧
        t.cp0.epc = (if s.inDelaySlot then s.pc - 4 else s.pc))) ∧
  (∀ (s : State) (e : HostEvent) (es : List HostEvent), s.events = e :: es →
    (e = .nullRequest ∨ ∃ addr data, e = .externalWrite addr data) → s.standby = true →
    let s1 := { s with events := es }
    let u := applyEvent e s1
    (nmiNow u = false ∨ s.nmiLevel = true) → intRequest u = false →
      step s = tickOut s1 false false (.next { sampled u with standby := false }))

/-! ## Translation -/

/-- Unmapped kernel segments: `kseg0` with the attribute `Config.K0`, `kseg1` uncached, the low 2 GB uncached while
`ERL` = 1, `xkphys` with the attribute of the address; a reserved attribute stops the access (20_memory.md rules R207,
R215, R216, R222, R262). -/
def Obligations.UnmappedSegments : Prop :=
  ∀ (s : State) (kind : AccessKind) (va : Dword),
    (mode s = .kernel → 0xFFFFFFFF80000000 ≤ va.toNat → va.toNat < 0xFFFFFFFFA0000000 →
      Machine.translate kind va s =
        if s.cp0.config.k0 = 4 ∨ s.cp0.config.k0 = 5 then .error (.fault .reservedCacheAttribute)
        else .ok (BitVec.ofNat 36 (va.toNat - 0xFFFFFFFF80000000), s.cp0.config.k0)) ∧
    (mode s = .kernel → 0xFFFFFFFFA0000000 ≤ va.toNat → va.toNat < 0xFFFFFFFFC0000000 →
      Machine.translate kind va s = .ok (BitVec.ofNat 36 (va.toNat - 0xFFFFFFFFA0000000), 2)) ∧
    (s.cp0.status.erl = true → va.toNat < 2 ^ 31 →
      Machine.translate kind va s = .ok (BitVec.ofNat 36 va.toNat, 2)) ∧
    (mode s = .kernel → s.cp0.status.kx = true → va.toNat / 2 ^ 62 = 2 → va.toNat / 2 ^ 36 % 2 ^ 23 = 0 →
      Machine.translate kind va s =
        if va.toNat / 2 ^ 59 % 8 = 4 ∨ va.toNat / 2 ^ 59 % 8 = 5 then .error (.fault .reservedCacheAttribute)
        else .ok (BitVec.ofNat 36 (va.toNat % 2 ^ 36), BitVec.ofNat 3 (va.toNat / 2 ^ 59 % 8)))

/-- An address outside the segments of the mode raises Address Error: in User mode everything above the user region, in
Supervisor mode every kernel segment and, by `SX`, the extended supervisor region; in any mode the addresses outside every
region, an `xkphys` address with a bit set between its attribute and its physical address, and the top of `xkseg`
(20_memory.md rules R201, R207, R210, R220, R221, R227). -/
def Obligations.ForbiddenSegmentsRaiseAddressError : Prop :=
  ∀ (s : State) (kind : AccessKind) (va : Dword),
    let forbidden : Prop := Machine.translate kind va s = .error (.exc (.adE (kind == .store) va) s)
    (mode s = .user → (if s.cp0.status.ux then 2 ^ 40 ≤ va.toNat else 2 ^ 31 ≤ va.toNat) → forbidden) ∧
    (mode s = .supervisor →
      ((2 ^ 63 ≤ va.toNat ∧ va.toNat < 0xFFFFFFFFC0000000) ∨ 0xFFFFFFFFE0000000 ≤ va.toNat) → forbidden) ∧
    (s.cp0.status.ux = false → 2 ^ 31 ≤ va.toNat → va.toNat < 2 ^ 62 → forbidden) ∧
    (s.cp0.status.sx = false → 2 ^ 62 ≤ va.toNat → va.toNat < 2 ^ 63 → forbidden) ∧
    (s.cp0.status.kx = false → 2 ^ 63 ≤ va.toNat → va.toNat < 0xFFFFFFFF80000000 → forbidden) ∧
    (2 ^ 40 ≤ va.toNat → va.toNat < 2 ^ 62 → forbidden) ∧
    (2 ^ 62 + 2 ^ 40 ≤ va.toNat → va.toNat < 2 ^ 63 → forbidden) ∧
    (va.toNat / 2 ^ 62 = 2 → va.toNat / 2 ^ 36 % 2 ^ 23 ≠ 0 → forbidden) ∧
    (3 * 2 ^ 62 + (2 ^ 40 - 2 ^ 31) ≤ va.toNat → va.toNat < 0xFFFFFFFF80000000 → forbidden)

/-- A mapped address with legal page masks: no match is a refill exception, one match translates to the frame of the
selected half or raises Invalid or Modified, two matches stop the machine (20_memory.md rules R240 to R247). The refill is
an extended one by `UX`, `SX` or `KX`, whichever belongs to the region of the address (rule R245). -/
def Obligations.MappedAddressesTranslateThroughTheJtlb : Prop :=
  ∀ (s : State) (kind : AccessKind) (va : Dword), Machine.segment s va = .mapped →
    (∀ i, i < tlbSize s → ∀ e, s.tlb[i]? = some e → legalMask e.mask = true) →
    let hit (i : Nat) (e : TlbEntry) : Prop := i < tlbSize s ∧ s.tlb[i]? = some e ∧ e.r.toNat = va.toNat / 2 ^ 62 ∧
      (e.g = true ∨ e.asid = s.cp0.entryHi.asid) ∧
      ∀ b, b < 27 → e.mask.getLsbD b = false → e.vpn2.getLsbD b = va.getLsbD (13 + b)
    let extended : Bool :=
      if va.toNat / 2 ^ 62 = 0 then s.cp0.status.ux else if va.toNat / 2 ^ 62 = 1 then s.cp0.status.sx else s.cp0.status.kx
    ((∀ i e, ¬hit i e) → Machine.translate kind va s = .error (.exc (.tlbRefill (kind == .store) extended va) s)) ∧
    (∀ i j e e', hit i e → hit j e' → i ≠ j → Machine.translate kind va s = .error (.fault .multipleTlbMatch)) ∧
    (∀ i e, hit i e → (∀ j e', hit j e' → j = i) →
      let n := maskBits e.mask
      let p := if va.toNat / 2 ^ (12 + n) % 2 = 1 then e.odd else e.even
      (p.v = false → Machine.translate kind va s = .error (.exc (.tlbInvalid (kind == .store) va) s)) ∧
      (p.v = true → p.d = false → kind = .store → Machine.translate kind va s = .error (.exc (.tlbMod va) s)) ∧
      (p.v = true → (p.d = true ∨ kind ≠ .store) →
        Machine.translate kind va s =
          if p.c = 4 ∨ p.c = 5 then .error (.fault .reservedCacheAttribute)
          else .ok (BitVec.ofNat 36 (p.pfn.toNat / 2 ^ n * 2 ^ n * 4096 + va.toNat % 2 ^ (12 + n)), p.c)))

/-! ## Integer computation -/

/-- `ADDU`, `SUBU`, `ADDIU`: the sign-extended word of the sum or difference; an operand that is no sign-extended word
leaves an unspecified value, and nothing else changes (44_computational.md rules R471, R481, R483, R485). -/
def Obligations.WordAddSubtract : Prop :=
  ∀ (s : State) (rs rt rd : RegNum) (imm : BitVec 16),
    GivesIf (.addu rs rt rd) s rd (IsWord s rs ∧ IsWord s rt) (word (sval s rs + sval s rt)) ∧
    GivesIf (.subu rs rt rd) s rd (IsWord s rs ∧ IsWord s rt) (word (sval s rs - sval s rt)) ∧
    GivesIf (.addiu rs rt imm) s rt (IsWord s rs) (word (sval s rs + imm.toInt))

/-- `ADD`, `SUB`, `ADDI`: the exact result where it fits 32 bits, else Integer Overflow with no register written; on an
operand that is no sign-extended word either happens (44_computational.md rules R471, R472, R480, R482, R484). -/
def Obligations.TrappingWordAddSubtract : Prop :=
  ∀ (s : State) (rs rt rd : RegNum) (imm : BitVec 16),
    let fits (x : Int) : Prop := -(2 ^ 31) ≤ x ∧ x < 2 ^ 31
    let does (i : Instr) (d : RegNum) (ok : Prop) (x : Int) : Prop :=
      (ok → fits x → Gives i s d (BitVec.ofInt 64 x)) ∧
      (ok → ¬fits x → Does i s (fun t => TakesGeneral 12 0x180 s t ∧ KeepsFaultAddress s t)) ∧
      (¬ok → Does i s (fun t => OnlyGpr d s t ∨ TakesGeneral 12 0x180 s t))
    does (.add rs rt rd) rd (IsWord s rs ∧ IsWord s rt) (sval s rs + sval s rt) ∧
    does (.sub rs rt rd) rd (IsWord s rs ∧ IsWord s rt) (sval s rs - sval s rt) ∧
    does (.addi rs rt imm) rt (IsWord s rs) (sval s rs + imm.toInt)

/-- The doubleword additions and subtractions, where 64-bit operations are enabled: modulo 2^64, or Integer Overflow for
the trapping forms (44_computational.md rules R486 to R491). -/
def Obligations.DoublewordAddSubtract : Prop :=
  ∀ (s : State) (rs rt rd : RegNum) (imm : BitVec 16),
    let traps (i : Instr) (d : RegNum) (x : Int) : Prop :=
      (is64 s = true → -(2 ^ 63) ≤ x → x < 2 ^ 63 → Gives i s d (BitVec.ofInt 64 x)) ∧
      (is64 s = true → ¬(-(2 ^ 63) ≤ x ∧ x < 2 ^ 63) →
        Does i s (fun t => TakesGeneral 12 0x180 s t ∧ KeepsFaultAddress s t)) ∧
      (is64 s = false → Raises i s .ri)
    let wraps (i : Instr) (d : RegNum) (x : Int) : Prop :=
      (is64 s = true → Gives i s d (dword x)) ∧ (is64 s = false → Raises i s .ri)
    traps (.dadd rs rt rd) rd (sval s rs + sval s rt) ∧ traps (.dsub rs rt rd) rd (sval s rs - sval s rt) ∧
    traps (.daddi rs rt imm) rt (sval s rs + imm.toInt) ∧
    wraps (.daddu rs rt rd) rd (sval s rs + sval s rt) ∧ wraps (.dsubu rs rt rd) rd (sval s rs - sval s rt) ∧
    wraps (.daddiu rs rt imm) rt (sval s rs + imm.toInt)

/-- The set-on-less-than instructions compare all 64 bits in every mode; the immediate is sign-extended also for the
unsigned form (44_computational.md rules R492 to R495). -/
def Obligations.SetOnLessThan : Prop :=
  ∀ (s : State) (rs rt rd : RegNum) (imm : BitVec 16),
    Gives (.slt rs rt rd) s rd (if sval s rs < sval s rt then 1 else 0) ∧
    Gives (.sltu rs rt rd) s rd (if uval s rs < uval s rt then 1 else 0) ∧
    Gives (.slti rs rt imm) s rt (if sval s rs < imm.toInt then 1 else 0) ∧
    Gives (.sltiu rs rt imm) s rt (if uval s rs < (dword imm.toInt).toNat then 1 else 0)

/-- The logical instructions, bit by bit over all 64 bits, with zero-extended immediates, and `LUI`
(44_computational.md rules R496 to R503). -/
def Obligations.LogicalOperations : Prop :=
  ∀ (s : State) (rs rt rd : RegNum) (imm : BitVec 16),
    let bitwise (i : Instr) (d : RegNum) (f : Nat → Bool) : Prop :=
      Does i s (fun t => OnlyGpr d s t ∧ ∀ b, b < 64 → (readGpr t d).getLsbD b = (d != 0 && f b))
    let x (r : RegNum) (b : Nat) : Bool := (readGpr s r).getLsbD b
    let k (b : Nat) : Bool := decide (b < 16) && imm.getLsbD b
    bitwise (.and rs rt rd) rd (fun b => x rs b && x rt b) ∧
    bitwise (.or rs rt rd) rd (fun b => x rs b || x rt b) ∧
    bitwise (.xor rs rt rd) rd (fun b => xor (x rs b) (x rt b)) ∧
    bitwise (.nor rs rt rd) rd (fun b => !(x rs b || x rt b)) ∧
    bitwise (.andi rs rt imm) rt (fun b => x rs b && k b) ∧
    bitwise (.ori rs rt imm) rt (fun b => x rs b || k b) ∧
    bitwise (.xori rs rt imm) rt (fun b => xor (x rs b) (k b)) ∧
    Gives (.lui rt imm) s rt (BitVec.ofInt 64 (imm.toInt * 2 ^ 16))

/-- The word shifts: the low word shifted, sign-extended; the variable forms read five bits of the amount
(44_computational.md rules R471, R510 to R515). -/
def Obligations.WordShifts : Prop :=
  ∀ (s : State) (rs rt rd sa : RegNum),
    let n := uval s rs % 32
    GivesIf (.sll rt rd sa) s rd (IsWord s rt) (word ((lowval s rt * 2 ^ sa.toNat : Nat) : Int)) ∧
    GivesIf (.srl rt rd sa) s rd (IsWord s rt) (word ((lowval s rt / 2 ^ sa.toNat : Nat) : Int)) ∧
    GivesIf (.sra rt rd sa) s rd (IsWord s rt) (word (lowsval s rt / 2 ^ sa.toNat)) ∧
    GivesIf (.sllv rs rt rd) s rd (IsWord s rt) (word ((lowval s rt * 2 ^ n : Nat) : Int)) ∧
    GivesIf (.srlv rs rt rd) s rd (IsWord s rt) (word ((lowval s rt / 2 ^ n : Nat) : Int)) ∧
    GivesIf (.srav rs rt rd) s rd (IsWord s rt) (word (lowsval s rt / 2 ^ n))

/-- The doubleword shifts, where 64-bit operations are enabled; the `32` forms add 32 to the amount, the variable forms
read six bits of it (44_computational.md rules R516 to R524). -/
def Obligations.DoublewordShifts : Prop :=
  ∀ (s : State) (rs rt rd sa : RegNum),
    let n := uval s rs % 64
    let does (i : Instr) (v : Dword) : Prop := (is64 s = true → Gives i s rd v) ∧ (is64 s = false → Raises i s .ri)
    does (.dsll rt rd sa) (BitVec.ofNat 64 (uval s rt * 2 ^ sa.toNat)) ∧
    does (.dsrl rt rd sa) (BitVec.ofNat 64 (uval s rt / 2 ^ sa.toNat)) ∧
    does (.dsra rt rd sa) (dword (sval s rt / 2 ^ sa.toNat)) ∧
    does (.dsll32 rt rd sa) (BitVec.ofNat 64 (uval s rt * 2 ^ (sa.toNat + 32))) ∧
    does (.dsrl32 rt rd sa) (BitVec.ofNat 64 (uval s rt / 2 ^ (sa.toNat + 32))) ∧
    does (.dsra32 rt rd sa) (dword (sval s rt / 2 ^ (sa.toNat + 32))) ∧
    does (.dsllv rs rt rd) (BitVec.ofNat 64 (uval s rt * 2 ^ n)) ∧
    does (.dsrlv rs rt rd) (BitVec.ofNat 64 (uval s rt / 2 ^ n)) ∧
    does (.dsrav rs rt rd) (dword (sval s rt / 2 ^ n))

/-- The multiplies: the full product in `HI`, `LO`; `MAD` and `MADU` add it to the accumulator; `MUL` writes the low
word and leaves `HI`, `LO` unspecified (44_computational.md rules R530, R531, R534, R535; 42_integer_impl_specific.md
rules R401 to R403). -/
def Obligations.Multiplies : Prop :=
  ∀ (s : State) (rs rt rd : RegNum),
    let words := IsWord s rs ∧ IsWord s rt
    let p : Int := lowsval s rs * lowsval s rt
    let u : Int := ((lowval s rs * lowval s rt : Nat) : Int)
    let acc : Int := (((s.hi.toNat % 2 ^ 32) * 2 ^ 32 + s.lo.toNat % 2 ^ 32 : Nat) : Int)
    GivesHiLo (.mult rs rt) s words (word (p / 2 ^ 32)) (word p) ∧
    GivesHiLo (.multu rs rt) s words (word (u / 2 ^ 32)) (word u) ∧
    GivesHiLo (.mad rs rt) s True (word ((acc + p) / 2 ^ 32)) (word (acc + p)) ∧
    GivesHiLo (.madu rs rt) s True (word ((acc + u) / 2 ^ 32)) (word (acc + u)) ∧
    Does (.mul rs rt rd) s (fun t => Holds t rd (word p) ∧ KeepsGprBut rd s t ∧ t.fpu = s.fpu ∧ KeepsControl s t ∧
      t.llBit = s.llBit ∧ KeepsRest s t ∧ KeepsMem s t ∧ Continues s t) ∧
    (is64 s = true →
      GivesHiLo (.dmult rs rt) s True (dword (sval s rs * sval s rt / 2 ^ 64)) (dword (sval s rs * sval s rt)) ∧
      GivesHiLo (.dmultu rs rt) s True (BitVec.ofNat 64 (uval s rs * uval s rt / 2 ^ 64))
        (BitVec.ofNat 64 (uval s rs * uval s rt)))

/-- The divides: quotient truncated toward zero in `LO`, remainder with the sign of the dividend in `HI`; a zero divisor,
the one overflowing quotient and operands that are no sign-extended words leave unspecified values
(44_computational.md rules R471, R532, R533, R536, R537). -/
def Obligations.Divides : Prop :=
  ∀ (s : State) (rs rt : RegNum),
    GivesHiLo (.div rs rt) s
      (IsWord s rs ∧ IsWord s rt ∧ sval s rt ≠ 0 ∧ ¬(sval s rs = -(2 ^ 31) ∧ sval s rt = -1))
      (word ((sval s rs).tmod (sval s rt))) (word ((sval s rs).tdiv (sval s rt))) ∧
    GivesHiLo (.divu rs rt) s (IsWord s rs ∧ IsWord s rt ∧ lowval s rt ≠ 0)
      (word ((lowval s rs % lowval s rt : Nat) : Int)) (word ((lowval s rs / lowval s rt : Nat) : Int)) ∧
    (is64 s = true →
      GivesHiLo (.ddiv rs rt) s (sval s rt ≠ 0 ∧ ¬(sval s rs = -(2 ^ 63) ∧ sval s rt = -1))
        (dword ((sval s rs).tmod (sval s rt))) (dword ((sval s rs).tdiv (sval s rt))) ∧
      GivesHiLo (.ddivu rs rt) s (uval s rt ≠ 0) (BitVec.ofNat 64 (uval s rs % uval s rt))
        (BitVec.ofNat 64 (uval s rs / uval s rt)))

/-- The moves from and to `HI` and `LO` (44_computational.md rules R540 to R543). -/
def Obligations.HiLoMoves : Prop :=
  ∀ (s : State) (rs rd : RegNum),
    Gives (.mfhi rd) s rd s.hi ∧ Gives (.mflo rd) s rd s.lo ∧
    GivesHiLo (.mthi rs) s True (readGpr s rs) s.lo ∧ GivesHiLo (.mtlo rs) s True s.hi (readGpr s rs)

/-! ## Jumps and branches -/

/-- The jumps execute their slot and continue at the target; the linking ones write the address after the slot
(45_jump_branch.md rules R570 to R573). -/
def Obligations.Jumps : Prop :=
  ∀ (s : State) (rs rd : RegNum) (target : BitVec 26), s.inDelaySlot = false →
    let region := BitVec.ofNat 64 ((s.pc + 4).toNat / 2 ^ 28 * 2 ^ 28 + target.toNat * 4)
    Does (.j target) s (fun t => OnlyLink none s t ∧ EntersSlot region s t) ∧
    Does (.jal target) s (fun t => OnlyLink (some 31) s t ∧ EntersSlot region s t) ∧
    Does (.jr rs) s (fun t => OnlyLink none s t ∧ EntersSlot (readGpr s rs) s t) ∧
    Does (.jalr rs rd) s (fun t => OnlyLink (some rd) s t ∧ EntersSlot (readGpr s rs) s t)

/-- The conditional branches: taken or not, the slot executes; the linking ones always link (45_jump_branch.md rules R560,
R562, R574 to R581). -/
def Obligations.ConditionalBranches : Prop :=
  ∀ (s : State) (rs rt : RegNum) (offset : BitVec 16), s.inDelaySlot = false →
    Branches (.beq rs rt offset) s (uval s rs = uval s rt) offset none ∧
    Branches (.bne rs rt offset) s (uval s rs ≠ uval s rt) offset none ∧
    Branches (.blez rs offset) s (sval s rs ≤ 0) offset none ∧
    Branches (.bgtz rs offset) s (0 < sval s rs) offset none ∧
    Branches (.bltz rs offset) s (sval s rs < 0) offset none ∧
    Branches (.bgez rs offset) s (0 ≤ sval s rs) offset none ∧
    Branches (.bltzal rs offset) s (sval s rs < 0) offset (some 31) ∧
    Branches (.bgezal rs offset) s (0 ≤ sval s rs) offset (some 31)

/-- The branch-likely instructions: not taken, they skip their slot (45_jump_branch.md rules R560, R562, R582 to
R589). -/
def Obligations.LikelyBranches : Prop :=
  ∀ (s : State) (rs rt : RegNum) (offset : BitVec 16), s.inDelaySlot = false →
    BranchesLikely (.beql rs rt offset) s (uval s rs = uval s rt) offset none ∧
    BranchesLikely (.bnel rs rt offset) s (uval s rs ≠ uval s rt) offset none ∧
    BranchesLikely (.blezl rs offset) s (sval s rs ≤ 0) offset none ∧
    BranchesLikely (.bgtzl rs offset) s (0 < sval s rs) offset none ∧
    BranchesLikely (.bltzl rs offset) s (sval s rs < 0) offset none ∧
    BranchesLikely (.bgezl rs offset) s (0 ≤ sval s rs) offset none ∧
    BranchesLikely (.bltzall rs offset) s (sval s rs < 0) offset (some 31) ∧
    BranchesLikely (.bgezall rs offset) s (0 ≤ sval s rs) offset (some 31)

/-- A jump or branch in a delay slot stops the machine, whatever its condition (45_jump_branch.md rule R561). -/
def Obligations.BranchInDelaySlotStops : Prop :=
  ∀ (s : State) (rs rt rd : RegNum) (offset : BitVec 16) (target : BitVec 26) (cc : BitVec 3),
    s.inDelaySlot = true →
    (∀ i ∈ [Instr.j target, .jal target, .jr rs, .jalr rs rd, .beq rs rt offset, .bne rs rt offset, .blez rs offset,
        .bgtz rs offset, .bltz rs offset, .bgez rs offset, .bltzal rs offset, .bgezal rs offset, .beql rs rt offset,
        .bnel rs rt offset, .blezl rs offset, .bgtzl rs offset, .bltzl rs offset, .bgezl rs offset, .bltzall rs offset,
        .bgezall rs offset],
      exec i s = .fault .branchInDelaySlot) ∧
    (s.cp0.status.cu1 = true → isMips4 s = true →
      ∀ i ∈ [Instr.bc1f cc offset, .bc1t cc offset, .bc1fl cc offset, .bc1tl cc offset],
        exec i s = .fault .branchInDelaySlot)

/-! ## Memory -/

/-- The aligned loads deliver the bytes at the address, in the processor's byte order, sign- or zero-extended
(43_load_store.md rules R412 to R420; 20_memory.md rule R252): from memory; through the explicit data cache from a line
that hits; and on a miss from memory into a line (20_memory.md rules R263, R268). -/
def Obligations.AlignedLoads : Prop :=
  ∀ (s : State) (base rt : RegNum) (offset : BitVec 16) (pa : PAddr) (attr : BitVec 3),
    let va := effAddr s base offset
    let loads (x : Nat → Nat) (reaches : Nat → Prop) (gives : Instr → Dword → Prop) : Prop :=
      let signed (n : Nat) : Dword := BitVec.ofInt 64 ((x n : Int).bmod (256 ^ n))
      let unsigned (n : Nat) : Dword := BitVec.ofNat 64 (x n)
      (reaches 1 → gives (.lb base rt offset) (signed 1) ∧ gives (.lbu base rt offset) (unsigned 1)) ∧
      (reaches 2 → gives (.lh base rt offset) (signed 2) ∧ gives (.lhu base rt offset) (unsigned 2)) ∧
      (reaches 4 → gives (.lw base rt offset) (signed 4)) ∧
      (reaches 4 → is64 s = true → gives (.lwu base rt offset) (unsigned 4)) ∧
      (reaches 8 → is64 s = true → gives (.ld base rt offset) (unsigned 8))
    (Direct s attr →
      loads (numberAt (bigEndianCpu s) s.mem pa.toNat) (fun n => LoadReaches n va s pa attr) (fun i v => Gives i s rt v)) ∧
    (∀ k, lookupD s pa = .ok (some k) →
      loads (lineNumber (bigEndianCpu s) (dLine s k).data (pa.toNat % 32)) (fun n => AccessCached .load n va s pa attr)
        (fun i v => Gives i s rt v)) ∧
    (MissesCleanly s pa attr →
      loads (numberAt (bigEndianCpu s) s.mem pa.toNat) (fun n => AccessCached .load n va s pa attr)
        (fun i v => Does i s (fun t => Holds t rt v ∧ OnlyGprAndCaches rt s t ∧ LineFilled pa s t)))

/-- The aligned stores write the low bytes of the register in the processor's byte order and nothing else
(43_load_store.md rules R412, R413, R421 to R424; 20_memory.md rule R252): to memory, or through the explicit data cache
(20_memory.md rules R263, R264, R266, R268). That a write to ROM or to a hole is lost, and that the region of the first
byte decides, is the model's choice (log entries 10, 38). -/
def Obligations.AlignedStores : Prop :=
  ∀ (s : State) (base rt : RegNum) (offset : BitVec 16) (pa : PAddr) (attr : BitVec 3),
    let va := effAddr s base offset
    (Direct s attr →
      (StoreReaches 1 va s pa attr → Stores (.sb base rt offset) s pa 1 (uval s rt)) ∧
      (StoreReaches 2 va s pa attr → Stores (.sh base rt offset) s pa 2 (uval s rt)) ∧
      (StoreReaches 4 va s pa attr → Stores (.sw base rt offset) s pa 4 (uval s rt)) ∧
      (StoreReaches 8 va s pa attr → is64 s = true → Stores (.sd base rt offset) s pa 8 (uval s rt))) ∧
    StoresCached (.sb base rt offset) s va pa attr 1 (uval s rt) ∧
    StoresCached (.sh base rt offset) s va pa attr 2 (uval s rt) ∧
    StoresCached (.sw base rt offset) s va pa attr 4 (uval s rt) ∧
    (is64 s = true → StoresCached (.sd base rt offset) s va pa attr 8 (uval s rt))

/-- The unaligned loads merge the bytes of the aligned unit on their side of the address into the register
(43_load_store.md rules R429 to R431, R434, R435): from memory; through the explicit data cache from a line that hits; and
on a miss from memory into a line (20_memory.md rules R263, R268). -/
def Obligations.UnalignedLoads : Prop :=
  ∀ (s : State) (base rt : RegNum) (offset : BitVec 16) (pa : PAddr) (attr : BitVec 3),
    let va := effAddr s base offset
    let big := bigEndianCpu s
    let loads (x : Nat → Nat → Nat) (reaches : Nat → Nat → Prop) (gives : Instr → Dword → Prop) : Prop :=
      (let a := leftFirst big 4 va pa
       let k := leftBytes big 4 va
       reaches a k →
        gives (.lwl base rt offset) (word ((x a k * 256 ^ (4 - k) + lowval s rt % 256 ^ (4 - k) : Nat) : Int))) ∧
      (let a := rightFirst big 4 va pa
       let k := rightBytes big 4 va
       reaches a k → gives (.lwr base rt offset) (word ((x a k + lowval s rt / 256 ^ k * 256 ^ k : Nat) : Int))) ∧
      (let a := leftFirst big 8 va pa
       let k := leftBytes big 8 va
       reaches a k → is64 s = true →
        gives (.ldl base rt offset) (BitVec.ofNat 64 (x a k * 256 ^ (8 - k) + uval s rt % 256 ^ (8 - k)))) ∧
      (let a := rightFirst big 8 va pa
       let k := rightBytes big 8 va
       reaches a k → is64 s = true →
        gives (.ldr base rt offset) (BitVec.ofNat 64 (x a k + uval s rt / 256 ^ k * 256 ^ k)))
    (Direct s attr →
      loads (numberAt big s.mem) (fun a k => LoadsPart va a k s pa attr) (fun i v => Gives i s rt v)) ∧
    (∀ line, lookupD s pa = .ok (some line) →
      loads (fun a k => lineNumber big (dLine s line).data (a % 32) k) (fun a k => PartCached .load va a k s pa attr)
        (fun i v => Gives i s rt v)) ∧
    loads (numberAt big s.mem)
      (fun a k => PartCached .load va a k s pa attr ∧ MissesCleanly s (BitVec.ofNat 36 a) attr)
      (fun i v => Does i s (fun t => Holds t rt v ∧ OnlyGprAndCaches rt s t ∧ LineFilled pa s t))

/-- The unaligned stores write the most or least significant bytes of the register to the bytes of the aligned unit on
their side of the address (43_load_store.md rules R429, R432, R433, R436, R437): to memory, or through the explicit data
cache (20_memory.md rules R263, R264, R266, R268). That a write to ROM or to a hole is lost is the model's choice (log
entries 10, 38). -/
def Obligations.UnalignedStores : Prop :=
  ∀ (s : State) (base rt : RegNum) (offset : BitVec 16) (pa : PAddr) (attr : BitVec 3),
    let va := effAddr s base offset
    let big := bigEndianCpu s
    let stores (reaches : Nat → Nat → Prop) (does : Instr → PAddr → Nat → Nat → Prop) : Prop :=
      (let a := leftFirst big 4 va pa
       let k := leftBytes big 4 va
       reaches a k → does (.swl base rt offset) (BitVec.ofNat 36 a) k (lowval s rt / 256 ^ (4 - k))) ∧
      (let a := rightFirst big 4 va pa
       let k := rightBytes big 4 va
       reaches a k → does (.swr base rt offset) (BitVec.ofNat 36 a) k (lowval s rt)) ∧
      (let a := leftFirst big 8 va pa
       let k := leftBytes big 8 va
       reaches a k → is64 s = true → does (.sdl base rt offset) (BitVec.ofNat 36 a) k (uval s rt / 256 ^ (8 - k))) ∧
      (let a := rightFirst big 8 va pa
       let k := rightBytes big 8 va
       reaches a k → is64 s = true → does (.sdr base rt offset) (BitVec.ofNat 36 a) k (uval s rt))
    (Direct s attr →
      stores (fun a k => StoresPart va a k s pa attr) (fun i first k v => Stores i s first k v)) ∧
    stores (fun a k => PartCached .store va a k s pa attr)
      (fun i first k v => StoresThrough i s (OnlyMemSystem s) first attr k v)

/-- A load-linked sets the link bit and `LLAddr`; a store-conditional stores and answers 1 while the link holds, and
answers 0 and stores nothing when it does not (43_load_store.md rules R440 to R443); both reach memory, or go through the
explicit data cache (20_memory.md rules R263, R264, R266, R268). That a conditional store to ROM or to a hole answers 1 and
is lost is the model's choice (log entries 10, 38). -/
def Obligations.LinkedLoadsAndConditionalStores : Prop :=
  ∀ (s : State) (base rt : RegNum) (offset : BitVec 16) (pa : PAddr) (attr : BitVec 3),
    let va := effAddr s base offset
    let links (v : Dword) (t : State) : Prop :=
      Holds t rt v ∧ KeepsGprBut rt s t ∧ KeepsHiLo s t ∧ t.fpu = s.fpu ∧ t.tlb = s.tlb ∧ t.llBit = true ∧
        t.cp0 = { s.cp0 with llAddr := BitVec.ofNat 32 (pa.toNat / 16) } ∧ KeepsMem s t ∧ Continues s t
    let loads (x : Nat → Nat) (reaches : Nat → Prop) (rest : State → Prop) : Prop :=
      (reaches 4 → Does (.ll base rt offset) s (fun t => links (BitVec.ofInt 64 ((x 4 : Int).bmod (2 ^ 32))) t ∧ rest t)) ∧
      (reaches 8 → is64 s = true → Does (.lld base rt offset) s (fun t => links (BitVec.ofNat 64 (x 8)) t ∧ rest t))
    let stores (i : Instr) (n : Nat) : Prop := Does i s (fun t =>
      Holds t rt 1 ∧ KeepsGprBut rt s t ∧ KeepsHiLo s t ∧ t.fpu = s.fpu ∧ KeepsControl s t ∧ t.llBit = true ∧
        KeepsRest s t ∧ KeepsMemBut pa.toNat n s t ∧ Continues s t ∧
        (regionKind s pa = .ram → Memory.wf s.mem = true →
          numberAt (bigEndianCpu s) t.mem pa.toNat n = uval s rt % 256 ^ n) ∧
        (regionKind s pa ≠ .ram → KeepsMem s t))
    (Direct s attr →
      loads (numberAt (bigEndianCpu s) s.mem pa.toNat) (fun n => LoadReaches n va s pa attr) (KeepsRest s) ∧
      (StoreReaches 4 va s pa attr → s.llBit = true → stores (.sc base rt offset) 4) ∧
      (StoreReaches 8 va s pa attr → is64 s = true → s.llBit = true → stores (.scd base rt offset) 8)) ∧
    (∀ k, lookupD s pa = .ok (some k) →
      loads (lineNumber (bigEndianCpu s) (dLine s k).data (pa.toNat % 32)) (fun n => AccessCached .load n va s pa attr)
        (KeepsRest s)) ∧
    (MissesCleanly s pa attr →
      loads (numberAt (bigEndianCpu s) s.mem pa.toNat) (fun n => AccessCached .load n va s pa attr)
        (fun t => KeepsRest s { t with caches := s.caches } ∧ LineFilled pa s t)) ∧
    (s.llBit = true →
      (AccessCached .store 4 va s pa attr →
        StoresThrough (.sc base rt offset) s (GprAndMemSystem rt 1 s) pa attr 4 (uval s rt)) ∧
      (AccessCached .store 8 va s pa attr → is64 s = true →
        StoresThrough (.scd base rt offset) s (GprAndMemSystem rt 1 s) pa attr 8 (uval s rt))) ∧
    (s.llBit = false →
      (StoreReaches 4 va s pa attr ∨ AccessCached .store 4 va s pa attr → Gives (.sc base rt offset) s rt 0) ∧
      (StoreReaches 8 va s pa attr ∨ AccessCached .store 8 va s pa attr → is64 s = true →
        Gives (.scd base rt offset) s rt 0))

/-- Where a load or a store of any form does not complete: a misaligned address is an Address Error, a failed translation
its exception, a watched word a Data Watch, in this order (43_load_store.md rules R410, R429; 20_memory.md rule R255;
60_exceptions.md rule R854). The first clause says when a Watch register matches an access inside one doubleword (rule
R854). That a read of a hole is a precise data bus error under every attribute, that a device window
stops, and that the region of the first byte decides, is the model's choice (log entries 10, 38). -/
def Obligations.AccessesThatTrap : Prop :=
  (∀ (s : State) (kind : AccessKind) (pa : PAddr) (n : Nat), 1 ≤ n → pa.toNat % 8 + n ≤ 8 →
    let mask := s.cp0.watchMask
    ((watchMatch s kind pa n).1 = true ↔ WatchMatches s.cp0.watch1 mask.w1 mask.mask kind pa n) ∧
    ((watchMatch s kind pa n).2 = true ↔ WatchMatches s.cp0.watch2 mask.w2 mask.mask kind pa n)) ∧
  ∀ (s : State) (i : Instr) (a : Access), a.ready →
    (loadForm s i = some a →
      (a.va.toNat % a.align ≠ 0 → Raises i s (.adE false a.va)) ∧
      (a.va.toNat % a.align = 0 →
        (∀ e, Machine.translate .load a.va s = .error (.exc e s) → Raises i s e) ∧
        (∀ f, Machine.translate .load a.va s = .error (.fault f) → exec i s = .fault f) ∧
        (∀ pa attr, Machine.translate .load a.va s = .ok (pa, attr) →
          (∀ w1 w2, watchMatch s .load (a.first pa) a.count = (w1, w2) → (w1 || w2) = true → Raises i s (.dwe w1 w2)) ∧
          (watchMatch s .load (a.first pa) a.count = (false, false) → Direct s attr →
            (regionKind s (a.first pa) = .hole → Raises i s (.dbe (a.first pa))) ∧
            (regionKind s (a.first pa) = .device → exec i s = .refused .deviceAccess))))) ∧
    (storeForm s i = some a →
      (a.va.toNat % a.align ≠ 0 → Raises i s (.adE true a.va)) ∧
      (a.va.toNat % a.align = 0 →
        (∀ e, Machine.translate .store a.va s = .error (.exc e s) → Raises i s e) ∧
        (∀ f, Machine.translate .store a.va s = .error (.fault f) → exec i s = .fault f) ∧
        (∀ pa attr, Machine.translate .store a.va s = .ok (pa, attr) →
          (∀ w1 w2, watchMatch s .store (a.first pa) a.count = (w1, w2) → (w1 || w2) = true → Raises i s (.dwe w1 w2)) ∧
          (watchMatch s .store (a.first pa) a.count = (false, false) → Direct s attr →
            (a.linked = true → s.llBit = true) → regionKind s (a.first pa) = .device →
            exec i s = .refused .deviceAccess))))

/-! ## Conditional moves, prefetch, traps -/

/-- The conditional moves test all 64 bits or a condition code; a prefetch writes no register and, but for hint 30 of
revision 2.x, no memory; it never raises an address or TLB exception; an address that leaves its base's region stops
(47_mips4_additions.md rules R631 to R634, R640, R641). Through the explicit data cache hint 30 of revision 2.x makes a
missing line valid, modified and zero, with a modified victim written back first, and leaves a hit alone; every other hint
may bring the line in as a load does. That such a line may also stay out, and that one that cannot be read stays out, is the
model's choice (log entry 39). -/
def Obligations.ConditionalMovesAndPrefetch : Prop :=
  ∀ (s : State) (rs rt rd base index hint : RegNum) (cc : BitVec 3) (offset : BitVec 16), isMips4 s = true →
    MovesWhen (.movn rs rt rd) s (uval s rt ≠ 0) rd (readGpr s rs) ∧
    MovesWhen (.movz rs rt rd) s (uval s rt = 0) rd (readGpr s rs) ∧
    (s.cp0.status.cu1 = true →
      MovesWhen (.movf rs cc rd) s (s.fpu.fcr31.cc.getLsbD cc.toNat = false) rd (readGpr s rs) ∧
      MovesWhen (.movt rs cc rd) s (s.fpu.fcr31.cc.getLsbD cc.toNat = true) rd (readGpr s rs)) ∧
    (∀ (i : Instr) (va : Dword),
      (i = .pref base hint offset ∧ va = effAddr s base offset) ∨
        (i = .prefx base index hint ∧ va = indexAddr s base index ∧ s.cp0.status.cu1 = true) →
      (va.toNat / 2 ^ 62 ≠ uval s base / 2 ^ 62 → exec i s = .fault .prefetchRegion) ∧
      (va.toNat / 2 ^ 62 = uval s base / 2 ^ 62 →
        (∀ e, Machine.translate .load va s = .error (.exc e s) → Does i s (OnlyPc s)) ∧
        (∀ pa attr, Machine.translate .load va s = .ok (pa, attr) →
          let zeroing : Prop := hint = 30 ∧ 0x20 ≤ s.params.rev.toNat
          (attr = 2 ∨ attr = 6 → Does i s (OnlyPc s)) ∧
          (Transparent s → ¬zeroing → Does i s (OnlyPc s)) ∧
          (Transparent s → hint = 30 → Does i s (fun t => OnlyMem (pa.toNat / 32 * 32) 32 s t ∧
            (Memory.wf s.mem = true →
              KeepsMem s t ∨ ∀ a, pa.toNat / 32 * 32 ≤ a → a < pa.toNat / 32 * 32 + 32 → Memory.read t.mem a = 0))) ∧
          (ThroughCaches s attr →
            (∀ k, lookupD s pa = .ok (some k) → Does i s (OnlyPc s)) ∧
            (lookupD s pa = .ok none → zeroing →
              (CleanWays s pa → Does i s (fun t => OnlyMemSystem s t ∧ KeepsMem s t ∧
                ∃ k, HoldsLineD pa true s t k ∧ (dLine t k).data = 0)) ∧
              (secondaryOn s = false → tertiaryOn s = false → Memory.wf s.mem = true →
                (∀ k ∈ primaryWays pa, regionKind s (dLineAddr (dLine s k) k) = .ram) →
                Does i s (fun t => OnlyMemSystem s t ∧ ∃ k, HoldsLineD pa true s t k ∧ (dLine t k).data = 0 ∧
                  if (dLine s k).state = 3 ∧ (dLine s k).w = true
                  then LineWritten s t (dLineAddr (dLine s k) k) (dLine s k).data else KeepsMem s t))) ∧
            (MissesCleanly s pa attr → ¬zeroing →
              Does i s (fun t => OnlyPc s t ∨ (OnlyMemSystem s t ∧ KeepsMem s t ∧ LineFilled pa s t))) ∧
            (lookupD s pa = .ok none → FillsFromMemory s attr → ¬zeroing →
              regionKind s pa = .hole ∨ regionKind s pa = .device → Does i s (OnlyPc s))))))

/-- `SYSCALL` and `BREAK` raise their exceptions, the conditional traps theirs when the condition holds, `SYNC` changes
nothing (46_special_trap.md rules R600, R601, R603, R605 to R616). -/
def Obligations.SystemCallsAndTraps : Prop :=
  ∀ (s : State) (rs rt : RegNum) (code : BitVec 20) (c : BitVec 10) (imm : BitVec 16) (stype : BitVec 5),
    Does (.syscall code) s (fun t => TakesGeneral 8 0x180 s t ∧ KeepsFaultAddress s t) ∧
    Does (.brk code) s (fun t => TakesGeneral 9 0x180 s t ∧ KeepsFaultAddress s t) ∧
    Does (.sync stype) s (OnlyPc s) ∧
    TrapsWhen (.tge rs rt c) s (sval s rt ≤ sval s rs) ∧
    TrapsWhen (.tgeu rs rt c) s (uval s rt ≤ uval s rs) ∧
    TrapsWhen (.tlt rs rt c) s (sval s rs < sval s rt) ∧
    TrapsWhen (.tltu rs rt c) s (uval s rs < uval s rt) ∧
    TrapsWhen (.teq rs rt c) s (uval s rs = uval s rt) ∧
    TrapsWhen (.tne rs rt c) s (uval s rs ≠ uval s rt) ∧
    TrapsWhen (.tgei rs imm) s (imm.toInt ≤ sval s rs) ∧
    TrapsWhen (.tgeiu rs imm) s ((dword imm.toInt).toNat ≤ uval s rs) ∧
    TrapsWhen (.tlti rs imm) s (sval s rs < imm.toInt) ∧
    TrapsWhen (.tltiu rs imm) s (uval s rs < (dword imm.toInt).toNat) ∧
    TrapsWhen (.teqi rs imm) s (sval s rs = imm.toInt) ∧
    TrapsWhen (.tnei rs imm) s (sval s rs ≠ imm.toInt)

/-- The encodings of the absent coprocessor 2 raise `CpU(2)` while `CU2` = 0, else Reserved Instruction, before any
address is computed (46_special_trap.md rule R620). -/
def Obligations.CoprocessorTwoIsAbsent : Prop :=
  ∀ (s : State) (base rt : RegNum) (offset : BitVec 16) (cofun : BitVec 26),
    ∀ i ∈ [Instr.lwc2 base rt offset, .ldc2 base rt offset, .swc2 base rt offset, .sdc2 base rt offset, .cop2 cofun],
      (s.cp0.status.cu2 = false →
        Does i s (fun t => TakesGeneral 11 0x180 s t ∧ t.cp0.cause.ce = 2 ∧ KeepsFaultAddress s t)) ∧
      (s.cp0.status.cu2 = true → Does i s (fun t => TakesGeneral 10 0x180 s t ∧ KeepsFaultAddress s t))

/-! ## Coprocessor 0 -/

/-- The moves from and to CP0: a read delivers the register, a write changes its writable bits with the side effects of
the register and nothing else; a doubleword move of a 32-bit register carries an unspecified value
(40_cp0_instructions.md rules R352 to R355, R362 to R364; 10_state.md rules R62, R121 to R165). -/
def Obligations.Cp0Moves : Prop :=
  ∀ (s : State) (rt rd : RegNum), cp0Usable s = true →
    (∀ v, readCp0 s rd = some v → Gives (.mfc0 rt rd) s rt (word (v.toNat : Int))) ∧
    (readCp0 s rd = none → Does (.mfc0 rt rd) s (fun t => OnlyGpr rt s t ∧ IsWord t rt)) ∧
    Does (.mtc0 rt rd) s (Cp0Written rd (readGpr s rt) s) ∧
    (∀ v, readCp0Control s rd = some v → Gives (.cfc0 rt rd) s rt (word (v.toNat : Int))) ∧
    (readCp0Control s rd = none → Does (.cfc0 rt rd) s (fun t => OnlyGpr rt s t ∧ IsWord t rt)) ∧
    Does (.ctc0 rt rd) s (fun t => OnlyCp0 s t ∧
      (∀ old, readCp0Control s rd = some old → readCp0Control t rd =
        some ((old &&& ~~~(cp0ControlMask rd)) ||| (low32 (readGpr s rt) &&& cp0ControlMask rd))) ∧
      (∀ q, q ≠ rd → readCp0Control t q = readCp0Control s q) ∧
      (∀ q, q ≠ 13 → readCp0 t q = readCp0 s q)) ∧
    (is64 s = true → rd.toNat ∈ [2, 3, 4, 8, 10, 14, 18, 19, 20, 30] →
      (∀ v, readCp0 s rd = some v → Gives (.dmfc0 rt rd) s rt v) ∧
      Does (.dmtc0 rt rd) s (Cp0Written rd (readGpr s rt) s)) ∧
    (is64 s = true → rd.toNat ∉ [2, 3, 4, 8, 10, 14, 18, 19, 20, 30] →
      Does (.dmfc0 rt rd) s (OnlyGpr rt s) ∧ Does (.dmtc0 rt rd) s (fun t => ∃ u, Cp0Written rd u s t))

/-- The TLB operations: a write stores the entry the registers describe at `Index` or `Random`, a read loads the
registers from an entry, a probe finds the entry that matches `EntryHi`; an index that names no entry, a double match and
an empty range for `Random` stop (40_cp0_instructions.md rules R358 to R361; 10_state.md rule R170). -/
def Obligations.TlbOperations : Prop :=
  ∀ (s : State), cp0Usable s = true →
    let lo0 := s.cp0.entryLo0
    let lo1 := s.cp0.entryLo1
    let entry : TlbEntry :=
      { mask := s.cp0.pageMask, r := s.cp0.entryHi.r, vpn2 := s.cp0.entryHi.vpn2, asid := s.cp0.entryHi.asid
        g := lo0.g && lo1.g, even := { pfn := lo0.pfn, c := lo0.c, d := lo0.d, v := lo0.v }
        odd := { pfn := lo1.pfn, c := lo1.c, d := lo1.d, v := lo1.v } }
    let i := s.cp0.index.index
    let hit (k : Nat) (e : TlbEntry) : Prop := k < tlbSize s ∧ s.tlb[k]? = some e ∧ e.r = s.cp0.entryHi.r ∧
      (e.g = true ∨ e.asid = s.cp0.entryHi.asid) ∧
      ∀ b, b < 27 → e.mask.getLsbD b = false → e.vpn2.getLsbD b = s.cp0.entryHi.vpn2.getLsbD b
    (i.toNat < tlbSize s → Does .tlbwi s (OnlyTlbEntry ⟨i.toNat, i.isLt⟩ entry s)) ∧
    (tlbSize s ≤ i.toNat → exec .tlbwi s = .fault .tlbIndexOutOfRange ∧ exec .tlbr s = .fault .tlbIndexOutOfRange) ∧
    (s.cp0.wired.toNat < tlbSize s → Does .tlbwr s (OnlyTlbEntry ⟨s.cp0.random.toNat, s.cp0.random.isLt⟩ entry s)) ∧
    (tlbSize s ≤ s.cp0.wired.toNat → exec .tlbwr s = .fault .wiredOutOfRange) ∧
    (i.toNat < tlbSize s → ∀ e, s.tlb[i.toNat]? = some e → Does .tlbr s (fun t => OnlyCp0 s t ∧
      t.cp0 = { s.cp0 with pageMask := e.mask, entryHi := t.cp0.entryHi
                           entryLo0 := { pfn := e.even.pfn, c := e.even.c, d := e.even.d, v := e.even.v, g := e.g }
                           entryLo1 := { pfn := e.odd.pfn, c := e.odd.c, d := e.odd.d, v := e.odd.v, g := e.g } } ∧
      t.cp0.entryHi.r = e.r ∧ t.cp0.entryHi.asid = e.asid ∧
      ∀ b, b < 27 → e.mask.getLsbD b = false → t.cp0.entryHi.vpn2.getLsbD b = e.vpn2.getLsbD b)) ∧
    ((∀ k e, ¬hit k e) → Does .tlbp s (fun t => OnlyCp0 s t ∧ t.cp0.index.p = true ∧
      t.cp0 = { s.cp0 with index := t.cp0.index })) ∧
    (∀ k e, hit k e → (∀ j e', hit j e' → j = k) → Does .tlbp s (fun t => OnlyCp0 s t ∧
      t.cp0 = { s.cp0 with index := { p := false, index := BitVec.ofNat 6 k } })) ∧
    (∀ j k e e', hit j e → hit k e' → j ≠ k → exec .tlbp s = .fault .multipleTlbMatch)

/-! ## The `CACHE` instruction -/

/-- What the `CACHE` operations do once permission and translation are passed (41_cache_instruction.md rules R380, R381,
R386 to R396). Transparent caches (rule R398): most change nothing, the tag loads leave unspecified values in `TagLo`, `TagHi`
and `ECC`, the secondary hits set `CH`, the discarding ones can lose only bytes not yet written back in the lines they
select, which then read as a value held before, `Create_Dirty_Exclusive` can change only its line. Explicit caches: the
invalidations, tag stores, tag loads, hits and fills act on the line selected; a dirty secondary line goes below, with the
data cache's data where that is modified (rule R385). Which bytes the model holds as not written back is its own record (log
entry 25), and how it holds lines, with two dirty secondary states, is log entry 26, as is that a
secondary line whose writeback takes the data cache's data takes that data too. -/
def Obligations.CacheOperations : Prop :=
  ∀ (s : State) (base : RegNum) (offset : BitVec 16) (pa : PAddr) (attr : BitVec 3),
    let va := effAddr s base offset
    let line := pa.toNat / 32 * 32
    (Transparent s →
      let nothing (t : State) : Prop := CacheFrame s t ∧ t.cp0 = s.cp0 ∧ KeepsMem s t
      let tags (t : State) : Prop := CacheFrame s t ∧ KeepsMem s t ∧
        t.cp0 = { s.cp0 with tagLo := t.cp0.tagLo, tagHi := t.cp0.tagHi, ecc := t.cp0.ecc }
      let hits (t : State) : Prop := CacheFrame s t ∧
        t.cp0 = { s.cp0 with status := { s.cp0.status with ch := t.cp0.status.ch } }
      let discards (p : Nat → Prop) (t : State) : Prop := CacheFrame s t ∧ t.cp0 = s.cp0 ∧
        (Memory.wf s.mem = true → LosesOnlyStale p s t)
      (CacheReaches true base offset s pa attr →
        Does (.cacheHitWritebackI base offset) s nothing ∧
        Does (.cacheHitWritebackD base offset) s nothing ∧
        Does (.cacheHitWritebackInvalidateD base offset) s nothing ∧
        (s.params.scPresent = true →
          Does (.cacheHitWritebackS base offset) s (fun t => hits t ∧ KeepsMem s t) ∧
          Does (.cacheHitWritebackInvalidateS base offset) s (fun t => hits t ∧ KeepsMem s t))) ∧
      (CacheReaches false base offset s pa attr →
        Does (.cacheIndexInvalidateI base offset) s nothing ∧
        Does (.cacheIndexWritebackInvalidateD base offset) s nothing ∧
        Does (.cacheIndexStoreTagI base offset) s nothing ∧
        Does (.cacheHitInvalidateI base offset) s nothing ∧
        ((regionKind s pa = .ram ∨ regionKind s pa = .rom) → Does (.cacheFillI base offset) s nothing) ∧
        Does (.cacheIndexLoadTagI base offset) s tags ∧
        Does (.cacheIndexLoadTagD base offset) s tags ∧
        Does (.cacheIndexStoreTagD base offset) s (discards (fun a => a / 32 % 128 = va.toNat / 32 % 128)) ∧
        Does (.cacheHitInvalidateD base offset) s (discards (fun a => a / 32 * 32 = line)) ∧
        Does (.cacheCreateDirtyExclusiveD base offset) s
          (fun t => CacheFrame s t ∧ t.cp0 = s.cp0 ∧ KeepsMemBut line 32 s t) ∧
        (s.params.scPresent = true →
          Does (.cacheIndexWritebackInvalidateS base offset) s nothing ∧
          Does (.cacheIndexLoadTagS base offset) s tags ∧
          Does (.cacheIndexStoreTagS base offset) s (discards (fun a => a / 32 % 2048 = pa.toNat / 32 % 2048)) ∧
          Does (.cacheHitInvalidateS base offset) s (fun t => hits t ∧
            (Memory.wf s.mem = true → LosesOnlyStale (fun a => a / 32 * 32 = line) s t))) ∧
        (s.params.tcPresent = true →
          Does (.cacheFlashInvalidateT base offset) s (discards (fun _ => True)) ∧
          Does (.cacheIndexLoadTagT base offset) s tags ∧
          Does (.cacheIndexStoreTagT base offset) s (discards (fun a =>
            tertiaryIndex s (BitVec.ofNat 36 a) = tertiaryIndex s pa)) ∧
          (va.toNat % 4096 = 0 → Does (.cachePageInvalidateT base offset) s (discards (fun a =>
            tertiaryIndex s (BitVec.ofNat 36 a) / 128 = tertiaryIndex s pa / 128)))))) ∧
    (s.params.explicitCaches = true →
      let does (i : Instr) (cp0 : Cp0) (P : State → Prop) : Prop := Does i s (fun t =>
        CacheFrame s { t with caches := s.caches } ∧ t.cp0 = cp0 ∧ P t)
      let k := va.toNat / 2 ^ 12 % 4 * 128 + va.toNat / 32 % 128
      let same (t : State) : Prop := KeepsMem s t ∧ t.caches = s.caches
      let ch (b : Bool) : Cp0 := { s.cp0 with status := { s.cp0.status with ch := b } }
      let toMemory (x : DLine) (a : PAddr) : Prop := x.b = true ∧ regionKind s a = .ram ∧ Memory.wf s.mem = true
      let writable (a : PAddr) : Prop := regionKind s a = .ram ∧ Memory.wf s.mem = true ∧
        (tertiaryOn s = true → ∃ q, lookupT s a = .ok q)
      (CacheReaches true base offset s pa attr →
        (lookupD s pa = .ok none →
          does (.cacheHitWritebackD base offset) s.cp0 same ∧ does (.cacheHitWritebackInvalidateD base offset) s.cp0 same) ∧
        (∀ d, lookupD s pa = .ok (some d) →
          let a := dLineAddr (dLine s d) d
          ((dLine s d).w = false →
            does (.cacheHitWritebackD base offset) s.cp0 (fun t => KeepsMem s t ∧ OnlyLineD d s t ∧ (dLine t d).w = false ∧
              (dLine t d).state = 3 ∧ (dLine t d).data = (dLine s d).data) ∧
            does (.cacheHitWritebackInvalidateD base offset) s.cp0 (fun t => KeepsMem s t ∧ OnlyLineD d s t ∧
              (dLine t d).state = 0)) ∧
          ((dLine s d).w = true → toMemory (dLine s d) a →
            does (.cacheHitWritebackD base offset) s.cp0 (fun t => LineWritten s t a (dLine s d).data ∧ OnlyLineD d s t ∧
              (dLine t d).w = false ∧ (dLine t d).state = 3 ∧ (dLine t d).data = (dLine s d).data) ∧
            does (.cacheHitWritebackInvalidateD base offset) s.cp0 (fun t => LineWritten s t a (dLine s d).data ∧
              OnlyLineD d s t ∧ (dLine t d).state = 0))) ∧
        (lookupI s pa = .ok none → does (.cacheHitWritebackI base offset) s.cp0 same) ∧
        (∀ d, lookupI s pa = .ok (some d) → does (.cacheHitWritebackI base offset) s.cp0 (fun t => KeepsMem s t ∧
          OnlyLineI d s t ∧ { iLine t d with par := (iLine s d).par } = iLine s d)) ∧
        (s.params.scPresent = true → lookupS s pa = none →
          does (.cacheHitWritebackS base offset) (ch false) same ∧
          does (.cacheHitWritebackInvalidateS base offset) (ch false) same) ∧
        (s.params.scPresent = true → ∀ j found, lookupS s pa = some j → lookupD s pa = .ok found →
          let x := newestData s j found
          let owned : Prop := (sLine s j).state = 5 ∨ (sLine s j).state = 7
          let gone (t : State) : Prop :=
            CachesBut found j s t ∧ (sLine t j).state = 0 ∧ ∀ d, found = some d → (dLine t d).state = 0
          (¬owned → does (.cacheHitWritebackS base offset) (ch true) (fun t => NothingSent s t ∧ CachesBut none j s t ∧
            { sLine t j with par := (sLine s j).par } = sLine s j)) ∧
          (owned → writable (sLineAddr (sLine s j) j) →
            does (.cacheHitWritebackS base offset) (ch true) (fun t => SentBelow (sLineAddr (sLine s j) j) x s t ∧
              CachesBut (modifiedLine s found) j s t ∧ (sLine t j).state = 4 ∧ (sLine t j).data = x ∧
              (sLine t j).tag = (sLine s j).tag ∧
              ∀ d, modifiedLine s found = some d → dLine t d = { dLine s d with w := false })) ∧
          (owned ∨ modifiedLine s found ≠ none → writable (sLineAddr (sLine s j) j) →
            does (.cacheHitWritebackInvalidateS base offset) (ch true)
              (fun t => SentBelow (sLineAddr (sLine s j) j) x s t ∧ gone t)) ∧
          (¬owned → modifiedLine s found = none →
            does (.cacheHitWritebackInvalidateS base offset) (ch true) (fun t => NothingSent s t ∧ gone t))) ∧
        (s.params.scPresent = true → ∀ j, lookupS s pa = some j → (sLine s j).state = 4 → lookupD s pa = .ok none →
          does (.cacheHitWritebackS base offset) (ch true) (fun t => KeepsMem s t ∧ OnlyLineS j s t ∧
            (sLine t j).state = 4 ∧ (sLine t j).data = (sLine s j).data) ∧
          does (.cacheHitWritebackInvalidateS base offset) (ch true) (fun t => KeepsMem s t ∧ OnlyLineS j s t ∧
            (sLine t j).state = 0))) ∧
      (CacheReaches false base offset s pa attr →
        does (.cacheIndexInvalidateI base offset) s.cp0 (fun t => KeepsMem s t ∧ OnlyLineI k s t ∧ (iLine t k).state = 0) ∧
        does (.cacheIndexStoreTagI base offset) s.cp0 (fun t => KeepsMem s t ∧ OnlyLineI k s t ∧
          (iLine t k).state = s.cp0.tagLo.extractLsb' 6 2 ∧ (iLine t k).l = s.cp0.tagLo.getLsbD 2 ∧
          (iLine t k).data = (iLine s k).data) ∧
        does (.cacheIndexStoreTagD base offset) s.cp0 (fun t => KeepsMem s t ∧ OnlyLineD k s t ∧
          (dLine t k).state = s.cp0.tagLo.extractLsb' 6 2 ∧ (dLine t k).l = s.cp0.tagLo.getLsbD 2 ∧
          (dLine t k).b = s.cp0.tagLo.getLsbD 3 ∧ (dLine t k).w = false ∧ (dLine t k).data = (dLine s k).data) ∧
        Does (.cacheIndexLoadTagI base offset) s (fun t => CacheFrame s t ∧ KeepsMem s t ∧
          t.cp0.tagLo.extractLsb' 6 2 = (iLine s k).state ∧ t.cp0.tagLo.getLsbD 2 = (iLine s k).l ∧
          t.cp0.tagLo.getLsbD 1 = (iLine s k).f ∧ t.cp0.tagLo.getLsbD 0 = (iLine s k).p ∧
          t.cp0 = { s.cp0 with tagLo := t.cp0.tagLo, tagHi := t.cp0.tagHi, ecc := { s.cp0.ecc with par := t.cp0.ecc.par } }) ∧
        Does (.cacheIndexLoadTagD base offset) s (fun t => CacheFrame s t ∧ KeepsMem s t ∧
          t.cp0.tagLo.extractLsb' 6 2 = (dLine s k).state ∧ t.cp0.tagLo.getLsbD 5 = (dLine s k).sp ∧
          t.cp0.tagLo.getLsbD 3 = (dLine s k).b ∧ t.cp0.tagLo.getLsbD 2 = (dLine s k).l ∧
          t.cp0.tagLo.getLsbD 1 = (dLine s k).f ∧ t.cp0.tagLo.getLsbD 0 = (dLine s k).p ∧
          t.cp0 = { s.cp0 with tagLo := t.cp0.tagLo, tagHi := t.cp0.tagHi, ecc := { s.cp0.ecc with par := t.cp0.ecc.par } } ∧
          ∀ j, j < 8 → t.cp0.ecc.par.getLsbD j =
            (dLine s k).par.getLsbD (va.toNat / 8 % 4 * 8 + if s.params.bigEndian then 7 - j else j)) ∧
        ((dLine s k).w = false → (dLine s k).state ≠ 1 →
          does (.cacheIndexWritebackInvalidateD base offset) s.cp0 (fun t => KeepsMem s t ∧ OnlyLineD k s t ∧
            (dLine t k).state = 0)) ∧
        ((dLine s k).w = true → (dLine s k).state = 3 → toMemory (dLine s k) (dLineAddr (dLine s k) k) →
          does (.cacheIndexWritebackInvalidateD base offset) s.cp0 (fun t =>
            LineWritten s t (dLineAddr (dLine s k) k) (dLine s k).data ∧ OnlyLineD k s t ∧ (dLine t k).state = 0)) ∧
        (lookupI s pa = .ok none → does (.cacheHitInvalidateI base offset) s.cp0 same) ∧
        (∀ d, lookupI s pa = .ok (some d) → does (.cacheHitInvalidateI base offset) s.cp0 (fun t =>
          KeepsMem s t ∧ OnlyLineI d s t ∧ (iLine t d).state = 0)) ∧
        (lookupI s pa = .ok none → attr = 7 → (regionKind s pa = .ram ∨ regionKind s pa = .rom) →
          does (.cacheFillI base offset) s.cp0 (fun t => KeepsMem s t ∧ ∃ d ∈ primaryWays pa, OnlyLineI d s t ∧
            (iLine t d).state = 2 ∧ (iLine t d).tag = pa.extractLsb' 12 24 ∧
            ∀ j, j < 32 → lineByte (iLine t d).data j = Memory.read s.mem (line + j))) ∧
        (lookupD s pa = .ok none → does (.cacheHitInvalidateD base offset) s.cp0 same ∧
          (CleanWays s pa → does (.cacheCreateDirtyExclusiveD base offset) s.cp0 (fun t => KeepsMem s t ∧
            ∃ d, HoldsLineD pa true s t d))) ∧
        (∀ d, lookupD s pa = .ok (some d) →
          does (.cacheHitInvalidateD base offset) s.cp0 (fun t => KeepsMem s t ∧ OnlyLineD d s t ∧ (dLine t d).state = 0) ∧
          does (.cacheCreateDirtyExclusiveD base offset) s.cp0 (fun t => KeepsMem s t ∧ HoldsLineD pa true s t d)) ∧
        (s.params.scPresent = true →
          let j := pa.toNat / 2 ^ 16 % 4 * 2048 + pa.toNat / 32 % 2048
          does (.cacheIndexStoreTagS base offset) s.cp0 (fun t => KeepsMem s t ∧ OnlyLineS j s t ∧
            (sLine t j).state = s.cp0.tagLo.extractLsb' 6 3 ∧ (sLine t j).data = (sLine s j).data) ∧
          Does (.cacheIndexLoadTagS base offset) s (fun t => CacheFrame s t ∧ KeepsMem s t ∧
            t.cp0.tagLo.extractLsb' 6 3 = (sLine s j).state ∧
            t.cp0 = { s.cp0 with tagLo := t.cp0.tagLo, tagHi := t.cp0.tagHi
                                 ecc := { s.cp0.ecc with par := t.cp0.ecc.par } }) ∧
          ((sLine s j).state ≠ 5 → (sLine s j).state ≠ 7 →
            does (.cacheIndexWritebackInvalidateS base offset) s.cp0 (fun t => KeepsMem s t ∧ OnlyLineS j s t ∧
              (sLine t j).state = 0)) ∧
          ((sLine s j).state = 5 ∨ (sLine s j).state = 7 → writable (sLineAddr (sLine s j) j) →
            does (.cacheIndexWritebackInvalidateS base offset) s.cp0 (fun t =>
              SentBelow (sLineAddr (sLine s j) j) (sLine s j).data s t ∧ CachesBut none j s t ∧ (sLine t j).state = 0)) ∧
          (lookupS s pa = none → does (.cacheHitInvalidateS base offset) (ch false) same) ∧
          (∀ i found, lookupS s pa = some i → lookupD s pa = .ok found →
            does (.cacheHitInvalidateS base offset) (ch true) (fun t => NothingSent s t ∧ CachesBut found i s t ∧
              (sLine t i).state = 0 ∧ ∀ d, found = some d → (dLine t d).state = 0))) ∧
        (s.params.tcPresent = true →
          let j := tertiaryIndex s pa
          does (.cacheFlashInvalidateT base offset) s.cp0 (fun t => KeepsMem s t ∧ (∀ i, (tLine t i).state = 0) ∧
            { t.caches with tcache := s.caches.tcache, tcEpoch := s.caches.tcEpoch, tcInvalid := s.caches.tcInvalid }
              = s.caches) ∧
          does (.cacheIndexStoreTagT base offset) s.cp0 (fun t => KeepsMem s t ∧ OnlyLineT j s t ∧
            (tLine t j).state = s.cp0.tagLo.extractLsb' 7 2 ∧ (tLine t j).data = (tLine s j).data) ∧
          Does (.cacheIndexLoadTagT base offset) s (fun t => CacheFrame s t ∧ KeepsMem s t ∧
            t.cp0.tagLo.extractLsb' 7 2 = (tLine s j).state ∧
            t.cp0 = { s.cp0 with tagLo := t.cp0.tagLo, tagHi := t.cp0.tagHi
                                 ecc := { s.cp0.ecc with par := t.cp0.ecc.par } }) ∧
          (va.toNat % 4096 = 0 →
            let line (i : Nat) : Nat := tertiaryIndex s (pa + BitVec.ofNat 36 (32 * i))
            does (.cachePageInvalidateT base offset) s.cp0 (fun t => KeepsMem s t ∧
              (∀ i, i < 128 → (tLine t (line i)).state = s.cp0.tagLo.extractLsb' 7 2) ∧
              (∀ q, (∀ i, i < 128 → line i ≠ q) → tLine t q = tLine s q) ∧
              { t.caches with tcache := s.caches.tcache } = s.caches)))))

/-- Where a `CACHE` instruction does not complete: without permission it raises `CpU(0)`, whatever `CO` says for all but the
five Hit_Writeback types; a failed translation is that of a load; a code that names no operation and an absent secondary or
tertiary cache stop; a misaligned page stops (41_cache_instruction.md rules R380 to R382, R395). -/
def Obligations.CacheOperationsThatStop : Prop :=
  ∀ (s : State) (base : RegNum) (offset : BitVec 16),
    let writebacks : List Instr := [.cacheHitWritebackInvalidateD base offset, .cacheHitWritebackInvalidateS base offset,
      .cacheHitWritebackI base offset, .cacheHitWritebackD base offset, .cacheHitWritebackS base offset]
    let undefined : List Instr := [.cacheOp0C base offset, .cacheOp0E base offset, .cacheOp0F base offset,
      .cacheOp12 base offset, .cacheOp1A base offset, .cacheOp1C base offset, .cacheOp1D base offset,
      .cacheOp1E base offset, .cacheOp1F base offset]
    let others : List Instr := [.cacheIndexInvalidateI base offset, .cacheIndexWritebackInvalidateD base offset,
      .cacheFlashInvalidateT base offset, .cacheIndexWritebackInvalidateS base offset, .cacheIndexLoadTagI base offset,
      .cacheIndexLoadTagD base offset, .cacheIndexLoadTagT base offset, .cacheIndexLoadTagS base offset,
      .cacheIndexStoreTagI base offset, .cacheIndexStoreTagD base offset, .cacheIndexStoreTagT base offset,
      .cacheIndexStoreTagS base offset, .cacheCreateDirtyExclusiveD base offset, .cacheHitInvalidateI base offset,
      .cacheHitInvalidateD base offset, .cacheHitInvalidateS base offset, .cacheFillI base offset,
      .cachePageInvalidateT base offset]
    (cp0Usable s = false →
      (∀ i ∈ others ++ undefined, Raises i s (.cpU 0)) ∧
      (s.cp0.status.co = false → ∀ i ∈ writebacks, Raises i s (.cpU 0))) ∧
    (∀ e, Machine.translate .load (effAddr s base offset) s = .error (.exc e s) →
      (cp0Usable s = true → ∀ i ∈ others ++ undefined, Raises i s e) ∧
      (cp0Usable s = true ∨ s.cp0.status.co = true → ∀ i ∈ writebacks, Raises i s e)) ∧
    (∀ pa attr, CacheReaches false base offset s pa attr →
      (∀ i ∈ undefined, exec i s = .refused .cacheOpUndefined) ∧
      (s.params.scPresent = false →
        ∀ i ∈ [Instr.cacheIndexWritebackInvalidateS base offset, .cacheIndexLoadTagS base offset,
            .cacheIndexStoreTagS base offset, .cacheHitInvalidateS base offset,
            .cacheHitWritebackInvalidateS base offset, .cacheHitWritebackS base offset],
          exec i s = .refused .cacheAbsent) ∧
      (s.params.tcPresent = false →
        ∀ i ∈ [Instr.cacheFlashInvalidateT base offset, .cacheIndexLoadTagT base offset,
            .cacheIndexStoreTagT base offset, .cachePageInvalidateT base offset],
          exec i s = .refused .cacheAbsent) ∧
      (s.params.tcPresent = true → (effAddr s base offset).toNat % 4096 ≠ 0 →
        exec (.cachePageInvalidateT base offset) s = .fault .unalignedPageInvalidate))

/-! ## Floating point -/

/-- Every computational floating-point instruction ends as rule R670 says: `Cause` is written; Unimplemented Operation or an
exception whose Enable bit is set is taken with nothing else changed; otherwise the flags accumulate and the result is written. With
`FR` = 0 an odd register stops; without MIPS IV the reciprocals are unimplemented (48_fpu.md rules R661, R662, R670, R676,
R700 to R727). -/
def Obligations.FpOperationsDeliver : Prop :=
  ∀ (s : State) (i : Instr) (c : FpCase), s.cp0.status.cu1 = true →
    (fpArithCase i s = some c ∨ fpConvertCase i s = some c ∨ (is64 s = true ∧ fpLongCase i s = some c) ∨
      (isMips4 s = true ∧ fpMips4Case i s = some c) →
      (EvenRegs s c.regs → FpDelivers i s c) ∧ (¬EvenRegs s c.regs → exec i s = .fault .oddFpr)) ∧
    (isMips4 s = false → fpMips4Case i s = some c → opF (encode i) = 17 →
      exec i s = .next (takeException .fpe (withFpCause true .none s)))

/-- The arithmetic on normal numbers delivers the exact result rounded once, or its Overflow, Underflow or Unimplemented
Operation as rules R669, R674 and R675 say; a reciprocal is that of a division, a reciprocal root rounds the root toward
zero first, a multiply-add rounds the product first and is unimplemented if that leaves the range of normal numbers, a
negated one inverts the sign (48_fpu.md rules R666, R669, R671, R674, R675, R700 to R704, R708 to R714). The overflow value
for `RM` = 3 (D27), the smallest number of a flush (D62) and the inverted sign (D64) are the spec's decisions, log entry 29
(PRESUMED). -/
def Obligations.FpArithmeticRoundsCorrectly : Prop :=
  ∀ (c : Fcr31) (f : FpFmt) (w a b : Dword), IsNormal f a → IsNormal f b →
    let va := realValue f a
    let vb := realValue f b
    let zeroOf (inexact : Prop) (r : FpResult) : Prop := ∃ i : Bool, (i = true ↔ inexact) ∧
      r = { unimpl := false, flags := { FpFlags.none with i := i }, value := zeroPattern f (c.rm == 3) }
    (va + vb ≠ 0 → DeliversRounded c f (va + vb) False (fpAdd c f false w a b)) ∧
    (va + vb = 0 → zeroOf False (fpAdd c f false w a b)) ∧
    (va - vb ≠ 0 → DeliversRounded c f (va - vb) False (fpAdd c f true w a b)) ∧
    (va - vb = 0 → zeroOf False (fpAdd c f true w a b)) ∧
    DeliversRounded c f (va * vb) False (fpMul c f w a b) ∧
    DeliversRounded c f (va / vb) False (fpDiv c f w a b) ∧
    DeliversRounded c f (1 / va) False (fpRecip c f w a) ∧
    (0 < va → DeliversRounded c f (Real.sqrt va) False (fpSqrt c f w a) ∧
      ∃ t, IsRounded f 1 (Real.sqrt va) t ∧ DeliversRounded c f (1 / t) (t ≠ Real.sqrt va) (fpRsqrt c f w a)) ∧
    (∀ d, IsNormal f d → ∀ sub : Bool,
      let r := fpMadd c f sub false w a b d
      let vd := if sub then -realValue f d else realValue f d
      (∃ p, IsRounded f c.rm (va * vb) p ∧
        (maxFinite f < |p| ∨ |p| < (2 : ℝ) ^ f.emin → r = .unimplemented) ∧
        ((2 : ℝ) ^ f.emin ≤ |p| → |p| ≤ maxFinite f →
          (p + vd ≠ 0 → DeliversRounded c f (p + vd) (p ≠ va * vb) r) ∧ (p + vd = 0 → zeroOf (p ≠ va * vb) r))) ∧
      fpMadd c f sub true w a b d = { r with value := r.value ^^^ (1#64 <<< f.signPos) })

/-- The conversions deliver the value rounded in their mode: to an integer where it fits, Invalid or Unimplemented where it
does not, from an integer, and between the formats; zeros, infinities, NaNs and denormalized operands as their rules say
(48_fpu.md rules R664, R665, R666, R715 to R727). By the spec's decisions, which the model presumes (log entry 29, PRESUMED):
the range tests are on the rounded integer (D65), every 64-bit source converts (D66), `ROUND.L`, `TRUNC.L`, `CEIL.L` and
`FLOOR.L` have the limits of `CVT.L` (D67), and so are the generated quiet NaN (D60), the overflow value for `RM` = 3 (D27)
and the smallest number of a flush (D62). -/
def Obligations.FpConversionsRoundCorrectly : Prop :=
  ∀ (c : Fcr31) (f g : FpFmt) (rm : BitVec 2) (w a : Dword) (n : Int),
    (IsNormal f a →
      let x := fpValue f a
      let k := roundedInt rm x
      let integer : FpResult :=
        { unimpl := false, flags := { FpFlags.none with i := decide ((k : Rat) ≠ x) }, value := BitVec.ofInt 64 k }
      (-(2 ^ 31) ≤ x → x ≤ 2 ^ 31 - 1 → fpToWord c f rm w a = integer) ∧
      (k < -(2 ^ 31) ∨ 2 ^ 31 - 1 < k → fpToWord c f rm w a = .invalid 0x7FFFFFFF) ∧
      (-(2 ^ 52) < k → k < 2 ^ 52 → fpToLong c f rm w a = integer) ∧
      (|x| ≤ 2 ^ 63 → (k < -(2 ^ 52) ∨ 2 ^ 52 ≤ k) → fpToLong c f rm w a = .unimplemented) ∧
      (2 ^ 63 < |x| → fpToLong c f rm w a = .invalid 0x7FFFFFFFFFFFFFFF) ∧
      DeliversRounded c g (realValue f a) False (fpToFp c f g a)) ∧
    (∀ neg, classify f a = .zero neg → fpToWord c f rm w a = .exact 0 ∧ fpToLong c f rm w a = .exact 0 ∧
      fpToFp c f g a = .exact (zeroPattern g neg)) ∧
    (∀ neg, classify f a = .inf neg → fpToWord c f rm w a = .invalid 0x7FFFFFFF ∧
      fpToLong c f rm w a = .invalid 0x7FFFFFFFFFFFFFFF ∧ fpToFp c f g a = .exact (infinityPattern g neg)) ∧
    (∀ neg, classify f a = .qnan neg ∨ classify f a = .snan neg → fpToWord c f rm w a = .invalid 0x7FFFFFFF ∧
      fpToLong c f rm w a = .invalid 0x7FFFFFFFFFFFFFFF) ∧
    (∀ neg, classify f a = .qnan neg → fpToFp c f g a = .unimplemented) ∧
    (∀ neg, classify f a = .snan neg → fpToFp c f g a = .invalid (genQnan g)) ∧
    (∀ neg m, classify f a = .denorm neg m →
      (c.fs = false → fpToWord c f rm w a = .unimplemented ∧ fpToLong c f rm w a = .unimplemented ∧
        fpToFp c f g a = .unimplemented) ∧
      (c.fs = true → fpToWord c f rm w a = .exact 0 ∧ fpToLong c f rm w a = .exact 0 ∧
        fpToFp c f g a = .exact (zeroPattern g neg))) ∧
    (n ≠ 0 → n.natAbs ≤ 2 ^ 63 → DeliversRounded c f (n : ℝ) False (fpFromInt c f n)) ∧
    fpFromInt c f 0 = .exact 0

/-- The special operands of Table 6.15: NaNs, infinities, zeros and denormalized numbers in every operand place, with `FS` = 0
and 1. A signaling NaN is Invalid and gives the generated quiet NaN, a quiet one passes (of two, either); `inf - inf`, `0 * inf`,
`0 / 0`, `inf / inf` and the root of a negative number are Invalid; a nonzero finite number over zero is a Division by Zero;
denormalized operands are Unimplemented but for the exact cases, or flushed; `ABS` and `NEG` change the sign only; the
multiply-adds follow their own list (48_fpu.md rules R664, R668, R669, R672, R673, R677, R700 to R705, R707 to R710). The pattern
of the generated quiet NaN, and that any of several quiet NaNs passes, are decision D60, what a negated multiply-add does to
the sign is D64: log entry 29 (PRESUMED). -/
def Obligations.FpSpecialOperands : Prop :=
  ∀ (c : Fcr31) (f : FpFmt) (w a b d : Dword),
    let invalid := FpResult.invalid (genQnan f)
    let product := xor (signOf f a) (signOf f b)
    let infinity (neg : Bool) := FpResult.exact (infinityPattern f neg)
    let zero (neg : Bool) := FpResult.exact (zeroPattern f neg)
    let roots (r : FpResult) : Prop := fpSqrt c f w a = r ∧ fpRecip c f w a = r ∧ fpRsqrt c f w a = r
    let products (r : FpResult) : Prop := fpMul c f w a b = r ∧ fpMul c f w b a = r
    let all (P : FpResult → Prop) : Prop :=
      P (fpAdd c f false w a b) ∧ P (fpAdd c f true w a b) ∧ P (fpMul c f w a b) ∧ P (fpDiv c f w a b)
    (IsSnan f a ∨ IsSnan f b → all (fun r => r = invalid)) ∧
    (IsQnan f a → ¬IsNan f b → all (fun r => r = .exact a)) ∧
    (¬IsNan f a → IsQnan f b → all (fun r => r = .exact b)) ∧
    (IsQnan f a → IsQnan f b → all (fun r => r = .exact a ∨ r = .exact b)) ∧
    (IsSnan f a → roots invalid ∧ ∀ n, fpSignOp c f n a = invalid) ∧
    (IsQnan f a → roots (.exact a) ∧ ∀ n, fpSignOp c f n a = .exact a) ∧
    (IsInf f a → IsInf f b →
      fpAdd c f false w a b = (if signOf f a = signOf f b then infinity (signOf f a) else invalid) ∧
      fpAdd c f true w a b = (if signOf f a = signOf f b then invalid else infinity (signOf f a)) ∧
      fpMul c f w a b = infinity product ∧ fpDiv c f w a b = invalid) ∧
    (IsInf f a → ¬IsInf f b → ¬IsNan f b →
      (∀ sub, fpAdd c f sub w a b = infinity (signOf f a)) ∧ fpAdd c f false w b a = infinity (signOf f a) ∧
      fpAdd c f true w b a = infinity (!signOf f a) ∧ fpDiv c f w a b = infinity product ∧ fpDiv c f w b a = zero product) ∧
    (IsInf f a → IsNormal f b ∨ (IsDenorm f b ∧ c.fs = false) → products (infinity product)) ∧
    (IsInf f a → IsZero f b → products invalid) ∧
    (IsInf f a → fpRecip c f w a = zero (signOf f a) ∧
      (signOf f a = false → fpSqrt c f w a = infinity false ∧ fpRsqrt c f w a = zero false) ∧
      (signOf f a = true → fpSqrt c f w a = invalid ∧ fpRsqrt c f w a = invalid)) ∧
    (IsZero f a → IsZero f b →
      (let sum (n : Bool) := zero (if signOf f a = n then n else c.rm == 3)
       fpAdd c f false w a b = sum (signOf f b) ∧ fpAdd c f true w a b = sum (!signOf f b)) ∧
      fpMul c f w a b = zero product ∧ fpDiv c f w a b = invalid) ∧
    (IsZero f a → IsNormal f b → (fpAdd c f false w a b = .exact b ∧ fpAdd c f true w a b = .exact (invertSign f b) ∧
      ∀ sub, fpAdd c f sub w b a = .exact b) ∧ products (zero product) ∧ fpDiv c f w a b = zero product ∧
      fpDiv c f w b a = divisionByZero f product) ∧
    (IsZero f a → fpSqrt c f w a = zero (signOf f a) ∧ fpRecip c f w a = divisionByZero f (signOf f a) ∧
      fpRsqrt c f w a = divisionByZero f (signOf f a)) ∧
    (IsNormal f a → signOf f a = true → fpSqrt c f w a = invalid ∧ fpRsqrt c f w a = invalid) ∧
    (IsDenorm f a → c.fs = false →
      (IsZero f b ∨ IsNormal f b ∨ IsDenorm f b →
        ∀ sub, fpAdd c f sub w a b = .unimplemented ∧ fpAdd c f sub w b a = .unimplemented) ∧
      (IsNormal f b ∨ IsDenorm f b →
        products .unimplemented ∧ fpDiv c f w a b = .unimplemented ∧ fpDiv c f w b a = .unimplemented) ∧
      (IsZero f b → products (zero product) ∧ fpDiv c f w b a = zero product ∧
        fpDiv c f w a b = divisionByZero f product) ∧ roots .unimplemented) ∧
    (¬IsNan f a → (IsDenorm f a → c.fs = false) → ∀ n, ∃ v, fpSignOp c f n a = .exact v ∧
      signOf f v = (n && !signOf f a) ∧ ∀ k, k < f.signPos → v.getLsbD k = a.getLsbD k) ∧
    FlushesOperands c f w a b d ∧ ∀ sub, MaddSpecial c f sub w a b d

/-- The compares: less, equal or unordered by the values of the operands, zeros equal, NaNs unordered; a signaling NaN, or
any NaN for the upper eight conditions, is Invalid; an enabled Invalid is taken with the condition code unwritten, else the
condition code alone takes the result; with `FR` = 0 an odd register stops, without MIPS IV a condition code other than 0 is
unimplemented (48_fpu.md rules R661, R662, R676, R730). That denormalized numbers compare at their true value whatever `FS` is
is the spec's own reading (48_fpu.md rule R668 (d), decision D61), log entry 29 (PRESUMED). -/
def Obligations.FpComparesOrderValues : Prop :=
  (∀ (f : FpFmt) (cond : BitVec 4) (a b : Dword), a.toNat < 2 ^ (f.signPos + 1) → b.toNat < 2 ^ (f.signPos + 1) →
    (isNan f a = false → isNan f b = false →
      ((fpCompare f cond a b).1 = true ↔ (cond.getLsbD 2 = true ∧ fpValue f a < fpValue f b) ∨
        (cond.getLsbD 1 = true ∧ fpValue f a = fpValue f b)) ∧ (fpCompare f cond a b).2 = false) ∧
    (isNan f a = true ∨ isNan f b = true → (fpCompare f cond a b).1 = cond.getLsbD 0 ∧
      ((fpCompare f cond a b).2 = true ↔ cond.getLsbD 3 = true ∨ (∃ n, classify f a = .snan n) ∨ ∃ n, classify f b = .snan n))) ∧
  (∀ (s : State) (i : Instr) (f : FpFmt) (cond : BitVec 4) (ft fs : RegNum) (cc : BitVec 3),
    fpCompareCase i = some (f, cond, ft, fs, cc) → s.cp0.status.cu1 = true →
    (cc ≠ 0 → isMips4 s = false → exec i s = .next (takeException .fpe (withFpCause true .none s))) ∧
    (cc = 0 ∨ isMips4 s = true →
      (¬EvenRegs s [ft, fs] → exec i s = .fault .oddFpr) ∧
      (EvenRegs s [ft, fs] →
        let r := fpCompare f cond (readFpr s f fs) (readFpr s f ft)
        let v : FpFlags := { FpFlags.none with v := r.2 }
        (r.2 = true → s.fpu.fcr31.enables.v = true → exec i s = .next (takeException .fpe (withFpCause false v s))) ∧
        (r.2 = false ∨ s.fpu.fcr31.enables.v = false → Does i s (fun t => OnlyFpu s t ∧ t.fpu.fgr = s.fpu.fgr ∧
          (∀ k, k < 8 → t.fpu.fcr31.cc.getLsbD k = if k = cc.toNat then r.1 else s.fpu.fcr31.cc.getLsbD k) ∧
          t.fpu.fcr31.causeE = false ∧ t.fpu.fcr31.cause = v ∧ t.fpu.fcr31.flags = s.fpu.fcr31.flags.or v ∧
          KeepsFcr31Modes s t)))))

/-- The branches on a condition code, the register copies and their conditional forms, and the moves between the units and
the control registers. Without MIPS IV a condition code other than 0 and the conditional copies are unimplemented; with `FR`
= 0 an odd register stops (48_fpu.md rules R661, R662, R676, R690 to R695, R706, R735 to R744). The places of the bits of
`FCR31` (D20) and the trap of a `CTC1` that sets a cause with its enable (D63) are the spec's decisions, log entry 29
(PRESUMED). -/
def Obligations.FpBranchesAndMoves : Prop :=
  ∀ (s : State) (rt fs fd : RegNum) (cc : BitVec 3) (offset : BitVec 16), s.cp0.status.cu1 = true →
    let set : Prop := s.fpu.fcr31.cc.getLsbD cc.toNat = true
    let unimplemented (i : Instr) : Prop := exec i s = .next (takeException .fpe (withFpCause true .none s))
    let copies : List Instr := [.movfS cc fs fd, .movtS cc fs fd, .movnS rt fs fd, .movzS rt fs fd, .movfD cc fs fd,
      .movtD cc fs fd, .movnD rt fs fd, .movzD rt fs fd]
    (s.inDelaySlot = false → cc = 0 ∨ isMips4 s = true →
      Branches (.bc1f cc offset) s (¬set) offset none ∧ Branches (.bc1t cc offset) s set offset none ∧
      BranchesLikely (.bc1fl cc offset) s (¬set) offset none ∧ BranchesLikely (.bc1tl cc offset) s set offset none) ∧
    (cc ≠ 0 → isMips4 s = false →
      ∀ i ∈ [Instr.bc1f cc offset, .bc1t cc offset, .bc1fl cc offset, .bc1tl cc offset], unimplemented i) ∧
    (EvenRegs s [fs, fd] →
      GivesFpr false fd (readFpr s .single fs) (.movS fs fd) s ∧ GivesFpr true fd (readFpr s .double fs) (.movD fs fd) s ∧
      (isMips4 s = true →
        CopiesWhen (.movfS cc fs fd) s (¬set) .single fs fd ∧ CopiesWhen (.movtS cc fs fd) s set .single fs fd ∧
        CopiesWhen (.movnS rt fs fd) s (uval s rt ≠ 0) .single fs fd ∧
        CopiesWhen (.movzS rt fs fd) s (uval s rt = 0) .single fs fd ∧
        CopiesWhen (.movfD cc fs fd) s (¬set) .double fs fd ∧ CopiesWhen (.movtD cc fs fd) s set .double fs fd ∧
        CopiesWhen (.movnD rt fs fd) s (uval s rt ≠ 0) .double fs fd ∧
        CopiesWhen (.movzD rt fs fd) s (uval s rt = 0) .double fs fd)) ∧
    (isMips4 s = false → ∀ i ∈ copies, unimplemented i) ∧
    (¬EvenRegs s [fs, fd] →
      exec (.movS fs fd) s = .fault .oddFpr ∧ exec (.movD fs fd) s = .fault .oddFpr ∧
      (isMips4 s = true → ∀ i ∈ copies, exec i s = .fault .oddFpr)) ∧
    Gives (.mfc1 rt fs) s rt (word ((readFgr s fs).toNat : Int)) ∧
    GivesFpr false fs (readGpr s rt) (.mtc1 rt fs) s ∧
    (is64 s = true → EvenRegs s [fs] →
      Gives (.dmfc1 rt fs) s rt (readFprDword s fs) ∧ GivesFpr true fs (readGpr s rt) (.dmtc1 rt fs) s) ∧
    (is64 s = true → ¬EvenRegs s [fs] →
      exec (.dmfc1 rt fs) s = .fault .oddFpr ∧ exec (.dmtc1 rt fs) s = .fault .oddFpr) ∧
    (fs = 0 → Gives (.cfc1 rt fs) s rt (BitVec.ofNat 64 (0x2700 + s.params.rev.toNat))) ∧
    (fs = 31 → Gives (.cfc1 rt fs) s rt (word (s.fpu.fcr31.toWord.toNat : Int))) ∧
    (fs ≠ 0 → fs ≠ 31 → Does (.cfc1 rt fs) s (OnlyGpr rt s)) ∧
    (fs ≠ 31 → Does (.ctc1 rt fs) s (OnlyPc s)) ∧
    (fs = 31 →
      let w := low32 (readGpr s rt)
      (w.getLsbD 17 = false → w.extractLsb' 12 5 &&& w.extractLsb' 7 5 = 0 →
        Does (.ctc1 rt fs) s (fun t => OnlyFpu s t ∧ t.fpu.fgr = s.fpu.fgr ∧ t.fpu.fcr31.toWord = w &&& 0xFF83FFFF)) ∧
      (¬(w.getLsbD 17 = false ∧ w.extractLsb' 12 5 &&& w.extractLsb' 7 5 = 0) →
        Does (.ctc1 rt fs) s (fun t => t.cp0.cause.excCode = 15 ∧ t.cp0.status.exl = true ∧ t.fpu.fgr = s.fpu.fgr ∧
          t.fpu.fcr31.toWord = w &&& 0xFF83FFFF ∧ KeepsGpr s t ∧ KeepsMem s t)))

/-- The floating-point loads and stores: words in the low half of a register, doublewords through the register view, in the
processor's byte order; the indexed forms add two registers, and an index that changes the region is an Address Error, as is
a misaligned address; through the explicit data cache they act as the integer forms do (48_fpu.md rules R662, R679 to R687;
20_memory.md rules R263, R264, R266, R268). That a write to ROM or to a hole is lost is the model's choice
(log entries 10, 38). -/
def Obligations.FpLoadsAndStores : Prop :=
  ∀ (s : State) (base index f : RegNum) (offset : BitVec 16) (pa : PAddr) (attr : BitVec 3), s.cp0.status.cu1 = true →
    let x (n : Nat) : Dword := BitVec.ofNat 64 (numberAt (bigEndianCpu s) s.mem pa.toNat n)
    let forms (lw ld sw sd : Instr) (va : Dword) : Prop :=
      (Direct s attr →
        (LoadReaches 4 va s pa attr → GivesFpr false f (x 4) lw s) ∧
        (LoadReaches 8 va s pa attr → EvenRegs s [f] → GivesFpr true f (x 8) ld s) ∧
        (StoreReaches 4 va s pa attr → Stores sw s pa 4 (readFprWord s f).toNat) ∧
        (StoreReaches 8 va s pa attr → EvenRegs s [f] → Stores sd s pa 8 (readFprDword s f).toNat)) ∧
      (∀ k, lookupD s pa = .ok (some k) →
        let y (n : Nat) : Dword := BitVec.ofNat 64 (lineNumber (bigEndianCpu s) (dLine s k).data (pa.toNat % 32) n)
        (AccessCached .load 4 va s pa attr → GivesFpr false f (y 4) lw s) ∧
        (AccessCached .load 8 va s pa attr → EvenRegs s [f] → GivesFpr true f (y 8) ld s)) ∧
      (MissesCleanly s pa attr →
        (AccessCached .load 4 va s pa attr → FillsFpr false f (x 4) pa lw s) ∧
        (AccessCached .load 8 va s pa attr → EvenRegs s [f] → FillsFpr true f (x 8) pa ld s)) ∧
      StoresCached sw s va pa attr 4 (readFprWord s f).toNat ∧
      (EvenRegs s [f] → StoresCached sd s va pa attr 8 (readFprDword s f).toNat) ∧
      (va.toNat % 4 ≠ 0 → Raises lw s (.adE false va) ∧ Raises sw s (.adE true va)) ∧
      (va.toNat % 8 ≠ 0 → EvenRegs s [f] → Raises ld s (.adE false va) ∧ Raises sd s (.adE true va)) ∧
      (¬EvenRegs s [f] → exec ld s = .fault .oddFpr ∧ exec sd s = .fault .oddFpr)
    forms (.lwc1 base f offset) (.ldc1 base f offset) (.swc1 base f offset) (.sdc1 base f offset) (effAddr s base offset) ∧
    (isMips4 s = true →
      (uval s base / 2 ^ 62 = (indexAddr s base index).toNat / 2 ^ 62 →
        forms (.lwxc1 base index f) (.ldxc1 base index f) (.swxc1 base index f) (.sdxc1 base index f)
          (indexAddr s base index)) ∧
      (uval s base / 2 ^ 62 ≠ (indexAddr s base index).toNat / 2 ^ 62 →
        Raises (.lwxc1 base index f) s (.adE false (indexAddr s base index)) ∧
        Raises (.swxc1 base index f) s (.adE true (indexAddr s base index)) ∧
        (EvenRegs s [f] → Raises (.ldxc1 base index f) s (.adE false (indexAddr s base index)) ∧
          Raises (.sdxc1 base index f) s (.adE true (indexAddr s base index)))))
end

