-- ==== Sys2Proof/Laws/Memory.lean ====
section
/-! SUPPORT. Memory: a read after a write, and every operation on the list of bytes keeps its canonical form. -/

namespace Sys2Proof.Laws

open Sys2Proof.Machine

/-- The parts of the canonical form of a list with a first entry. -/
theorem Memory_wf_cons (k : Nat) (v : Byte) (r : List Host.Cell) :
    Memory.wf ((k, v) :: r) = true ↔ v ≠ Memory.unlisted ∧ Memory.above k r = true ∧ Memory.wf r = true := by
  simp [Memory.wf, and_assoc]

/-- Below its first address a canonical list has nothing. -/
theorem Memory_read_above (m : List Host.Cell) (a k : Nat) (hw : Memory.wf m = true)
    (h : Memory.above k m = true) (ha : a ≤ k) : Memory.read m a = Memory.unlisted := by
  induction m generalizing k with
  | nil => rfl
  | cons c r ih =>
    obtain ⟨j, v⟩ := c
    obtain ⟨-, hr, hw⟩ := (Memory_wf_cons j v r).1 hw
    have hkj : k < j := by simpa [Memory.above] using h
    rw [Memory.read, if_neg (by omega)]
    exact ih j hw hr (by omega)

/-- A byte reads back as it was written. -/
theorem Memory_read_write_same (m : List Host.Cell) (a : Nat) (b : Byte) (hw : Memory.wf m = true) :
    Memory.read (Memory.write m a b) a = b := by
  induction m with
  | nil =>
    unfold Memory.write
    split
    · next h => simp [Memory.read, h]
    · simp [Memory.read]
  | cons c r ih =>
    obtain ⟨k, v⟩ := c
    have hc := (Memory_wf_cons k v r).1 hw
    unfold Memory.write
    split
    · next hlt =>
      split
      · next h =>
        rw [Memory.read, if_neg (by omega), h]
        exact Memory_read_above r a k hc.2.2 hc.2.1 (by omega)
      · simp [Memory.read]
    · split
      · next hlt he =>
        split
        · next h =>
          rw [h]
          exact Memory_read_above r a k hc.2.2 hc.2.1 (by omega)
        · simp [Memory.read]
      · next hlt he =>
        rw [Memory.read, if_neg he]
        exact ih hc.2.2

/-- A write leaves every other byte alone. -/
theorem Memory_read_write_other (m : List Host.Cell) (a c : Nat) (b : Byte) (h : c ≠ a) :
    Memory.read (Memory.write m a b) c = Memory.read m c := by
  induction m with
  | nil =>
    unfold Memory.write
    split
    · rfl
    · simp [Memory.read, h]
  | cons x r ih =>
    obtain ⟨k, v⟩ := x
    unfold Memory.write
    split
    · split
      · rfl
      · simp [Memory.read, h]
    · split
      · next he =>
        subst he
        split <;> simp [Memory.read, h]
      · simp only [Memory.read, ih]

/-- A write keeps what lies above an address above it. -/
theorem Memory_above_write (m : List Host.Cell) (a k : Nat) (b : Byte) (h : Memory.above k m = true) (ha : k < a)
    (hw : Memory.wf m = true) : Memory.above k (Memory.write m a b) = true := by
  cases m with
  | nil =>
    unfold Memory.write
    split <;> simp [Memory.above, ha]
  | cons c r =>
    obtain ⟨j, v⟩ := c
    have hkj : k < j := by simpa [Memory.above] using h
    unfold Memory.write
    split
    · split <;> simp [Memory.above, ha, hkj]
    · split
      · split
        · cases r with
          | nil => rfl
          | cons d r' =>
            have := ((Memory_wf_cons j v _).1 hw).2.1
            simp only [Memory.above, decide_eq_true_eq] at this ⊢
            omega
        · simp [Memory.above, ha]
      · simp [Memory.above, hkj]

/-- A write keeps the canonical form. -/
theorem Memory_wf_write (m : List Host.Cell) (a : Nat) (b : Byte) (hw : Memory.wf m = true) :
    Memory.wf (Memory.write m a b) = true := by
  induction m with
  | nil =>
    unfold Memory.write
    split
    · rfl
    · next h => exact (Memory_wf_cons a b []).2 ⟨h, rfl, rfl⟩
  | cons c r ih =>
    obtain ⟨k, v⟩ := c
    have hc := (Memory_wf_cons k v r).1 hw
    unfold Memory.write
    split
    · next hlt =>
      split
      · exact hw
      · next h => exact (Memory_wf_cons a b _).2 ⟨h, by simp [Memory.above, hlt], hw⟩
    · split
      · next hlt he =>
        split
        · exact hc.2.2
        · next h =>
          subst he
          exact (Memory_wf_cons a b r).2 ⟨h, hc.2.1, hc.2.2⟩
      · next hlt he =>
        exact (Memory_wf_cons k v _).2
          ⟨hc.1, Memory_above_write r a k b hc.2.1 (by omega) hc.2.2, ih hc.2.2⟩

/-- A store of several bytes keeps the canonical form. -/
theorem Memory_wf_writeBytes (n : Nat) (m : List Host.Cell) (a : Nat) (v : Dword) (hw : Memory.wf m = true) :
    Memory.wf (Memory.writeBytes m a n v) = true := by
  induction n generalizing m a v with
  | zero => exact hw
  | succ n ih => exact ih _ _ _ (Memory_wf_write _ _ _ hw)

/-- A store of a line keeps the canonical form. -/
theorem Memory_wf_writeLine (m : List Host.Cell) (a : Nat) (v : BitVec 256) (hw : Memory.wf m = true) :
    Memory.wf (Memory.writeLine m a v) = true := by
  unfold Memory.writeLine
  repeat apply Memory_wf_writeBytes
  exact hw

/-- A store of several bytes leaves the bytes outside them alone. -/
theorem Memory_read_writeBytes_other (n : Nat) (m : List Host.Cell) (a c : Nat) (v : Dword)
    (h : ¬(a ≤ c ∧ c < a + n)) : Memory.read (Memory.writeBytes m a n v) c = Memory.read m c := by
  induction n generalizing m a v with
  | zero => rfl
  | succ n ih =>
    rw [Memory.writeBytes, ih _ _ _ (by omega), Memory_read_write_other _ _ _ _ (by omega)]

/-- Byte `i` of a store of several bytes reads back as byte `i` of the value. -/
theorem Memory_read_writeBytes_same (n : Nat) (m : List Host.Cell) (a i : Nat) (v : Dword) (h : i < n)
    (hw : Memory.wf m = true) :
    Memory.read (Memory.writeBytes m a n v) (a + i) = (v >>> (8 * i)).truncate 8 := by
  induction n generalizing m a i v with
  | zero => omega
  | succ n ih =>
    cases i with
    | zero =>
      rw [Memory.writeBytes, Memory_read_writeBytes_other _ _ _ _ _ (by omega), Nat.add_zero,
        Memory_read_write_same _ _ _ hw]
      simp
    | succ i =>
      have e : a + (i + 1) = a + 1 + i := by omega
      rw [Memory.writeBytes, e, ih _ _ _ _ (by omega) (Memory_wf_write _ _ _ hw), ← BitVec.shiftRight_add]
      congr 2
      omega

end Sys2Proof.Laws
end

