-- ==== Sys2Proof/Laws/State.lean ====
section
/-! SUPPORT. One lemma per field per update of the state, so that no later proof unfolds a record update. -/

namespace Sys2Proof.Laws

open Sys2Proof.Machine

/-! `drew` -/

@[simp] theorem drew_gpr (s : State) (n : Nat) : (s.drew n).gpr = s.gpr := rfl
@[simp] theorem drew_hi (s : State) (n : Nat) : (s.drew n).hi = s.hi := rfl
@[simp] theorem drew_lo (s : State) (n : Nat) : (s.drew n).lo = s.lo := rfl
@[simp] theorem drew_pc (s : State) (n : Nat) : (s.drew n).pc = s.pc := rfl
@[simp] theorem drew_inDelaySlot (s : State) (n : Nat) : (s.drew n).inDelaySlot = s.inDelaySlot := rfl
@[simp] theorem drew_branchTarget (s : State) (n : Nat) : (s.drew n).branchTarget = s.branchTarget := rfl
@[simp] theorem drew_cp0 (s : State) (n : Nat) : (s.drew n).cp0 = s.cp0 := rfl
@[simp] theorem drew_fpu (s : State) (n : Nat) : (s.drew n).fpu = s.fpu := rfl
@[simp] theorem drew_tlb (s : State) (n : Nat) : (s.drew n).tlb = s.tlb := rfl
@[simp] theorem drew_llBit (s : State) (n : Nat) : (s.drew n).llBit = s.llBit := rfl
@[simp] theorem drew_intReg (s : State) (n : Nat) : (s.drew n).intReg = s.intReg := rfl
@[simp] theorem drew_intPin (s : State) (n : Nat) : (s.drew n).intPin = s.intPin := rfl
@[simp] theorem drew_nmiPin (s : State) (n : Nat) : (s.drew n).nmiPin = s.nmiPin := rfl
@[simp] theorem drew_nmiLevel (s : State) (n : Nat) : (s.drew n).nmiLevel = s.nmiLevel := rfl
@[simp] theorem drew_timerPending (s : State) (n : Nat) : (s.drew n).timerPending = s.timerPending := rfl
@[simp] theorem drew_standby (s : State) (n : Nat) : (s.drew n).standby = s.standby := rfl
@[simp] theorem drew_busIdle (s : State) (n : Nat) : (s.drew n).busIdle = s.busIdle := rfl
@[simp] theorem drew_caches (s : State) (n : Nat) : (s.drew n).caches = s.caches := rfl
@[simp] theorem drew_mem (s : State) (n : Nat) : (s.drew n).mem = s.mem := rfl
@[simp] theorem drew_stale (s : State) (n : Nat) : (s.drew n).stale = s.stale := rfl
@[simp] theorem drew_params (s : State) (n : Nat) : (s.drew n).params = s.params := rfl
@[simp] theorem drew_pendingErrors (s : State) (n : Nat) : (s.drew n).pendingErrors = s.pendingErrors := rfl
@[simp] theorem drew_events (s : State) (n : Nat) : (s.drew n).events = s.events := rfl
@[simp] theorem drew_hazards (s : State) (n : Nat) : (s.drew n).hazards = s.hazards := rfl

/-! `advance` -/

@[simp] theorem advance_gpr (s : State) : (advance s).gpr = s.gpr := by unfold advance; split <;> rfl
@[simp] theorem advance_hi (s : State) : (advance s).hi = s.hi := by unfold advance; split <;> rfl
@[simp] theorem advance_lo (s : State) : (advance s).lo = s.lo := by unfold advance; split <;> rfl
@[simp] theorem advance_branchTarget (s : State) : (advance s).branchTarget = s.branchTarget := by unfold advance; split <;> rfl
@[simp] theorem advance_cp0 (s : State) : (advance s).cp0 = s.cp0 := by unfold advance; split <;> rfl
@[simp] theorem advance_fpu (s : State) : (advance s).fpu = s.fpu := by unfold advance; split <;> rfl
@[simp] theorem advance_tlb (s : State) : (advance s).tlb = s.tlb := by unfold advance; split <;> rfl
@[simp] theorem advance_llBit (s : State) : (advance s).llBit = s.llBit := by unfold advance; split <;> rfl
@[simp] theorem advance_intReg (s : State) : (advance s).intReg = s.intReg := by unfold advance; split <;> rfl
@[simp] theorem advance_intPin (s : State) : (advance s).intPin = s.intPin := by unfold advance; split <;> rfl
@[simp] theorem advance_nmiPin (s : State) : (advance s).nmiPin = s.nmiPin := by unfold advance; split <;> rfl
@[simp] theorem advance_nmiLevel (s : State) : (advance s).nmiLevel = s.nmiLevel := by unfold advance; split <;> rfl
@[simp] theorem advance_timerPending (s : State) : (advance s).timerPending = s.timerPending := by unfold advance; split <;> rfl
@[simp] theorem advance_standby (s : State) : (advance s).standby = s.standby := by unfold advance; split <;> rfl
@[simp] theorem advance_busIdle (s : State) : (advance s).busIdle = s.busIdle := by unfold advance; split <;> rfl
@[simp] theorem advance_caches (s : State) : (advance s).caches = s.caches := by unfold advance; split <;> rfl
@[simp] theorem advance_mem (s : State) : (advance s).mem = s.mem := by unfold advance; split <;> rfl
@[simp] theorem advance_stale (s : State) : (advance s).stale = s.stale := by unfold advance; split <;> rfl
@[simp] theorem advance_params (s : State) : (advance s).params = s.params := by unfold advance; split <;> rfl
@[simp] theorem advance_pendingErrors (s : State) : (advance s).pendingErrors = s.pendingErrors := by unfold advance; split <;> rfl
@[simp] theorem advance_events (s : State) : (advance s).events = s.events := by unfold advance; split <;> rfl
@[simp] theorem advance_freeCount (s : State) : (advance s).freeCount = s.freeCount := by unfold advance; split <;> rfl
@[simp] theorem advance_hazards (s : State) : (advance s).hazards = s.hazards := by unfold advance; split <;> rfl

/-! `enterSlot` -/

@[simp] theorem enterSlot_gpr (s : State) (t : Dword) : (enterSlot t s).gpr = s.gpr := rfl
@[simp] theorem enterSlot_hi (s : State) (t : Dword) : (enterSlot t s).hi = s.hi := rfl
@[simp] theorem enterSlot_lo (s : State) (t : Dword) : (enterSlot t s).lo = s.lo := rfl
@[simp] theorem enterSlot_cp0 (s : State) (t : Dword) : (enterSlot t s).cp0 = s.cp0 := rfl
@[simp] theorem enterSlot_fpu (s : State) (t : Dword) : (enterSlot t s).fpu = s.fpu := rfl
@[simp] theorem enterSlot_tlb (s : State) (t : Dword) : (enterSlot t s).tlb = s.tlb := rfl
@[simp] theorem enterSlot_llBit (s : State) (t : Dword) : (enterSlot t s).llBit = s.llBit := rfl
@[simp] theorem enterSlot_intReg (s : State) (t : Dword) : (enterSlot t s).intReg = s.intReg := rfl
@[simp] theorem enterSlot_intPin (s : State) (t : Dword) : (enterSlot t s).intPin = s.intPin := rfl
@[simp] theorem enterSlot_nmiPin (s : State) (t : Dword) : (enterSlot t s).nmiPin = s.nmiPin := rfl
@[simp] theorem enterSlot_nmiLevel (s : State) (t : Dword) : (enterSlot t s).nmiLevel = s.nmiLevel := rfl
@[simp] theorem enterSlot_timerPending (s : State) (t : Dword) : (enterSlot t s).timerPending = s.timerPending := rfl
@[simp] theorem enterSlot_standby (s : State) (t : Dword) : (enterSlot t s).standby = s.standby := rfl
@[simp] theorem enterSlot_busIdle (s : State) (t : Dword) : (enterSlot t s).busIdle = s.busIdle := rfl
@[simp] theorem enterSlot_caches (s : State) (t : Dword) : (enterSlot t s).caches = s.caches := rfl
@[simp] theorem enterSlot_mem (s : State) (t : Dword) : (enterSlot t s).mem = s.mem := rfl
@[simp] theorem enterSlot_stale (s : State) (t : Dword) : (enterSlot t s).stale = s.stale := rfl
@[simp] theorem enterSlot_params (s : State) (t : Dword) : (enterSlot t s).params = s.params := rfl
@[simp] theorem enterSlot_pendingErrors (s : State) (t : Dword) : (enterSlot t s).pendingErrors = s.pendingErrors := rfl
@[simp] theorem enterSlot_events (s : State) (t : Dword) : (enterSlot t s).events = s.events := rfl
@[simp] theorem enterSlot_freeCount (s : State) (t : Dword) : (enterSlot t s).freeCount = s.freeCount := rfl
@[simp] theorem enterSlot_hazards (s : State) (t : Dword) : (enterSlot t s).hazards = s.hazards := rfl

/-! `nullifySlot` -/

@[simp] theorem nullifySlot_gpr (s : State) : (nullifySlot s).gpr = s.gpr := rfl
@[simp] theorem nullifySlot_hi (s : State) : (nullifySlot s).hi = s.hi := rfl
@[simp] theorem nullifySlot_lo (s : State) : (nullifySlot s).lo = s.lo := rfl
@[simp] theorem nullifySlot_inDelaySlot (s : State) : (nullifySlot s).inDelaySlot = s.inDelaySlot := rfl
@[simp] theorem nullifySlot_branchTarget (s : State) : (nullifySlot s).branchTarget = s.branchTarget := rfl
@[simp] theorem nullifySlot_cp0 (s : State) : (nullifySlot s).cp0 = s.cp0 := rfl
@[simp] theorem nullifySlot_fpu (s : State) : (nullifySlot s).fpu = s.fpu := rfl
@[simp] theorem nullifySlot_tlb (s : State) : (nullifySlot s).tlb = s.tlb := rfl
@[simp] theorem nullifySlot_llBit (s : State) : (nullifySlot s).llBit = s.llBit := rfl
@[simp] theorem nullifySlot_intReg (s : State) : (nullifySlot s).intReg = s.intReg := rfl
@[simp] theorem nullifySlot_intPin (s : State) : (nullifySlot s).intPin = s.intPin := rfl
@[simp] theorem nullifySlot_nmiPin (s : State) : (nullifySlot s).nmiPin = s.nmiPin := rfl
@[simp] theorem nullifySlot_nmiLevel (s : State) : (nullifySlot s).nmiLevel = s.nmiLevel := rfl
@[simp] theorem nullifySlot_timerPending (s : State) : (nullifySlot s).timerPending = s.timerPending := rfl
@[simp] theorem nullifySlot_standby (s : State) : (nullifySlot s).standby = s.standby := rfl
@[simp] theorem nullifySlot_busIdle (s : State) : (nullifySlot s).busIdle = s.busIdle := rfl
@[simp] theorem nullifySlot_caches (s : State) : (nullifySlot s).caches = s.caches := rfl
@[simp] theorem nullifySlot_mem (s : State) : (nullifySlot s).mem = s.mem := rfl
@[simp] theorem nullifySlot_stale (s : State) : (nullifySlot s).stale = s.stale := rfl
@[simp] theorem nullifySlot_params (s : State) : (nullifySlot s).params = s.params := rfl
@[simp] theorem nullifySlot_pendingErrors (s : State) : (nullifySlot s).pendingErrors = s.pendingErrors := rfl
@[simp] theorem nullifySlot_events (s : State) : (nullifySlot s).events = s.events := rfl
@[simp] theorem nullifySlot_freeCount (s : State) : (nullifySlot s).freeCount = s.freeCount := rfl
@[simp] theorem nullifySlot_hazards (s : State) : (nullifySlot s).hazards = s.hazards := rfl

/-! `writeGpr` -/

@[simp] theorem writeGpr_hi (s : State) (r : RegNum) (v : Dword) : (writeGpr s r v).hi = s.hi := by unfold writeGpr; split <;> rfl
@[simp] theorem writeGpr_lo (s : State) (r : RegNum) (v : Dword) : (writeGpr s r v).lo = s.lo := by unfold writeGpr; split <;> rfl
@[simp] theorem writeGpr_pc (s : State) (r : RegNum) (v : Dword) : (writeGpr s r v).pc = s.pc := by unfold writeGpr; split <;> rfl
@[simp] theorem writeGpr_inDelaySlot (s : State) (r : RegNum) (v : Dword) : (writeGpr s r v).inDelaySlot = s.inDelaySlot := by unfold writeGpr; split <;> rfl
@[simp] theorem writeGpr_branchTarget (s : State) (r : RegNum) (v : Dword) : (writeGpr s r v).branchTarget = s.branchTarget := by unfold writeGpr; split <;> rfl
@[simp] theorem writeGpr_cp0 (s : State) (r : RegNum) (v : Dword) : (writeGpr s r v).cp0 = s.cp0 := by unfold writeGpr; split <;> rfl
@[simp] theorem writeGpr_fpu (s : State) (r : RegNum) (v : Dword) : (writeGpr s r v).fpu = s.fpu := by unfold writeGpr; split <;> rfl
@[simp] theorem writeGpr_tlb (s : State) (r : RegNum) (v : Dword) : (writeGpr s r v).tlb = s.tlb := by unfold writeGpr; split <;> rfl
@[simp] theorem writeGpr_llBit (s : State) (r : RegNum) (v : Dword) : (writeGpr s r v).llBit = s.llBit := by unfold writeGpr; split <;> rfl
@[simp] theorem writeGpr_intReg (s : State) (r : RegNum) (v : Dword) : (writeGpr s r v).intReg = s.intReg := by unfold writeGpr; split <;> rfl
@[simp] theorem writeGpr_intPin (s : State) (r : RegNum) (v : Dword) : (writeGpr s r v).intPin = s.intPin := by unfold writeGpr; split <;> rfl
@[simp] theorem writeGpr_nmiPin (s : State) (r : RegNum) (v : Dword) : (writeGpr s r v).nmiPin = s.nmiPin := by unfold writeGpr; split <;> rfl
@[simp] theorem writeGpr_nmiLevel (s : State) (r : RegNum) (v : Dword) : (writeGpr s r v).nmiLevel = s.nmiLevel := by unfold writeGpr; split <;> rfl
@[simp] theorem writeGpr_timerPending (s : State) (r : RegNum) (v : Dword) : (writeGpr s r v).timerPending = s.timerPending := by unfold writeGpr; split <;> rfl
@[simp] theorem writeGpr_standby (s : State) (r : RegNum) (v : Dword) : (writeGpr s r v).standby = s.standby := by unfold writeGpr; split <;> rfl
@[simp] theorem writeGpr_busIdle (s : State) (r : RegNum) (v : Dword) : (writeGpr s r v).busIdle = s.busIdle := by unfold writeGpr; split <;> rfl
@[simp] theorem writeGpr_caches (s : State) (r : RegNum) (v : Dword) : (writeGpr s r v).caches = s.caches := by unfold writeGpr; split <;> rfl
@[simp] theorem writeGpr_mem (s : State) (r : RegNum) (v : Dword) : (writeGpr s r v).mem = s.mem := by unfold writeGpr; split <;> rfl
@[simp] theorem writeGpr_stale (s : State) (r : RegNum) (v : Dword) : (writeGpr s r v).stale = s.stale := by unfold writeGpr; split <;> rfl
@[simp] theorem writeGpr_params (s : State) (r : RegNum) (v : Dword) : (writeGpr s r v).params = s.params := by unfold writeGpr; split <;> rfl
@[simp] theorem writeGpr_pendingErrors (s : State) (r : RegNum) (v : Dword) : (writeGpr s r v).pendingErrors = s.pendingErrors := by unfold writeGpr; split <;> rfl
@[simp] theorem writeGpr_events (s : State) (r : RegNum) (v : Dword) : (writeGpr s r v).events = s.events := by unfold writeGpr; split <;> rfl
@[simp] theorem writeGpr_freeCount (s : State) (r : RegNum) (v : Dword) : (writeGpr s r v).freeCount = s.freeCount := by unfold writeGpr; split <;> rfl
@[simp] theorem writeGpr_hazards (s : State) (r : RegNum) (v : Dword) : (writeGpr s r v).hazards = s.hazards := by unfold writeGpr; split <;> rfl

/-! `writeHiLo` -/

@[simp] theorem writeHiLo_gpr (s : State) (h l : Dword) : (writeHiLo h l s).gpr = s.gpr := rfl
@[simp] theorem writeHiLo_pc (s : State) (h l : Dword) : (writeHiLo h l s).pc = s.pc := rfl
@[simp] theorem writeHiLo_inDelaySlot (s : State) (h l : Dword) : (writeHiLo h l s).inDelaySlot = s.inDelaySlot := rfl
@[simp] theorem writeHiLo_branchTarget (s : State) (h l : Dword) : (writeHiLo h l s).branchTarget = s.branchTarget := rfl
@[simp] theorem writeHiLo_cp0 (s : State) (h l : Dword) : (writeHiLo h l s).cp0 = s.cp0 := rfl
@[simp] theorem writeHiLo_fpu (s : State) (h l : Dword) : (writeHiLo h l s).fpu = s.fpu := rfl
@[simp] theorem writeHiLo_tlb (s : State) (h l : Dword) : (writeHiLo h l s).tlb = s.tlb := rfl
@[simp] theorem writeHiLo_llBit (s : State) (h l : Dword) : (writeHiLo h l s).llBit = s.llBit := rfl
@[simp] theorem writeHiLo_intReg (s : State) (h l : Dword) : (writeHiLo h l s).intReg = s.intReg := rfl
@[simp] theorem writeHiLo_intPin (s : State) (h l : Dword) : (writeHiLo h l s).intPin = s.intPin := rfl
@[simp] theorem writeHiLo_nmiPin (s : State) (h l : Dword) : (writeHiLo h l s).nmiPin = s.nmiPin := rfl
@[simp] theorem writeHiLo_nmiLevel (s : State) (h l : Dword) : (writeHiLo h l s).nmiLevel = s.nmiLevel := rfl
@[simp] theorem writeHiLo_timerPending (s : State) (h l : Dword) : (writeHiLo h l s).timerPending = s.timerPending := rfl
@[simp] theorem writeHiLo_standby (s : State) (h l : Dword) : (writeHiLo h l s).standby = s.standby := rfl
@[simp] theorem writeHiLo_busIdle (s : State) (h l : Dword) : (writeHiLo h l s).busIdle = s.busIdle := rfl
@[simp] theorem writeHiLo_caches (s : State) (h l : Dword) : (writeHiLo h l s).caches = s.caches := rfl
@[simp] theorem writeHiLo_mem (s : State) (h l : Dword) : (writeHiLo h l s).mem = s.mem := rfl
@[simp] theorem writeHiLo_stale (s : State) (h l : Dword) : (writeHiLo h l s).stale = s.stale := rfl
@[simp] theorem writeHiLo_params (s : State) (h l : Dword) : (writeHiLo h l s).params = s.params := rfl
@[simp] theorem writeHiLo_pendingErrors (s : State) (h l : Dword) : (writeHiLo h l s).pendingErrors = s.pendingErrors := rfl
@[simp] theorem writeHiLo_events (s : State) (h l : Dword) : (writeHiLo h l s).events = s.events := rfl
@[simp] theorem writeHiLo_freeCount (s : State) (h l : Dword) : (writeHiLo h l s).freeCount = s.freeCount := rfl
@[simp] theorem writeHiLo_hazards (s : State) (h l : Dword) : (writeHiLo h l s).hazards = s.hazards := rfl

/-! `writeFgr` -/

@[simp] theorem writeFgr_gpr (s : State) (f : RegNum) (v : Dword) : (writeFgr f v s).gpr = s.gpr := rfl
@[simp] theorem writeFgr_hi (s : State) (f : RegNum) (v : Dword) : (writeFgr f v s).hi = s.hi := rfl
@[simp] theorem writeFgr_lo (s : State) (f : RegNum) (v : Dword) : (writeFgr f v s).lo = s.lo := rfl
@[simp] theorem writeFgr_pc (s : State) (f : RegNum) (v : Dword) : (writeFgr f v s).pc = s.pc := rfl
@[simp] theorem writeFgr_inDelaySlot (s : State) (f : RegNum) (v : Dword) : (writeFgr f v s).inDelaySlot = s.inDelaySlot := rfl
@[simp] theorem writeFgr_branchTarget (s : State) (f : RegNum) (v : Dword) : (writeFgr f v s).branchTarget = s.branchTarget := rfl
@[simp] theorem writeFgr_cp0 (s : State) (f : RegNum) (v : Dword) : (writeFgr f v s).cp0 = s.cp0 := rfl
@[simp] theorem writeFgr_tlb (s : State) (f : RegNum) (v : Dword) : (writeFgr f v s).tlb = s.tlb := rfl
@[simp] theorem writeFgr_llBit (s : State) (f : RegNum) (v : Dword) : (writeFgr f v s).llBit = s.llBit := rfl
@[simp] theorem writeFgr_intReg (s : State) (f : RegNum) (v : Dword) : (writeFgr f v s).intReg = s.intReg := rfl
@[simp] theorem writeFgr_intPin (s : State) (f : RegNum) (v : Dword) : (writeFgr f v s).intPin = s.intPin := rfl
@[simp] theorem writeFgr_nmiPin (s : State) (f : RegNum) (v : Dword) : (writeFgr f v s).nmiPin = s.nmiPin := rfl
@[simp] theorem writeFgr_nmiLevel (s : State) (f : RegNum) (v : Dword) : (writeFgr f v s).nmiLevel = s.nmiLevel := rfl
@[simp] theorem writeFgr_timerPending (s : State) (f : RegNum) (v : Dword) : (writeFgr f v s).timerPending = s.timerPending := rfl
@[simp] theorem writeFgr_standby (s : State) (f : RegNum) (v : Dword) : (writeFgr f v s).standby = s.standby := rfl
@[simp] theorem writeFgr_busIdle (s : State) (f : RegNum) (v : Dword) : (writeFgr f v s).busIdle = s.busIdle := rfl
@[simp] theorem writeFgr_caches (s : State) (f : RegNum) (v : Dword) : (writeFgr f v s).caches = s.caches := rfl
@[simp] theorem writeFgr_mem (s : State) (f : RegNum) (v : Dword) : (writeFgr f v s).mem = s.mem := rfl
@[simp] theorem writeFgr_stale (s : State) (f : RegNum) (v : Dword) : (writeFgr f v s).stale = s.stale := rfl
@[simp] theorem writeFgr_params (s : State) (f : RegNum) (v : Dword) : (writeFgr f v s).params = s.params := rfl
@[simp] theorem writeFgr_pendingErrors (s : State) (f : RegNum) (v : Dword) : (writeFgr f v s).pendingErrors = s.pendingErrors := rfl
@[simp] theorem writeFgr_events (s : State) (f : RegNum) (v : Dword) : (writeFgr f v s).events = s.events := rfl
@[simp] theorem writeFgr_freeCount (s : State) (f : RegNum) (v : Dword) : (writeFgr f v s).freeCount = s.freeCount := rfl
@[simp] theorem writeFgr_hazards (s : State) (f : RegNum) (v : Dword) : (writeFgr f v s).hazards = s.hazards := rfl

/-! `setFpCause` -/

@[simp] theorem setFpCause_gpr (s : State) (u : Bool) (x : FpFlags) : (setFpCause u x s).gpr = s.gpr := rfl
@[simp] theorem setFpCause_hi (s : State) (u : Bool) (x : FpFlags) : (setFpCause u x s).hi = s.hi := rfl
@[simp] theorem setFpCause_lo (s : State) (u : Bool) (x : FpFlags) : (setFpCause u x s).lo = s.lo := rfl
@[simp] theorem setFpCause_pc (s : State) (u : Bool) (x : FpFlags) : (setFpCause u x s).pc = s.pc := rfl
@[simp] theorem setFpCause_inDelaySlot (s : State) (u : Bool) (x : FpFlags) : (setFpCause u x s).inDelaySlot = s.inDelaySlot := rfl
@[simp] theorem setFpCause_branchTarget (s : State) (u : Bool) (x : FpFlags) : (setFpCause u x s).branchTarget = s.branchTarget := rfl
@[simp] theorem setFpCause_cp0 (s : State) (u : Bool) (x : FpFlags) : (setFpCause u x s).cp0 = s.cp0 := rfl
@[simp] theorem setFpCause_tlb (s : State) (u : Bool) (x : FpFlags) : (setFpCause u x s).tlb = s.tlb := rfl
@[simp] theorem setFpCause_llBit (s : State) (u : Bool) (x : FpFlags) : (setFpCause u x s).llBit = s.llBit := rfl
@[simp] theorem setFpCause_intReg (s : State) (u : Bool) (x : FpFlags) : (setFpCause u x s).intReg = s.intReg := rfl
@[simp] theorem setFpCause_intPin (s : State) (u : Bool) (x : FpFlags) : (setFpCause u x s).intPin = s.intPin := rfl
@[simp] theorem setFpCause_nmiPin (s : State) (u : Bool) (x : FpFlags) : (setFpCause u x s).nmiPin = s.nmiPin := rfl
@[simp] theorem setFpCause_nmiLevel (s : State) (u : Bool) (x : FpFlags) : (setFpCause u x s).nmiLevel = s.nmiLevel := rfl
@[simp] theorem setFpCause_timerPending (s : State) (u : Bool) (x : FpFlags) : (setFpCause u x s).timerPending = s.timerPending := rfl
@[simp] theorem setFpCause_standby (s : State) (u : Bool) (x : FpFlags) : (setFpCause u x s).standby = s.standby := rfl
@[simp] theorem setFpCause_busIdle (s : State) (u : Bool) (x : FpFlags) : (setFpCause u x s).busIdle = s.busIdle := rfl
@[simp] theorem setFpCause_caches (s : State) (u : Bool) (x : FpFlags) : (setFpCause u x s).caches = s.caches := rfl
@[simp] theorem setFpCause_mem (s : State) (u : Bool) (x : FpFlags) : (setFpCause u x s).mem = s.mem := rfl
@[simp] theorem setFpCause_stale (s : State) (u : Bool) (x : FpFlags) : (setFpCause u x s).stale = s.stale := rfl
@[simp] theorem setFpCause_params (s : State) (u : Bool) (x : FpFlags) : (setFpCause u x s).params = s.params := rfl
@[simp] theorem setFpCause_pendingErrors (s : State) (u : Bool) (x : FpFlags) : (setFpCause u x s).pendingErrors = s.pendingErrors := rfl
@[simp] theorem setFpCause_events (s : State) (u : Bool) (x : FpFlags) : (setFpCause u x s).events = s.events := rfl
@[simp] theorem setFpCause_freeCount (s : State) (u : Bool) (x : FpFlags) : (setFpCause u x s).freeCount = s.freeCount := rfl
@[simp] theorem setFpCause_hazards (s : State) (u : Bool) (x : FpFlags) : (setFpCause u x s).hazards = s.hazards := rfl

/-! `addFpFlags` -/

@[simp] theorem addFpFlags_gpr (s : State) (x : FpFlags) : (addFpFlags x s).gpr = s.gpr := rfl
@[simp] theorem addFpFlags_hi (s : State) (x : FpFlags) : (addFpFlags x s).hi = s.hi := rfl
@[simp] theorem addFpFlags_lo (s : State) (x : FpFlags) : (addFpFlags x s).lo = s.lo := rfl
@[simp] theorem addFpFlags_pc (s : State) (x : FpFlags) : (addFpFlags x s).pc = s.pc := rfl
@[simp] theorem addFpFlags_inDelaySlot (s : State) (x : FpFlags) : (addFpFlags x s).inDelaySlot = s.inDelaySlot := rfl
@[simp] theorem addFpFlags_branchTarget (s : State) (x : FpFlags) : (addFpFlags x s).branchTarget = s.branchTarget := rfl
@[simp] theorem addFpFlags_cp0 (s : State) (x : FpFlags) : (addFpFlags x s).cp0 = s.cp0 := rfl
@[simp] theorem addFpFlags_tlb (s : State) (x : FpFlags) : (addFpFlags x s).tlb = s.tlb := rfl
@[simp] theorem addFpFlags_llBit (s : State) (x : FpFlags) : (addFpFlags x s).llBit = s.llBit := rfl
@[simp] theorem addFpFlags_intReg (s : State) (x : FpFlags) : (addFpFlags x s).intReg = s.intReg := rfl
@[simp] theorem addFpFlags_intPin (s : State) (x : FpFlags) : (addFpFlags x s).intPin = s.intPin := rfl
@[simp] theorem addFpFlags_nmiPin (s : State) (x : FpFlags) : (addFpFlags x s).nmiPin = s.nmiPin := rfl
@[simp] theorem addFpFlags_nmiLevel (s : State) (x : FpFlags) : (addFpFlags x s).nmiLevel = s.nmiLevel := rfl
@[simp] theorem addFpFlags_timerPending (s : State) (x : FpFlags) : (addFpFlags x s).timerPending = s.timerPending := rfl
@[simp] theorem addFpFlags_standby (s : State) (x : FpFlags) : (addFpFlags x s).standby = s.standby := rfl
@[simp] theorem addFpFlags_busIdle (s : State) (x : FpFlags) : (addFpFlags x s).busIdle = s.busIdle := rfl
@[simp] theorem addFpFlags_caches (s : State) (x : FpFlags) : (addFpFlags x s).caches = s.caches := rfl
@[simp] theorem addFpFlags_mem (s : State) (x : FpFlags) : (addFpFlags x s).mem = s.mem := rfl
@[simp] theorem addFpFlags_stale (s : State) (x : FpFlags) : (addFpFlags x s).stale = s.stale := rfl
@[simp] theorem addFpFlags_params (s : State) (x : FpFlags) : (addFpFlags x s).params = s.params := rfl
@[simp] theorem addFpFlags_pendingErrors (s : State) (x : FpFlags) : (addFpFlags x s).pendingErrors = s.pendingErrors := rfl
@[simp] theorem addFpFlags_events (s : State) (x : FpFlags) : (addFpFlags x s).events = s.events := rfl
@[simp] theorem addFpFlags_freeCount (s : State) (x : FpFlags) : (addFpFlags x s).freeCount = s.freeCount := rfl
@[simp] theorem addFpFlags_hazards (s : State) (x : FpFlags) : (addFpFlags x s).hazards = s.hazards := rfl

/-! `writeFcc` -/

@[simp] theorem writeFcc_gpr (s : State) (cc : BitVec 3) (b : Bool) : (writeFcc cc b s).gpr = s.gpr := rfl
@[simp] theorem writeFcc_hi (s : State) (cc : BitVec 3) (b : Bool) : (writeFcc cc b s).hi = s.hi := rfl
@[simp] theorem writeFcc_lo (s : State) (cc : BitVec 3) (b : Bool) : (writeFcc cc b s).lo = s.lo := rfl
@[simp] theorem writeFcc_pc (s : State) (cc : BitVec 3) (b : Bool) : (writeFcc cc b s).pc = s.pc := rfl
@[simp] theorem writeFcc_inDelaySlot (s : State) (cc : BitVec 3) (b : Bool) : (writeFcc cc b s).inDelaySlot = s.inDelaySlot := rfl
@[simp] theorem writeFcc_branchTarget (s : State) (cc : BitVec 3) (b : Bool) : (writeFcc cc b s).branchTarget = s.branchTarget := rfl
@[simp] theorem writeFcc_cp0 (s : State) (cc : BitVec 3) (b : Bool) : (writeFcc cc b s).cp0 = s.cp0 := rfl
@[simp] theorem writeFcc_tlb (s : State) (cc : BitVec 3) (b : Bool) : (writeFcc cc b s).tlb = s.tlb := rfl
@[simp] theorem writeFcc_llBit (s : State) (cc : BitVec 3) (b : Bool) : (writeFcc cc b s).llBit = s.llBit := rfl
@[simp] theorem writeFcc_intReg (s : State) (cc : BitVec 3) (b : Bool) : (writeFcc cc b s).intReg = s.intReg := rfl
@[simp] theorem writeFcc_intPin (s : State) (cc : BitVec 3) (b : Bool) : (writeFcc cc b s).intPin = s.intPin := rfl
@[simp] theorem writeFcc_nmiPin (s : State) (cc : BitVec 3) (b : Bool) : (writeFcc cc b s).nmiPin = s.nmiPin := rfl
@[simp] theorem writeFcc_nmiLevel (s : State) (cc : BitVec 3) (b : Bool) : (writeFcc cc b s).nmiLevel = s.nmiLevel := rfl
@[simp] theorem writeFcc_timerPending (s : State) (cc : BitVec 3) (b : Bool) : (writeFcc cc b s).timerPending = s.timerPending := rfl
@[simp] theorem writeFcc_standby (s : State) (cc : BitVec 3) (b : Bool) : (writeFcc cc b s).standby = s.standby := rfl
@[simp] theorem writeFcc_busIdle (s : State) (cc : BitVec 3) (b : Bool) : (writeFcc cc b s).busIdle = s.busIdle := rfl
@[simp] theorem writeFcc_caches (s : State) (cc : BitVec 3) (b : Bool) : (writeFcc cc b s).caches = s.caches := rfl
@[simp] theorem writeFcc_mem (s : State) (cc : BitVec 3) (b : Bool) : (writeFcc cc b s).mem = s.mem := rfl
@[simp] theorem writeFcc_stale (s : State) (cc : BitVec 3) (b : Bool) : (writeFcc cc b s).stale = s.stale := rfl
@[simp] theorem writeFcc_params (s : State) (cc : BitVec 3) (b : Bool) : (writeFcc cc b s).params = s.params := rfl
@[simp] theorem writeFcc_pendingErrors (s : State) (cc : BitVec 3) (b : Bool) : (writeFcc cc b s).pendingErrors = s.pendingErrors := rfl
@[simp] theorem writeFcc_events (s : State) (cc : BitVec 3) (b : Bool) : (writeFcc cc b s).events = s.events := rfl
@[simp] theorem writeFcc_freeCount (s : State) (cc : BitVec 3) (b : Bool) : (writeFcc cc b s).freeCount = s.freeCount := rfl
@[simp] theorem writeFcc_hazards (s : State) (cc : BitVec 3) (b : Bool) : (writeFcc cc b s).hazards = s.hazards := rfl

/-! `writeFcr31` -/

@[simp] theorem writeFcr31_gpr (s : State) (w : Word) : (writeFcr31 w s).gpr = s.gpr := rfl
@[simp] theorem writeFcr31_hi (s : State) (w : Word) : (writeFcr31 w s).hi = s.hi := rfl
@[simp] theorem writeFcr31_lo (s : State) (w : Word) : (writeFcr31 w s).lo = s.lo := rfl
@[simp] theorem writeFcr31_pc (s : State) (w : Word) : (writeFcr31 w s).pc = s.pc := rfl
@[simp] theorem writeFcr31_inDelaySlot (s : State) (w : Word) : (writeFcr31 w s).inDelaySlot = s.inDelaySlot := rfl
@[simp] theorem writeFcr31_branchTarget (s : State) (w : Word) : (writeFcr31 w s).branchTarget = s.branchTarget := rfl
@[simp] theorem writeFcr31_cp0 (s : State) (w : Word) : (writeFcr31 w s).cp0 = s.cp0 := rfl
@[simp] theorem writeFcr31_tlb (s : State) (w : Word) : (writeFcr31 w s).tlb = s.tlb := rfl
@[simp] theorem writeFcr31_llBit (s : State) (w : Word) : (writeFcr31 w s).llBit = s.llBit := rfl
@[simp] theorem writeFcr31_intReg (s : State) (w : Word) : (writeFcr31 w s).intReg = s.intReg := rfl
@[simp] theorem writeFcr31_intPin (s : State) (w : Word) : (writeFcr31 w s).intPin = s.intPin := rfl
@[simp] theorem writeFcr31_nmiPin (s : State) (w : Word) : (writeFcr31 w s).nmiPin = s.nmiPin := rfl
@[simp] theorem writeFcr31_nmiLevel (s : State) (w : Word) : (writeFcr31 w s).nmiLevel = s.nmiLevel := rfl
@[simp] theorem writeFcr31_timerPending (s : State) (w : Word) : (writeFcr31 w s).timerPending = s.timerPending := rfl
@[simp] theorem writeFcr31_standby (s : State) (w : Word) : (writeFcr31 w s).standby = s.standby := rfl
@[simp] theorem writeFcr31_busIdle (s : State) (w : Word) : (writeFcr31 w s).busIdle = s.busIdle := rfl
@[simp] theorem writeFcr31_caches (s : State) (w : Word) : (writeFcr31 w s).caches = s.caches := rfl
@[simp] theorem writeFcr31_mem (s : State) (w : Word) : (writeFcr31 w s).mem = s.mem := rfl
@[simp] theorem writeFcr31_stale (s : State) (w : Word) : (writeFcr31 w s).stale = s.stale := rfl
@[simp] theorem writeFcr31_params (s : State) (w : Word) : (writeFcr31 w s).params = s.params := rfl
@[simp] theorem writeFcr31_pendingErrors (s : State) (w : Word) : (writeFcr31 w s).pendingErrors = s.pendingErrors := rfl
@[simp] theorem writeFcr31_events (s : State) (w : Word) : (writeFcr31 w s).events = s.events := rfl
@[simp] theorem writeFcr31_freeCount (s : State) (w : Word) : (writeFcr31 w s).freeCount = s.freeCount := rfl
@[simp] theorem writeFcr31_hazards (s : State) (w : Word) : (writeFcr31 w s).hazards = s.hazards := rfl

/-! `writeFprWord` -/

@[simp] theorem writeFprWord_gpr (s : State) (f : RegNum) (v : Word) : (writeFprWord f v s).gpr = s.gpr := by unfold writeFprWord; split <;> rfl
@[simp] theorem writeFprWord_hi (s : State) (f : RegNum) (v : Word) : (writeFprWord f v s).hi = s.hi := by unfold writeFprWord; split <;> rfl
@[simp] theorem writeFprWord_lo (s : State) (f : RegNum) (v : Word) : (writeFprWord f v s).lo = s.lo := by unfold writeFprWord; split <;> rfl
@[simp] theorem writeFprWord_pc (s : State) (f : RegNum) (v : Word) : (writeFprWord f v s).pc = s.pc := by unfold writeFprWord; split <;> rfl
@[simp] theorem writeFprWord_inDelaySlot (s : State) (f : RegNum) (v : Word) : (writeFprWord f v s).inDelaySlot = s.inDelaySlot := by unfold writeFprWord; split <;> rfl
@[simp] theorem writeFprWord_branchTarget (s : State) (f : RegNum) (v : Word) : (writeFprWord f v s).branchTarget = s.branchTarget := by unfold writeFprWord; split <;> rfl
@[simp] theorem writeFprWord_cp0 (s : State) (f : RegNum) (v : Word) : (writeFprWord f v s).cp0 = s.cp0 := by unfold writeFprWord; split <;> rfl
@[simp] theorem writeFprWord_tlb (s : State) (f : RegNum) (v : Word) : (writeFprWord f v s).tlb = s.tlb := by unfold writeFprWord; split <;> rfl
@[simp] theorem writeFprWord_llBit (s : State) (f : RegNum) (v : Word) : (writeFprWord f v s).llBit = s.llBit := by unfold writeFprWord; split <;> rfl
@[simp] theorem writeFprWord_intReg (s : State) (f : RegNum) (v : Word) : (writeFprWord f v s).intReg = s.intReg := by unfold writeFprWord; split <;> rfl
@[simp] theorem writeFprWord_intPin (s : State) (f : RegNum) (v : Word) : (writeFprWord f v s).intPin = s.intPin := by unfold writeFprWord; split <;> rfl
@[simp] theorem writeFprWord_nmiPin (s : State) (f : RegNum) (v : Word) : (writeFprWord f v s).nmiPin = s.nmiPin := by unfold writeFprWord; split <;> rfl
@[simp] theorem writeFprWord_nmiLevel (s : State) (f : RegNum) (v : Word) : (writeFprWord f v s).nmiLevel = s.nmiLevel := by unfold writeFprWord; split <;> rfl
@[simp] theorem writeFprWord_timerPending (s : State) (f : RegNum) (v : Word) : (writeFprWord f v s).timerPending = s.timerPending := by unfold writeFprWord; split <;> rfl
@[simp] theorem writeFprWord_standby (s : State) (f : RegNum) (v : Word) : (writeFprWord f v s).standby = s.standby := by unfold writeFprWord; split <;> rfl
@[simp] theorem writeFprWord_busIdle (s : State) (f : RegNum) (v : Word) : (writeFprWord f v s).busIdle = s.busIdle := by unfold writeFprWord; split <;> rfl
@[simp] theorem writeFprWord_caches (s : State) (f : RegNum) (v : Word) : (writeFprWord f v s).caches = s.caches := by unfold writeFprWord; split <;> rfl
@[simp] theorem writeFprWord_mem (s : State) (f : RegNum) (v : Word) : (writeFprWord f v s).mem = s.mem := by unfold writeFprWord; split <;> rfl
@[simp] theorem writeFprWord_stale (s : State) (f : RegNum) (v : Word) : (writeFprWord f v s).stale = s.stale := by unfold writeFprWord; split <;> rfl
@[simp] theorem writeFprWord_params (s : State) (f : RegNum) (v : Word) : (writeFprWord f v s).params = s.params := by unfold writeFprWord; split <;> rfl
@[simp] theorem writeFprWord_pendingErrors (s : State) (f : RegNum) (v : Word) : (writeFprWord f v s).pendingErrors = s.pendingErrors := by unfold writeFprWord; split <;> rfl
@[simp] theorem writeFprWord_events (s : State) (f : RegNum) (v : Word) : (writeFprWord f v s).events = s.events := by unfold writeFprWord; split <;> rfl
@[simp] theorem writeFprWord_hazards (s : State) (f : RegNum) (v : Word) : (writeFprWord f v s).hazards = s.hazards := by unfold writeFprWord; split <;> rfl

/-! `writeFprDword` -/

@[simp] theorem writeFprDword_gpr (s : State) (f : RegNum) (v : Dword) : (writeFprDword f v s).gpr = s.gpr := by unfold writeFprDword; split <;> rfl
@[simp] theorem writeFprDword_hi (s : State) (f : RegNum) (v : Dword) : (writeFprDword f v s).hi = s.hi := by unfold writeFprDword; split <;> rfl
@[simp] theorem writeFprDword_lo (s : State) (f : RegNum) (v : Dword) : (writeFprDword f v s).lo = s.lo := by unfold writeFprDword; split <;> rfl
@[simp] theorem writeFprDword_pc (s : State) (f : RegNum) (v : Dword) : (writeFprDword f v s).pc = s.pc := by unfold writeFprDword; split <;> rfl
@[simp] theorem writeFprDword_inDelaySlot (s : State) (f : RegNum) (v : Dword) : (writeFprDword f v s).inDelaySlot = s.inDelaySlot := by unfold writeFprDword; split <;> rfl
@[simp] theorem writeFprDword_branchTarget (s : State) (f : RegNum) (v : Dword) : (writeFprDword f v s).branchTarget = s.branchTarget := by unfold writeFprDword; split <;> rfl
@[simp] theorem writeFprDword_cp0 (s : State) (f : RegNum) (v : Dword) : (writeFprDword f v s).cp0 = s.cp0 := by unfold writeFprDword; split <;> rfl
@[simp] theorem writeFprDword_tlb (s : State) (f : RegNum) (v : Dword) : (writeFprDword f v s).tlb = s.tlb := by unfold writeFprDword; split <;> rfl
@[simp] theorem writeFprDword_llBit (s : State) (f : RegNum) (v : Dword) : (writeFprDword f v s).llBit = s.llBit := by unfold writeFprDword; split <;> rfl
@[simp] theorem writeFprDword_intReg (s : State) (f : RegNum) (v : Dword) : (writeFprDword f v s).intReg = s.intReg := by unfold writeFprDword; split <;> rfl
@[simp] theorem writeFprDword_intPin (s : State) (f : RegNum) (v : Dword) : (writeFprDword f v s).intPin = s.intPin := by unfold writeFprDword; split <;> rfl
@[simp] theorem writeFprDword_nmiPin (s : State) (f : RegNum) (v : Dword) : (writeFprDword f v s).nmiPin = s.nmiPin := by unfold writeFprDword; split <;> rfl
@[simp] theorem writeFprDword_nmiLevel (s : State) (f : RegNum) (v : Dword) : (writeFprDword f v s).nmiLevel = s.nmiLevel := by unfold writeFprDword; split <;> rfl
@[simp] theorem writeFprDword_timerPending (s : State) (f : RegNum) (v : Dword) : (writeFprDword f v s).timerPending = s.timerPending := by unfold writeFprDword; split <;> rfl
@[simp] theorem writeFprDword_standby (s : State) (f : RegNum) (v : Dword) : (writeFprDword f v s).standby = s.standby := by unfold writeFprDword; split <;> rfl
@[simp] theorem writeFprDword_busIdle (s : State) (f : RegNum) (v : Dword) : (writeFprDword f v s).busIdle = s.busIdle := by unfold writeFprDword; split <;> rfl
@[simp] theorem writeFprDword_caches (s : State) (f : RegNum) (v : Dword) : (writeFprDword f v s).caches = s.caches := by unfold writeFprDword; split <;> rfl
@[simp] theorem writeFprDword_mem (s : State) (f : RegNum) (v : Dword) : (writeFprDword f v s).mem = s.mem := by unfold writeFprDword; split <;> rfl
@[simp] theorem writeFprDword_stale (s : State) (f : RegNum) (v : Dword) : (writeFprDword f v s).stale = s.stale := by unfold writeFprDword; split <;> rfl
@[simp] theorem writeFprDword_params (s : State) (f : RegNum) (v : Dword) : (writeFprDword f v s).params = s.params := by unfold writeFprDword; split <;> rfl
@[simp] theorem writeFprDword_pendingErrors (s : State) (f : RegNum) (v : Dword) : (writeFprDword f v s).pendingErrors = s.pendingErrors := by unfold writeFprDword; split <;> rfl
@[simp] theorem writeFprDword_events (s : State) (f : RegNum) (v : Dword) : (writeFprDword f v s).events = s.events := by unfold writeFprDword; split <;> rfl
@[simp] theorem writeFprDword_hazards (s : State) (f : RegNum) (v : Dword) : (writeFprDword f v s).hazards = s.hazards := by unfold writeFprDword; split <;> rfl

/-! `writeFpr` -/

@[simp] theorem writeFpr_gpr (s : State) (b : Bool) (f : RegNum) (v : Dword) : (writeFpr b f v s).gpr = s.gpr := by unfold writeFpr; split <;> simp
@[simp] theorem writeFpr_hi (s : State) (b : Bool) (f : RegNum) (v : Dword) : (writeFpr b f v s).hi = s.hi := by unfold writeFpr; split <;> simp
@[simp] theorem writeFpr_lo (s : State) (b : Bool) (f : RegNum) (v : Dword) : (writeFpr b f v s).lo = s.lo := by unfold writeFpr; split <;> simp
@[simp] theorem writeFpr_pc (s : State) (b : Bool) (f : RegNum) (v : Dword) : (writeFpr b f v s).pc = s.pc := by unfold writeFpr; split <;> simp
@[simp] theorem writeFpr_inDelaySlot (s : State) (b : Bool) (f : RegNum) (v : Dword) : (writeFpr b f v s).inDelaySlot = s.inDelaySlot := by unfold writeFpr; split <;> simp
@[simp] theorem writeFpr_branchTarget (s : State) (b : Bool) (f : RegNum) (v : Dword) : (writeFpr b f v s).branchTarget = s.branchTarget := by unfold writeFpr; split <;> simp
@[simp] theorem writeFpr_cp0 (s : State) (b : Bool) (f : RegNum) (v : Dword) : (writeFpr b f v s).cp0 = s.cp0 := by unfold writeFpr; split <;> simp
@[simp] theorem writeFpr_tlb (s : State) (b : Bool) (f : RegNum) (v : Dword) : (writeFpr b f v s).tlb = s.tlb := by unfold writeFpr; split <;> simp
@[simp] theorem writeFpr_llBit (s : State) (b : Bool) (f : RegNum) (v : Dword) : (writeFpr b f v s).llBit = s.llBit := by unfold writeFpr; split <;> simp
@[simp] theorem writeFpr_intReg (s : State) (b : Bool) (f : RegNum) (v : Dword) : (writeFpr b f v s).intReg = s.intReg := by unfold writeFpr; split <;> simp
@[simp] theorem writeFpr_intPin (s : State) (b : Bool) (f : RegNum) (v : Dword) : (writeFpr b f v s).intPin = s.intPin := by unfold writeFpr; split <;> simp
@[simp] theorem writeFpr_nmiPin (s : State) (b : Bool) (f : RegNum) (v : Dword) : (writeFpr b f v s).nmiPin = s.nmiPin := by unfold writeFpr; split <;> simp
@[simp] theorem writeFpr_nmiLevel (s : State) (b : Bool) (f : RegNum) (v : Dword) : (writeFpr b f v s).nmiLevel = s.nmiLevel := by unfold writeFpr; split <;> simp
@[simp] theorem writeFpr_timerPending (s : State) (b : Bool) (f : RegNum) (v : Dword) : (writeFpr b f v s).timerPending = s.timerPending := by unfold writeFpr; split <;> simp
@[simp] theorem writeFpr_standby (s : State) (b : Bool) (f : RegNum) (v : Dword) : (writeFpr b f v s).standby = s.standby := by unfold writeFpr; split <;> simp
@[simp] theorem writeFpr_busIdle (s : State) (b : Bool) (f : RegNum) (v : Dword) : (writeFpr b f v s).busIdle = s.busIdle := by unfold writeFpr; split <;> simp
@[simp] theorem writeFpr_caches (s : State) (b : Bool) (f : RegNum) (v : Dword) : (writeFpr b f v s).caches = s.caches := by unfold writeFpr; split <;> simp
@[simp] theorem writeFpr_mem (s : State) (b : Bool) (f : RegNum) (v : Dword) : (writeFpr b f v s).mem = s.mem := by unfold writeFpr; split <;> simp
@[simp] theorem writeFpr_stale (s : State) (b : Bool) (f : RegNum) (v : Dword) : (writeFpr b f v s).stale = s.stale := by unfold writeFpr; split <;> simp
@[simp] theorem writeFpr_params (s : State) (b : Bool) (f : RegNum) (v : Dword) : (writeFpr b f v s).params = s.params := by unfold writeFpr; split <;> simp
@[simp] theorem writeFpr_pendingErrors (s : State) (b : Bool) (f : RegNum) (v : Dword) : (writeFpr b f v s).pendingErrors = s.pendingErrors := by unfold writeFpr; split <;> simp
@[simp] theorem writeFpr_events (s : State) (b : Bool) (f : RegNum) (v : Dword) : (writeFpr b f v s).events = s.events := by unfold writeFpr; split <;> simp
@[simp] theorem writeFpr_hazards (s : State) (b : Bool) (f : RegNum) (v : Dword) : (writeFpr b f v s).hazards = s.hazards := by unfold writeFpr; split <;> simp

/-! `setLink` -/

@[simp] theorem setLink_gpr (s : State) (pa : PAddr) : (setLink pa s).gpr = s.gpr := rfl
@[simp] theorem setLink_hi (s : State) (pa : PAddr) : (setLink pa s).hi = s.hi := rfl
@[simp] theorem setLink_lo (s : State) (pa : PAddr) : (setLink pa s).lo = s.lo := rfl
@[simp] theorem setLink_pc (s : State) (pa : PAddr) : (setLink pa s).pc = s.pc := rfl
@[simp] theorem setLink_inDelaySlot (s : State) (pa : PAddr) : (setLink pa s).inDelaySlot = s.inDelaySlot := rfl
@[simp] theorem setLink_branchTarget (s : State) (pa : PAddr) : (setLink pa s).branchTarget = s.branchTarget := rfl
@[simp] theorem setLink_fpu (s : State) (pa : PAddr) : (setLink pa s).fpu = s.fpu := rfl
@[simp] theorem setLink_tlb (s : State) (pa : PAddr) : (setLink pa s).tlb = s.tlb := rfl
@[simp] theorem setLink_intReg (s : State) (pa : PAddr) : (setLink pa s).intReg = s.intReg := rfl
@[simp] theorem setLink_intPin (s : State) (pa : PAddr) : (setLink pa s).intPin = s.intPin := rfl
@[simp] theorem setLink_nmiPin (s : State) (pa : PAddr) : (setLink pa s).nmiPin = s.nmiPin := rfl
@[simp] theorem setLink_nmiLevel (s : State) (pa : PAddr) : (setLink pa s).nmiLevel = s.nmiLevel := rfl
@[simp] theorem setLink_timerPending (s : State) (pa : PAddr) : (setLink pa s).timerPending = s.timerPending := rfl
@[simp] theorem setLink_standby (s : State) (pa : PAddr) : (setLink pa s).standby = s.standby := rfl
@[simp] theorem setLink_busIdle (s : State) (pa : PAddr) : (setLink pa s).busIdle = s.busIdle := rfl
@[simp] theorem setLink_caches (s : State) (pa : PAddr) : (setLink pa s).caches = s.caches := rfl
@[simp] theorem setLink_mem (s : State) (pa : PAddr) : (setLink pa s).mem = s.mem := rfl
@[simp] theorem setLink_stale (s : State) (pa : PAddr) : (setLink pa s).stale = s.stale := rfl
@[simp] theorem setLink_params (s : State) (pa : PAddr) : (setLink pa s).params = s.params := rfl
@[simp] theorem setLink_pendingErrors (s : State) (pa : PAddr) : (setLink pa s).pendingErrors = s.pendingErrors := rfl
@[simp] theorem setLink_events (s : State) (pa : PAddr) : (setLink pa s).events = s.events := rfl
@[simp] theorem setLink_freeCount (s : State) (pa : PAddr) : (setLink pa s).freeCount = s.freeCount := rfl
@[simp] theorem setLink_hazards (s : State) (pa : PAddr) : (setLink pa s).hazards = s.hazards := rfl

/-! `setCh` -/

@[simp] theorem setCh_gpr (s : State) (b : Bool) : (setCh b s).gpr = s.gpr := rfl
@[simp] theorem setCh_hi (s : State) (b : Bool) : (setCh b s).hi = s.hi := rfl
@[simp] theorem setCh_lo (s : State) (b : Bool) : (setCh b s).lo = s.lo := rfl
@[simp] theorem setCh_pc (s : State) (b : Bool) : (setCh b s).pc = s.pc := rfl
@[simp] theorem setCh_inDelaySlot (s : State) (b : Bool) : (setCh b s).inDelaySlot = s.inDelaySlot := rfl
@[simp] theorem setCh_branchTarget (s : State) (b : Bool) : (setCh b s).branchTarget = s.branchTarget := rfl
@[simp] theorem setCh_fpu (s : State) (b : Bool) : (setCh b s).fpu = s.fpu := rfl
@[simp] theorem setCh_tlb (s : State) (b : Bool) : (setCh b s).tlb = s.tlb := rfl
@[simp] theorem setCh_llBit (s : State) (b : Bool) : (setCh b s).llBit = s.llBit := rfl
@[simp] theorem setCh_intReg (s : State) (b : Bool) : (setCh b s).intReg = s.intReg := rfl
@[simp] theorem setCh_intPin (s : State) (b : Bool) : (setCh b s).intPin = s.intPin := rfl
@[simp] theorem setCh_nmiPin (s : State) (b : Bool) : (setCh b s).nmiPin = s.nmiPin := rfl
@[simp] theorem setCh_nmiLevel (s : State) (b : Bool) : (setCh b s).nmiLevel = s.nmiLevel := rfl
@[simp] theorem setCh_timerPending (s : State) (b : Bool) : (setCh b s).timerPending = s.timerPending := rfl
@[simp] theorem setCh_standby (s : State) (b : Bool) : (setCh b s).standby = s.standby := rfl
@[simp] theorem setCh_busIdle (s : State) (b : Bool) : (setCh b s).busIdle = s.busIdle := rfl
@[simp] theorem setCh_caches (s : State) (b : Bool) : (setCh b s).caches = s.caches := rfl
@[simp] theorem setCh_mem (s : State) (b : Bool) : (setCh b s).mem = s.mem := rfl
@[simp] theorem setCh_stale (s : State) (b : Bool) : (setCh b s).stale = s.stale := rfl
@[simp] theorem setCh_params (s : State) (b : Bool) : (setCh b s).params = s.params := rfl
@[simp] theorem setCh_pendingErrors (s : State) (b : Bool) : (setCh b s).pendingErrors = s.pendingErrors := rfl
@[simp] theorem setCh_events (s : State) (b : Bool) : (setCh b s).events = s.events := rfl
@[simp] theorem setCh_freeCount (s : State) (b : Bool) : (setCh b s).freeCount = s.freeCount := rfl
@[simp] theorem setCh_hazards (s : State) (b : Bool) : (setCh b s).hazards = s.hazards := rfl

/-! `setTags` -/

@[simp] theorem setTags_gpr (s : State) (x y : Word) (p : BitVec 8) : (setTags x y p s).gpr = s.gpr := rfl
@[simp] theorem setTags_hi (s : State) (x y : Word) (p : BitVec 8) : (setTags x y p s).hi = s.hi := rfl
@[simp] theorem setTags_lo (s : State) (x y : Word) (p : BitVec 8) : (setTags x y p s).lo = s.lo := rfl
@[simp] theorem setTags_pc (s : State) (x y : Word) (p : BitVec 8) : (setTags x y p s).pc = s.pc := rfl
@[simp] theorem setTags_inDelaySlot (s : State) (x y : Word) (p : BitVec 8) : (setTags x y p s).inDelaySlot = s.inDelaySlot := rfl
@[simp] theorem setTags_branchTarget (s : State) (x y : Word) (p : BitVec 8) : (setTags x y p s).branchTarget = s.branchTarget := rfl
@[simp] theorem setTags_fpu (s : State) (x y : Word) (p : BitVec 8) : (setTags x y p s).fpu = s.fpu := rfl
@[simp] theorem setTags_tlb (s : State) (x y : Word) (p : BitVec 8) : (setTags x y p s).tlb = s.tlb := rfl
@[simp] theorem setTags_llBit (s : State) (x y : Word) (p : BitVec 8) : (setTags x y p s).llBit = s.llBit := rfl
@[simp] theorem setTags_intReg (s : State) (x y : Word) (p : BitVec 8) : (setTags x y p s).intReg = s.intReg := rfl
@[simp] theorem setTags_intPin (s : State) (x y : Word) (p : BitVec 8) : (setTags x y p s).intPin = s.intPin := rfl
@[simp] theorem setTags_nmiPin (s : State) (x y : Word) (p : BitVec 8) : (setTags x y p s).nmiPin = s.nmiPin := rfl
@[simp] theorem setTags_nmiLevel (s : State) (x y : Word) (p : BitVec 8) : (setTags x y p s).nmiLevel = s.nmiLevel := rfl
@[simp] theorem setTags_timerPending (s : State) (x y : Word) (p : BitVec 8) : (setTags x y p s).timerPending = s.timerPending := rfl
@[simp] theorem setTags_standby (s : State) (x y : Word) (p : BitVec 8) : (setTags x y p s).standby = s.standby := rfl
@[simp] theorem setTags_busIdle (s : State) (x y : Word) (p : BitVec 8) : (setTags x y p s).busIdle = s.busIdle := rfl
@[simp] theorem setTags_caches (s : State) (x y : Word) (p : BitVec 8) : (setTags x y p s).caches = s.caches := rfl
@[simp] theorem setTags_mem (s : State) (x y : Word) (p : BitVec 8) : (setTags x y p s).mem = s.mem := rfl
@[simp] theorem setTags_stale (s : State) (x y : Word) (p : BitVec 8) : (setTags x y p s).stale = s.stale := rfl
@[simp] theorem setTags_params (s : State) (x y : Word) (p : BitVec 8) : (setTags x y p s).params = s.params := rfl
@[simp] theorem setTags_pendingErrors (s : State) (x y : Word) (p : BitVec 8) : (setTags x y p s).pendingErrors = s.pendingErrors := rfl
@[simp] theorem setTags_events (s : State) (x y : Word) (p : BitVec 8) : (setTags x y p s).events = s.events := rfl
@[simp] theorem setTags_freeCount (s : State) (x y : Word) (p : BitVec 8) : (setTags x y p s).freeCount = s.freeCount := rfl
@[simp] theorem setTags_hazards (s : State) (x y : Word) (p : BitVec 8) : (setTags x y p s).hazards = s.hazards := rfl

/-! `freeTags` -/

@[simp] theorem freeTags_gpr (s : State) : (freeTags s).gpr = s.gpr := rfl
@[simp] theorem freeTags_hi (s : State) : (freeTags s).hi = s.hi := rfl
@[simp] theorem freeTags_lo (s : State) : (freeTags s).lo = s.lo := rfl
@[simp] theorem freeTags_pc (s : State) : (freeTags s).pc = s.pc := rfl
@[simp] theorem freeTags_inDelaySlot (s : State) : (freeTags s).inDelaySlot = s.inDelaySlot := rfl
@[simp] theorem freeTags_branchTarget (s : State) : (freeTags s).branchTarget = s.branchTarget := rfl
@[simp] theorem freeTags_fpu (s : State) : (freeTags s).fpu = s.fpu := rfl
@[simp] theorem freeTags_tlb (s : State) : (freeTags s).tlb = s.tlb := rfl
@[simp] theorem freeTags_llBit (s : State) : (freeTags s).llBit = s.llBit := rfl
@[simp] theorem freeTags_intReg (s : State) : (freeTags s).intReg = s.intReg := rfl
@[simp] theorem freeTags_intPin (s : State) : (freeTags s).intPin = s.intPin := rfl
@[simp] theorem freeTags_nmiPin (s : State) : (freeTags s).nmiPin = s.nmiPin := rfl
@[simp] theorem freeTags_nmiLevel (s : State) : (freeTags s).nmiLevel = s.nmiLevel := rfl
@[simp] theorem freeTags_timerPending (s : State) : (freeTags s).timerPending = s.timerPending := rfl
@[simp] theorem freeTags_standby (s : State) : (freeTags s).standby = s.standby := rfl
@[simp] theorem freeTags_busIdle (s : State) : (freeTags s).busIdle = s.busIdle := rfl
@[simp] theorem freeTags_caches (s : State) : (freeTags s).caches = s.caches := rfl
@[simp] theorem freeTags_mem (s : State) : (freeTags s).mem = s.mem := rfl
@[simp] theorem freeTags_stale (s : State) : (freeTags s).stale = s.stale := rfl
@[simp] theorem freeTags_params (s : State) : (freeTags s).params = s.params := rfl
@[simp] theorem freeTags_pendingErrors (s : State) : (freeTags s).pendingErrors = s.pendingErrors := rfl
@[simp] theorem freeTags_events (s : State) : (freeTags s).events = s.events := rfl
@[simp] theorem freeTags_hazards (s : State) : (freeTags s).hazards = s.hazards := rfl

/-! `writeTlb` -/

@[simp] theorem writeTlb_gpr (s : State) (i : BitVec 6) (e : TlbEntry) : (writeTlb i e s).gpr = s.gpr := rfl
@[simp] theorem writeTlb_hi (s : State) (i : BitVec 6) (e : TlbEntry) : (writeTlb i e s).hi = s.hi := rfl
@[simp] theorem writeTlb_lo (s : State) (i : BitVec 6) (e : TlbEntry) : (writeTlb i e s).lo = s.lo := rfl
@[simp] theorem writeTlb_pc (s : State) (i : BitVec 6) (e : TlbEntry) : (writeTlb i e s).pc = s.pc := rfl
@[simp] theorem writeTlb_inDelaySlot (s : State) (i : BitVec 6) (e : TlbEntry) : (writeTlb i e s).inDelaySlot = s.inDelaySlot := rfl
@[simp] theorem writeTlb_branchTarget (s : State) (i : BitVec 6) (e : TlbEntry) : (writeTlb i e s).branchTarget = s.branchTarget := rfl
@[simp] theorem writeTlb_cp0 (s : State) (i : BitVec 6) (e : TlbEntry) : (writeTlb i e s).cp0 = s.cp0 := rfl
@[simp] theorem writeTlb_fpu (s : State) (i : BitVec 6) (e : TlbEntry) : (writeTlb i e s).fpu = s.fpu := rfl
@[simp] theorem writeTlb_llBit (s : State) (i : BitVec 6) (e : TlbEntry) : (writeTlb i e s).llBit = s.llBit := rfl
@[simp] theorem writeTlb_intReg (s : State) (i : BitVec 6) (e : TlbEntry) : (writeTlb i e s).intReg = s.intReg := rfl
@[simp] theorem writeTlb_intPin (s : State) (i : BitVec 6) (e : TlbEntry) : (writeTlb i e s).intPin = s.intPin := rfl
@[simp] theorem writeTlb_nmiPin (s : State) (i : BitVec 6) (e : TlbEntry) : (writeTlb i e s).nmiPin = s.nmiPin := rfl
@[simp] theorem writeTlb_nmiLevel (s : State) (i : BitVec 6) (e : TlbEntry) : (writeTlb i e s).nmiLevel = s.nmiLevel := rfl
@[simp] theorem writeTlb_timerPending (s : State) (i : BitVec 6) (e : TlbEntry) : (writeTlb i e s).timerPending = s.timerPending := rfl
@[simp] theorem writeTlb_standby (s : State) (i : BitVec 6) (e : TlbEntry) : (writeTlb i e s).standby = s.standby := rfl
@[simp] theorem writeTlb_busIdle (s : State) (i : BitVec 6) (e : TlbEntry) : (writeTlb i e s).busIdle = s.busIdle := rfl
@[simp] theorem writeTlb_caches (s : State) (i : BitVec 6) (e : TlbEntry) : (writeTlb i e s).caches = s.caches := rfl
@[simp] theorem writeTlb_mem (s : State) (i : BitVec 6) (e : TlbEntry) : (writeTlb i e s).mem = s.mem := rfl
@[simp] theorem writeTlb_stale (s : State) (i : BitVec 6) (e : TlbEntry) : (writeTlb i e s).stale = s.stale := rfl
@[simp] theorem writeTlb_params (s : State) (i : BitVec 6) (e : TlbEntry) : (writeTlb i e s).params = s.params := rfl
@[simp] theorem writeTlb_pendingErrors (s : State) (i : BitVec 6) (e : TlbEntry) : (writeTlb i e s).pendingErrors = s.pendingErrors := rfl
@[simp] theorem writeTlb_events (s : State) (i : BitVec 6) (e : TlbEntry) : (writeTlb i e s).events = s.events := rfl
@[simp] theorem writeTlb_freeCount (s : State) (i : BitVec 6) (e : TlbEntry) : (writeTlb i e s).freeCount = s.freeCount := rfl
@[simp] theorem writeTlb_hazards (s : State) (i : BitVec 6) (e : TlbEntry) : (writeTlb i e s).hazards = s.hazards := rfl

/-! `loadRegs` -/

@[simp] theorem loadRegs_gpr (s : State) (e : TlbEntry) : (loadRegs e s).gpr = s.gpr := rfl
@[simp] theorem loadRegs_hi (s : State) (e : TlbEntry) : (loadRegs e s).hi = s.hi := rfl
@[simp] theorem loadRegs_lo (s : State) (e : TlbEntry) : (loadRegs e s).lo = s.lo := rfl
@[simp] theorem loadRegs_pc (s : State) (e : TlbEntry) : (loadRegs e s).pc = s.pc := rfl
@[simp] theorem loadRegs_inDelaySlot (s : State) (e : TlbEntry) : (loadRegs e s).inDelaySlot = s.inDelaySlot := rfl
@[simp] theorem loadRegs_branchTarget (s : State) (e : TlbEntry) : (loadRegs e s).branchTarget = s.branchTarget := rfl
@[simp] theorem loadRegs_fpu (s : State) (e : TlbEntry) : (loadRegs e s).fpu = s.fpu := rfl
@[simp] theorem loadRegs_tlb (s : State) (e : TlbEntry) : (loadRegs e s).tlb = s.tlb := rfl
@[simp] theorem loadRegs_llBit (s : State) (e : TlbEntry) : (loadRegs e s).llBit = s.llBit := rfl
@[simp] theorem loadRegs_intReg (s : State) (e : TlbEntry) : (loadRegs e s).intReg = s.intReg := rfl
@[simp] theorem loadRegs_intPin (s : State) (e : TlbEntry) : (loadRegs e s).intPin = s.intPin := rfl
@[simp] theorem loadRegs_nmiPin (s : State) (e : TlbEntry) : (loadRegs e s).nmiPin = s.nmiPin := rfl
@[simp] theorem loadRegs_nmiLevel (s : State) (e : TlbEntry) : (loadRegs e s).nmiLevel = s.nmiLevel := rfl
@[simp] theorem loadRegs_timerPending (s : State) (e : TlbEntry) : (loadRegs e s).timerPending = s.timerPending := rfl
@[simp] theorem loadRegs_standby (s : State) (e : TlbEntry) : (loadRegs e s).standby = s.standby := rfl
@[simp] theorem loadRegs_busIdle (s : State) (e : TlbEntry) : (loadRegs e s).busIdle = s.busIdle := rfl
@[simp] theorem loadRegs_caches (s : State) (e : TlbEntry) : (loadRegs e s).caches = s.caches := rfl
@[simp] theorem loadRegs_mem (s : State) (e : TlbEntry) : (loadRegs e s).mem = s.mem := rfl
@[simp] theorem loadRegs_stale (s : State) (e : TlbEntry) : (loadRegs e s).stale = s.stale := rfl
@[simp] theorem loadRegs_params (s : State) (e : TlbEntry) : (loadRegs e s).params = s.params := rfl
@[simp] theorem loadRegs_pendingErrors (s : State) (e : TlbEntry) : (loadRegs e s).pendingErrors = s.pendingErrors := rfl
@[simp] theorem loadRegs_events (s : State) (e : TlbEntry) : (loadRegs e s).events = s.events := rfl
@[simp] theorem loadRegs_hazards (s : State) (e : TlbEntry) : (loadRegs e s).hazards = s.hazards := rfl

/-! `scrambleFgr` -/

@[simp] theorem scrambleFgr_gpr (s : State) : (scrambleFgr s).gpr = s.gpr := by unfold scrambleFgr; rfl
@[simp] theorem scrambleFgr_hi (s : State) : (scrambleFgr s).hi = s.hi := by unfold scrambleFgr; rfl
@[simp] theorem scrambleFgr_lo (s : State) : (scrambleFgr s).lo = s.lo := by unfold scrambleFgr; rfl
@[simp] theorem scrambleFgr_pc (s : State) : (scrambleFgr s).pc = s.pc := by unfold scrambleFgr; rfl
@[simp] theorem scrambleFgr_inDelaySlot (s : State) : (scrambleFgr s).inDelaySlot = s.inDelaySlot := by unfold scrambleFgr; rfl
@[simp] theorem scrambleFgr_branchTarget (s : State) : (scrambleFgr s).branchTarget = s.branchTarget := by unfold scrambleFgr; rfl
@[simp] theorem scrambleFgr_cp0 (s : State) : (scrambleFgr s).cp0 = s.cp0 := by unfold scrambleFgr; rfl
@[simp] theorem scrambleFgr_tlb (s : State) : (scrambleFgr s).tlb = s.tlb := by unfold scrambleFgr; rfl
@[simp] theorem scrambleFgr_llBit (s : State) : (scrambleFgr s).llBit = s.llBit := by unfold scrambleFgr; rfl
@[simp] theorem scrambleFgr_intReg (s : State) : (scrambleFgr s).intReg = s.intReg := by unfold scrambleFgr; rfl
@[simp] theorem scrambleFgr_intPin (s : State) : (scrambleFgr s).intPin = s.intPin := by unfold scrambleFgr; rfl
@[simp] theorem scrambleFgr_nmiPin (s : State) : (scrambleFgr s).nmiPin = s.nmiPin := by unfold scrambleFgr; rfl
@[simp] theorem scrambleFgr_nmiLevel (s : State) : (scrambleFgr s).nmiLevel = s.nmiLevel := by unfold scrambleFgr; rfl
@[simp] theorem scrambleFgr_timerPending (s : State) : (scrambleFgr s).timerPending = s.timerPending := by unfold scrambleFgr; rfl
@[simp] theorem scrambleFgr_standby (s : State) : (scrambleFgr s).standby = s.standby := by unfold scrambleFgr; rfl
@[simp] theorem scrambleFgr_busIdle (s : State) : (scrambleFgr s).busIdle = s.busIdle := by unfold scrambleFgr; rfl
@[simp] theorem scrambleFgr_caches (s : State) : (scrambleFgr s).caches = s.caches := by unfold scrambleFgr; rfl
@[simp] theorem scrambleFgr_mem (s : State) : (scrambleFgr s).mem = s.mem := by unfold scrambleFgr; rfl
@[simp] theorem scrambleFgr_stale (s : State) : (scrambleFgr s).stale = s.stale := by unfold scrambleFgr; rfl
@[simp] theorem scrambleFgr_params (s : State) : (scrambleFgr s).params = s.params := by unfold scrambleFgr; rfl
@[simp] theorem scrambleFgr_pendingErrors (s : State) : (scrambleFgr s).pendingErrors = s.pendingErrors := by unfold scrambleFgr; rfl
@[simp] theorem scrambleFgr_events (s : State) : (scrambleFgr s).events = s.events := by unfold scrambleFgr; rfl
@[simp] theorem scrambleFgr_hazards (s : State) : (scrambleFgr s).hazards = s.hazards := by unfold scrambleFgr; rfl

/-! `writeStatus` -/

@[simp] theorem writeStatus_gpr (s : State) (w : Word) : (writeStatus w s).gpr = s.gpr := by unfold writeStatus; dsimp only; split <;> simp
@[simp] theorem writeStatus_hi (s : State) (w : Word) : (writeStatus w s).hi = s.hi := by unfold writeStatus; dsimp only; split <;> simp
@[simp] theorem writeStatus_lo (s : State) (w : Word) : (writeStatus w s).lo = s.lo := by unfold writeStatus; dsimp only; split <;> simp
@[simp] theorem writeStatus_pc (s : State) (w : Word) : (writeStatus w s).pc = s.pc := by unfold writeStatus; dsimp only; split <;> simp
@[simp] theorem writeStatus_inDelaySlot (s : State) (w : Word) : (writeStatus w s).inDelaySlot = s.inDelaySlot := by unfold writeStatus; dsimp only; split <;> simp
@[simp] theorem writeStatus_branchTarget (s : State) (w : Word) : (writeStatus w s).branchTarget = s.branchTarget := by unfold writeStatus; dsimp only; split <;> simp
@[simp] theorem writeStatus_tlb (s : State) (w : Word) : (writeStatus w s).tlb = s.tlb := by unfold writeStatus; dsimp only; split <;> simp
@[simp] theorem writeStatus_llBit (s : State) (w : Word) : (writeStatus w s).llBit = s.llBit := by unfold writeStatus; dsimp only; split <;> simp
@[simp] theorem writeStatus_intReg (s : State) (w : Word) : (writeStatus w s).intReg = s.intReg := by unfold writeStatus; dsimp only; split <;> simp
@[simp] theorem writeStatus_intPin (s : State) (w : Word) : (writeStatus w s).intPin = s.intPin := by unfold writeStatus; dsimp only; split <;> simp
@[simp] theorem writeStatus_nmiPin (s : State) (w : Word) : (writeStatus w s).nmiPin = s.nmiPin := by unfold writeStatus; dsimp only; split <;> simp
@[simp] theorem writeStatus_nmiLevel (s : State) (w : Word) : (writeStatus w s).nmiLevel = s.nmiLevel := by unfold writeStatus; dsimp only; split <;> simp
@[simp] theorem writeStatus_timerPending (s : State) (w : Word) : (writeStatus w s).timerPending = s.timerPending := by unfold writeStatus; dsimp only; split <;> simp
@[simp] theorem writeStatus_standby (s : State) (w : Word) : (writeStatus w s).standby = s.standby := by unfold writeStatus; dsimp only; split <;> simp
@[simp] theorem writeStatus_busIdle (s : State) (w : Word) : (writeStatus w s).busIdle = s.busIdle := by unfold writeStatus; dsimp only; split <;> simp
@[simp] theorem writeStatus_caches (s : State) (w : Word) : (writeStatus w s).caches = s.caches := by unfold writeStatus; dsimp only; split <;> simp
@[simp] theorem writeStatus_mem (s : State) (w : Word) : (writeStatus w s).mem = s.mem := by unfold writeStatus; dsimp only; split <;> simp
@[simp] theorem writeStatus_stale (s : State) (w : Word) : (writeStatus w s).stale = s.stale := by unfold writeStatus; dsimp only; split <;> simp
@[simp] theorem writeStatus_params (s : State) (w : Word) : (writeStatus w s).params = s.params := by unfold writeStatus; dsimp only; split <;> simp
@[simp] theorem writeStatus_pendingErrors (s : State) (w : Word) : (writeStatus w s).pendingErrors = s.pendingErrors := by unfold writeStatus; dsimp only; split <;> simp
@[simp] theorem writeStatus_events (s : State) (w : Word) : (writeStatus w s).events = s.events := by unfold writeStatus; dsimp only; split <;> simp
@[simp] theorem writeStatus_hazards (s : State) (w : Word) : (writeStatus w s).hazards = s.hazards := by unfold writeStatus; dsimp only; split <;> simp

/-! `writeConfig` -/

@[simp] theorem writeConfig_gpr (s : State) (w : Word) : (writeConfig w s).gpr = s.gpr := rfl
@[simp] theorem writeConfig_hi (s : State) (w : Word) : (writeConfig w s).hi = s.hi := rfl
@[simp] theorem writeConfig_lo (s : State) (w : Word) : (writeConfig w s).lo = s.lo := rfl
@[simp] theorem writeConfig_pc (s : State) (w : Word) : (writeConfig w s).pc = s.pc := rfl
@[simp] theorem writeConfig_inDelaySlot (s : State) (w : Word) : (writeConfig w s).inDelaySlot = s.inDelaySlot := rfl
@[simp] theorem writeConfig_branchTarget (s : State) (w : Word) : (writeConfig w s).branchTarget = s.branchTarget := rfl
@[simp] theorem writeConfig_fpu (s : State) (w : Word) : (writeConfig w s).fpu = s.fpu := rfl
@[simp] theorem writeConfig_tlb (s : State) (w : Word) : (writeConfig w s).tlb = s.tlb := rfl
@[simp] theorem writeConfig_llBit (s : State) (w : Word) : (writeConfig w s).llBit = s.llBit := rfl
@[simp] theorem writeConfig_intReg (s : State) (w : Word) : (writeConfig w s).intReg = s.intReg := rfl
@[simp] theorem writeConfig_intPin (s : State) (w : Word) : (writeConfig w s).intPin = s.intPin := rfl
@[simp] theorem writeConfig_nmiPin (s : State) (w : Word) : (writeConfig w s).nmiPin = s.nmiPin := rfl
@[simp] theorem writeConfig_nmiLevel (s : State) (w : Word) : (writeConfig w s).nmiLevel = s.nmiLevel := rfl
@[simp] theorem writeConfig_timerPending (s : State) (w : Word) : (writeConfig w s).timerPending = s.timerPending := rfl
@[simp] theorem writeConfig_standby (s : State) (w : Word) : (writeConfig w s).standby = s.standby := rfl
@[simp] theorem writeConfig_busIdle (s : State) (w : Word) : (writeConfig w s).busIdle = s.busIdle := rfl
@[simp] theorem writeConfig_mem (s : State) (w : Word) : (writeConfig w s).mem = s.mem := rfl
@[simp] theorem writeConfig_stale (s : State) (w : Word) : (writeConfig w s).stale = s.stale := rfl
@[simp] theorem writeConfig_params (s : State) (w : Word) : (writeConfig w s).params = s.params := rfl
@[simp] theorem writeConfig_pendingErrors (s : State) (w : Word) : (writeConfig w s).pendingErrors = s.pendingErrors := rfl
@[simp] theorem writeConfig_events (s : State) (w : Word) : (writeConfig w s).events = s.events := rfl
@[simp] theorem writeConfig_freeCount (s : State) (w : Word) : (writeConfig w s).freeCount = s.freeCount := rfl
@[simp] theorem writeConfig_hazards (s : State) (w : Word) : (writeConfig w s).hazards = s.hazards := rfl

/-! `loadTlbFault` -/

@[simp] theorem loadTlbFault_gpr (s : State) (va : Dword) : (loadTlbFault va s).gpr = s.gpr := rfl
@[simp] theorem loadTlbFault_hi (s : State) (va : Dword) : (loadTlbFault va s).hi = s.hi := rfl
@[simp] theorem loadTlbFault_lo (s : State) (va : Dword) : (loadTlbFault va s).lo = s.lo := rfl
@[simp] theorem loadTlbFault_pc (s : State) (va : Dword) : (loadTlbFault va s).pc = s.pc := rfl
@[simp] theorem loadTlbFault_inDelaySlot (s : State) (va : Dword) : (loadTlbFault va s).inDelaySlot = s.inDelaySlot := rfl
@[simp] theorem loadTlbFault_branchTarget (s : State) (va : Dword) : (loadTlbFault va s).branchTarget = s.branchTarget := rfl
@[simp] theorem loadTlbFault_fpu (s : State) (va : Dword) : (loadTlbFault va s).fpu = s.fpu := rfl
@[simp] theorem loadTlbFault_tlb (s : State) (va : Dword) : (loadTlbFault va s).tlb = s.tlb := rfl
@[simp] theorem loadTlbFault_llBit (s : State) (va : Dword) : (loadTlbFault va s).llBit = s.llBit := rfl
@[simp] theorem loadTlbFault_intReg (s : State) (va : Dword) : (loadTlbFault va s).intReg = s.intReg := rfl
@[simp] theorem loadTlbFault_intPin (s : State) (va : Dword) : (loadTlbFault va s).intPin = s.intPin := rfl
@[simp] theorem loadTlbFault_nmiPin (s : State) (va : Dword) : (loadTlbFault va s).nmiPin = s.nmiPin := rfl
@[simp] theorem loadTlbFault_nmiLevel (s : State) (va : Dword) : (loadTlbFault va s).nmiLevel = s.nmiLevel := rfl
@[simp] theorem loadTlbFault_timerPending (s : State) (va : Dword) : (loadTlbFault va s).timerPending = s.timerPending := rfl
@[simp] theorem loadTlbFault_standby (s : State) (va : Dword) : (loadTlbFault va s).standby = s.standby := rfl
@[simp] theorem loadTlbFault_busIdle (s : State) (va : Dword) : (loadTlbFault va s).busIdle = s.busIdle := rfl
@[simp] theorem loadTlbFault_caches (s : State) (va : Dword) : (loadTlbFault va s).caches = s.caches := rfl
@[simp] theorem loadTlbFault_mem (s : State) (va : Dword) : (loadTlbFault va s).mem = s.mem := rfl
@[simp] theorem loadTlbFault_stale (s : State) (va : Dword) : (loadTlbFault va s).stale = s.stale := rfl
@[simp] theorem loadTlbFault_params (s : State) (va : Dword) : (loadTlbFault va s).params = s.params := rfl
@[simp] theorem loadTlbFault_pendingErrors (s : State) (va : Dword) : (loadTlbFault va s).pendingErrors = s.pendingErrors := rfl
@[simp] theorem loadTlbFault_events (s : State) (va : Dword) : (loadTlbFault va s).events = s.events := rfl
@[simp] theorem loadTlbFault_hazards (s : State) (va : Dword) : (loadTlbFault va s).hazards = s.hazards := rfl

/-! `loadAddressError` -/

@[simp] theorem loadAddressError_gpr (s : State) (va : Dword) : (loadAddressError va s).gpr = s.gpr := rfl
@[simp] theorem loadAddressError_hi (s : State) (va : Dword) : (loadAddressError va s).hi = s.hi := rfl
@[simp] theorem loadAddressError_lo (s : State) (va : Dword) : (loadAddressError va s).lo = s.lo := rfl
@[simp] theorem loadAddressError_pc (s : State) (va : Dword) : (loadAddressError va s).pc = s.pc := rfl
@[simp] theorem loadAddressError_inDelaySlot (s : State) (va : Dword) : (loadAddressError va s).inDelaySlot = s.inDelaySlot := rfl
@[simp] theorem loadAddressError_branchTarget (s : State) (va : Dword) : (loadAddressError va s).branchTarget = s.branchTarget := rfl
@[simp] theorem loadAddressError_fpu (s : State) (va : Dword) : (loadAddressError va s).fpu = s.fpu := rfl
@[simp] theorem loadAddressError_tlb (s : State) (va : Dword) : (loadAddressError va s).tlb = s.tlb := rfl
@[simp] theorem loadAddressError_llBit (s : State) (va : Dword) : (loadAddressError va s).llBit = s.llBit := rfl
@[simp] theorem loadAddressError_intReg (s : State) (va : Dword) : (loadAddressError va s).intReg = s.intReg := rfl
@[simp] theorem loadAddressError_intPin (s : State) (va : Dword) : (loadAddressError va s).intPin = s.intPin := rfl
@[simp] theorem loadAddressError_nmiPin (s : State) (va : Dword) : (loadAddressError va s).nmiPin = s.nmiPin := rfl
@[simp] theorem loadAddressError_nmiLevel (s : State) (va : Dword) : (loadAddressError va s).nmiLevel = s.nmiLevel := rfl
@[simp] theorem loadAddressError_timerPending (s : State) (va : Dword) : (loadAddressError va s).timerPending = s.timerPending := rfl
@[simp] theorem loadAddressError_standby (s : State) (va : Dword) : (loadAddressError va s).standby = s.standby := rfl
@[simp] theorem loadAddressError_busIdle (s : State) (va : Dword) : (loadAddressError va s).busIdle = s.busIdle := rfl
@[simp] theorem loadAddressError_caches (s : State) (va : Dword) : (loadAddressError va s).caches = s.caches := rfl
@[simp] theorem loadAddressError_mem (s : State) (va : Dword) : (loadAddressError va s).mem = s.mem := rfl
@[simp] theorem loadAddressError_stale (s : State) (va : Dword) : (loadAddressError va s).stale = s.stale := rfl
@[simp] theorem loadAddressError_params (s : State) (va : Dword) : (loadAddressError va s).params = s.params := rfl
@[simp] theorem loadAddressError_pendingErrors (s : State) (va : Dword) : (loadAddressError va s).pendingErrors = s.pendingErrors := rfl
@[simp] theorem loadAddressError_events (s : State) (va : Dword) : (loadAddressError va s).events = s.events := rfl
@[simp] theorem loadAddressError_hazards (s : State) (va : Dword) : (loadAddressError va s).hazards = s.hazards := rfl

/-! `loadBusError` -/

@[simp] theorem loadBusError_gpr (s : State) (pa : PAddr) : (loadBusError pa s).gpr = s.gpr := rfl
@[simp] theorem loadBusError_hi (s : State) (pa : PAddr) : (loadBusError pa s).hi = s.hi := rfl
@[simp] theorem loadBusError_lo (s : State) (pa : PAddr) : (loadBusError pa s).lo = s.lo := rfl
@[simp] theorem loadBusError_pc (s : State) (pa : PAddr) : (loadBusError pa s).pc = s.pc := rfl
@[simp] theorem loadBusError_inDelaySlot (s : State) (pa : PAddr) : (loadBusError pa s).inDelaySlot = s.inDelaySlot := rfl
@[simp] theorem loadBusError_branchTarget (s : State) (pa : PAddr) : (loadBusError pa s).branchTarget = s.branchTarget := rfl
@[simp] theorem loadBusError_fpu (s : State) (pa : PAddr) : (loadBusError pa s).fpu = s.fpu := rfl
@[simp] theorem loadBusError_tlb (s : State) (pa : PAddr) : (loadBusError pa s).tlb = s.tlb := rfl
@[simp] theorem loadBusError_llBit (s : State) (pa : PAddr) : (loadBusError pa s).llBit = s.llBit := rfl
@[simp] theorem loadBusError_intReg (s : State) (pa : PAddr) : (loadBusError pa s).intReg = s.intReg := rfl
@[simp] theorem loadBusError_intPin (s : State) (pa : PAddr) : (loadBusError pa s).intPin = s.intPin := rfl
@[simp] theorem loadBusError_nmiPin (s : State) (pa : PAddr) : (loadBusError pa s).nmiPin = s.nmiPin := rfl
@[simp] theorem loadBusError_nmiLevel (s : State) (pa : PAddr) : (loadBusError pa s).nmiLevel = s.nmiLevel := rfl
@[simp] theorem loadBusError_timerPending (s : State) (pa : PAddr) : (loadBusError pa s).timerPending = s.timerPending := rfl
@[simp] theorem loadBusError_standby (s : State) (pa : PAddr) : (loadBusError pa s).standby = s.standby := rfl
@[simp] theorem loadBusError_busIdle (s : State) (pa : PAddr) : (loadBusError pa s).busIdle = s.busIdle := rfl
@[simp] theorem loadBusError_caches (s : State) (pa : PAddr) : (loadBusError pa s).caches = s.caches := rfl
@[simp] theorem loadBusError_mem (s : State) (pa : PAddr) : (loadBusError pa s).mem = s.mem := rfl
@[simp] theorem loadBusError_stale (s : State) (pa : PAddr) : (loadBusError pa s).stale = s.stale := rfl
@[simp] theorem loadBusError_params (s : State) (pa : PAddr) : (loadBusError pa s).params = s.params := rfl
@[simp] theorem loadBusError_pendingErrors (s : State) (pa : PAddr) : (loadBusError pa s).pendingErrors = s.pendingErrors := rfl
@[simp] theorem loadBusError_events (s : State) (pa : PAddr) : (loadBusError pa s).events = s.events := rfl
@[simp] theorem loadBusError_freeCount (s : State) (pa : PAddr) : (loadBusError pa s).freeCount = s.freeCount := rfl
@[simp] theorem loadBusError_hazards (s : State) (pa : PAddr) : (loadBusError pa s).hazards = s.hazards := rfl

/-! `loadExc` -/

@[simp] theorem loadExc_gpr (s : State) (e : Exc) : (loadExc e s).gpr = s.gpr := by cases e <;> rfl
@[simp] theorem loadExc_hi (s : State) (e : Exc) : (loadExc e s).hi = s.hi := by cases e <;> rfl
@[simp] theorem loadExc_lo (s : State) (e : Exc) : (loadExc e s).lo = s.lo := by cases e <;> rfl
@[simp] theorem loadExc_pc (s : State) (e : Exc) : (loadExc e s).pc = s.pc := by cases e <;> rfl
@[simp] theorem loadExc_inDelaySlot (s : State) (e : Exc) : (loadExc e s).inDelaySlot = s.inDelaySlot := by cases e <;> rfl
@[simp] theorem loadExc_branchTarget (s : State) (e : Exc) : (loadExc e s).branchTarget = s.branchTarget := by cases e <;> rfl
@[simp] theorem loadExc_fpu (s : State) (e : Exc) : (loadExc e s).fpu = s.fpu := by cases e <;> rfl
@[simp] theorem loadExc_tlb (s : State) (e : Exc) : (loadExc e s).tlb = s.tlb := by cases e <;> rfl
@[simp] theorem loadExc_llBit (s : State) (e : Exc) : (loadExc e s).llBit = s.llBit := by cases e <;> rfl
@[simp] theorem loadExc_intReg (s : State) (e : Exc) : (loadExc e s).intReg = s.intReg := by cases e <;> rfl
@[simp] theorem loadExc_intPin (s : State) (e : Exc) : (loadExc e s).intPin = s.intPin := by cases e <;> rfl
@[simp] theorem loadExc_nmiPin (s : State) (e : Exc) : (loadExc e s).nmiPin = s.nmiPin := by cases e <;> rfl
@[simp] theorem loadExc_nmiLevel (s : State) (e : Exc) : (loadExc e s).nmiLevel = s.nmiLevel := by cases e <;> rfl
@[simp] theorem loadExc_timerPending (s : State) (e : Exc) : (loadExc e s).timerPending = s.timerPending := by cases e <;> rfl
@[simp] theorem loadExc_standby (s : State) (e : Exc) : (loadExc e s).standby = s.standby := by cases e <;> rfl
@[simp] theorem loadExc_busIdle (s : State) (e : Exc) : (loadExc e s).busIdle = s.busIdle := by cases e <;> rfl
@[simp] theorem loadExc_caches (s : State) (e : Exc) : (loadExc e s).caches = s.caches := by cases e <;> rfl
@[simp] theorem loadExc_mem (s : State) (e : Exc) : (loadExc e s).mem = s.mem := by cases e <;> rfl
@[simp] theorem loadExc_stale (s : State) (e : Exc) : (loadExc e s).stale = s.stale := by cases e <;> rfl
@[simp] theorem loadExc_params (s : State) (e : Exc) : (loadExc e s).params = s.params := by cases e <;> rfl
@[simp] theorem loadExc_pendingErrors (s : State) (e : Exc) : (loadExc e s).pendingErrors = s.pendingErrors := by cases e <;> rfl
@[simp] theorem loadExc_events (s : State) (e : Exc) : (loadExc e s).events = s.events := by cases e <;> rfl
@[simp] theorem loadExc_hazards (s : State) (e : Exc) : (loadExc e s).hazards = s.hazards := by cases e <;> rfl

/-! `loadCe` -/

@[simp] theorem loadCe_gpr (s : State) (e : Exc) : (loadCe e s).gpr = s.gpr := by cases e <;> rfl
@[simp] theorem loadCe_hi (s : State) (e : Exc) : (loadCe e s).hi = s.hi := by cases e <;> rfl
@[simp] theorem loadCe_lo (s : State) (e : Exc) : (loadCe e s).lo = s.lo := by cases e <;> rfl
@[simp] theorem loadCe_pc (s : State) (e : Exc) : (loadCe e s).pc = s.pc := by cases e <;> rfl
@[simp] theorem loadCe_inDelaySlot (s : State) (e : Exc) : (loadCe e s).inDelaySlot = s.inDelaySlot := by cases e <;> rfl
@[simp] theorem loadCe_branchTarget (s : State) (e : Exc) : (loadCe e s).branchTarget = s.branchTarget := by cases e <;> rfl
@[simp] theorem loadCe_fpu (s : State) (e : Exc) : (loadCe e s).fpu = s.fpu := by cases e <;> rfl
@[simp] theorem loadCe_tlb (s : State) (e : Exc) : (loadCe e s).tlb = s.tlb := by cases e <;> rfl
@[simp] theorem loadCe_llBit (s : State) (e : Exc) : (loadCe e s).llBit = s.llBit := by cases e <;> rfl
@[simp] theorem loadCe_intReg (s : State) (e : Exc) : (loadCe e s).intReg = s.intReg := by cases e <;> rfl
@[simp] theorem loadCe_intPin (s : State) (e : Exc) : (loadCe e s).intPin = s.intPin := by cases e <;> rfl
@[simp] theorem loadCe_nmiPin (s : State) (e : Exc) : (loadCe e s).nmiPin = s.nmiPin := by cases e <;> rfl
@[simp] theorem loadCe_nmiLevel (s : State) (e : Exc) : (loadCe e s).nmiLevel = s.nmiLevel := by cases e <;> rfl
@[simp] theorem loadCe_timerPending (s : State) (e : Exc) : (loadCe e s).timerPending = s.timerPending := by cases e <;> rfl
@[simp] theorem loadCe_standby (s : State) (e : Exc) : (loadCe e s).standby = s.standby := by cases e <;> rfl
@[simp] theorem loadCe_busIdle (s : State) (e : Exc) : (loadCe e s).busIdle = s.busIdle := by cases e <;> rfl
@[simp] theorem loadCe_caches (s : State) (e : Exc) : (loadCe e s).caches = s.caches := by cases e <;> rfl
@[simp] theorem loadCe_mem (s : State) (e : Exc) : (loadCe e s).mem = s.mem := by cases e <;> rfl
@[simp] theorem loadCe_stale (s : State) (e : Exc) : (loadCe e s).stale = s.stale := by cases e <;> rfl
@[simp] theorem loadCe_params (s : State) (e : Exc) : (loadCe e s).params = s.params := by cases e <;> rfl
@[simp] theorem loadCe_pendingErrors (s : State) (e : Exc) : (loadCe e s).pendingErrors = s.pendingErrors := by cases e <;> rfl
@[simp] theorem loadCe_events (s : State) (e : Exc) : (loadCe e s).events = s.events := by cases e <;> rfl
@[simp] theorem loadCe_hazards (s : State) (e : Exc) : (loadCe e s).hazards = s.hazards := by cases e <;> rfl

/-! `enterGeneral` -/

@[simp] theorem enterGeneral_gpr (s : State) (c : BitVec 5) (o : Dword) : (enterGeneral c o s).gpr = s.gpr := rfl
@[simp] theorem enterGeneral_hi (s : State) (c : BitVec 5) (o : Dword) : (enterGeneral c o s).hi = s.hi := rfl
@[simp] theorem enterGeneral_lo (s : State) (c : BitVec 5) (o : Dword) : (enterGeneral c o s).lo = s.lo := rfl
@[simp] theorem enterGeneral_branchTarget (s : State) (c : BitVec 5) (o : Dword) : (enterGeneral c o s).branchTarget = s.branchTarget := rfl
@[simp] theorem enterGeneral_fpu (s : State) (c : BitVec 5) (o : Dword) : (enterGeneral c o s).fpu = s.fpu := rfl
@[simp] theorem enterGeneral_tlb (s : State) (c : BitVec 5) (o : Dword) : (enterGeneral c o s).tlb = s.tlb := rfl
@[simp] theorem enterGeneral_llBit (s : State) (c : BitVec 5) (o : Dword) : (enterGeneral c o s).llBit = s.llBit := rfl
@[simp] theorem enterGeneral_intReg (s : State) (c : BitVec 5) (o : Dword) : (enterGeneral c o s).intReg = s.intReg := rfl
@[simp] theorem enterGeneral_intPin (s : State) (c : BitVec 5) (o : Dword) : (enterGeneral c o s).intPin = s.intPin := rfl
@[simp] theorem enterGeneral_nmiPin (s : State) (c : BitVec 5) (o : Dword) : (enterGeneral c o s).nmiPin = s.nmiPin := rfl
@[simp] theorem enterGeneral_nmiLevel (s : State) (c : BitVec 5) (o : Dword) : (enterGeneral c o s).nmiLevel = s.nmiLevel := rfl
@[simp] theorem enterGeneral_timerPending (s : State) (c : BitVec 5) (o : Dword) : (enterGeneral c o s).timerPending = s.timerPending := rfl
@[simp] theorem enterGeneral_standby (s : State) (c : BitVec 5) (o : Dword) : (enterGeneral c o s).standby = s.standby := rfl
@[simp] theorem enterGeneral_busIdle (s : State) (c : BitVec 5) (o : Dword) : (enterGeneral c o s).busIdle = s.busIdle := rfl
@[simp] theorem enterGeneral_caches (s : State) (c : BitVec 5) (o : Dword) : (enterGeneral c o s).caches = s.caches := rfl
@[simp] theorem enterGeneral_mem (s : State) (c : BitVec 5) (o : Dword) : (enterGeneral c o s).mem = s.mem := rfl
@[simp] theorem enterGeneral_stale (s : State) (c : BitVec 5) (o : Dword) : (enterGeneral c o s).stale = s.stale := rfl
@[simp] theorem enterGeneral_params (s : State) (c : BitVec 5) (o : Dword) : (enterGeneral c o s).params = s.params := rfl
@[simp] theorem enterGeneral_pendingErrors (s : State) (c : BitVec 5) (o : Dword) : (enterGeneral c o s).pendingErrors = s.pendingErrors := rfl
@[simp] theorem enterGeneral_events (s : State) (c : BitVec 5) (o : Dword) : (enterGeneral c o s).events = s.events := rfl
@[simp] theorem enterGeneral_freeCount (s : State) (c : BitVec 5) (o : Dword) : (enterGeneral c o s).freeCount = s.freeCount := rfl

/-! `takeException` -/

@[simp] theorem takeException_gpr (s : State) (e : Exc) : (takeException e s).gpr = s.gpr := by simp [takeException]
@[simp] theorem takeException_hi (s : State) (e : Exc) : (takeException e s).hi = s.hi := by simp [takeException]
@[simp] theorem takeException_lo (s : State) (e : Exc) : (takeException e s).lo = s.lo := by simp [takeException]
@[simp] theorem takeException_branchTarget (s : State) (e : Exc) : (takeException e s).branchTarget = s.branchTarget := by simp [takeException]
@[simp] theorem takeException_fpu (s : State) (e : Exc) : (takeException e s).fpu = s.fpu := by simp [takeException]
@[simp] theorem takeException_tlb (s : State) (e : Exc) : (takeException e s).tlb = s.tlb := by simp [takeException]
@[simp] theorem takeException_llBit (s : State) (e : Exc) : (takeException e s).llBit = s.llBit := by simp [takeException]
@[simp] theorem takeException_intReg (s : State) (e : Exc) : (takeException e s).intReg = s.intReg := by simp [takeException]
@[simp] theorem takeException_intPin (s : State) (e : Exc) : (takeException e s).intPin = s.intPin := by simp [takeException]
@[simp] theorem takeException_nmiPin (s : State) (e : Exc) : (takeException e s).nmiPin = s.nmiPin := by simp [takeException]
@[simp] theorem takeException_nmiLevel (s : State) (e : Exc) : (takeException e s).nmiLevel = s.nmiLevel := by simp [takeException]
@[simp] theorem takeException_timerPending (s : State) (e : Exc) : (takeException e s).timerPending = s.timerPending := by simp [takeException]
@[simp] theorem takeException_standby (s : State) (e : Exc) : (takeException e s).standby = s.standby := by simp [takeException]
@[simp] theorem takeException_busIdle (s : State) (e : Exc) : (takeException e s).busIdle = s.busIdle := by simp [takeException]
@[simp] theorem takeException_caches (s : State) (e : Exc) : (takeException e s).caches = s.caches := by simp [takeException]
@[simp] theorem takeException_mem (s : State) (e : Exc) : (takeException e s).mem = s.mem := by simp [takeException]
@[simp] theorem takeException_stale (s : State) (e : Exc) : (takeException e s).stale = s.stale := by simp [takeException]
@[simp] theorem takeException_params (s : State) (e : Exc) : (takeException e s).params = s.params := by simp [takeException]
@[simp] theorem takeException_pendingErrors (s : State) (e : Exc) : (takeException e s).pendingErrors = s.pendingErrors := by simp [takeException]
@[simp] theorem takeException_events (s : State) (e : Exc) : (takeException e s).events = s.events := by simp [takeException]

/-! `enterSoftReset` -/

@[simp] theorem enterSoftReset_gpr (s : State) : (enterSoftReset s).gpr = s.gpr := rfl
@[simp] theorem enterSoftReset_hi (s : State) : (enterSoftReset s).hi = s.hi := rfl
@[simp] theorem enterSoftReset_lo (s : State) : (enterSoftReset s).lo = s.lo := rfl
@[simp] theorem enterSoftReset_branchTarget (s : State) : (enterSoftReset s).branchTarget = s.branchTarget := rfl
@[simp] theorem enterSoftReset_fpu (s : State) : (enterSoftReset s).fpu = s.fpu := rfl
@[simp] theorem enterSoftReset_tlb (s : State) : (enterSoftReset s).tlb = s.tlb := rfl
@[simp] theorem enterSoftReset_llBit (s : State) : (enterSoftReset s).llBit = s.llBit := rfl
@[simp] theorem enterSoftReset_intReg (s : State) : (enterSoftReset s).intReg = s.intReg := rfl
@[simp] theorem enterSoftReset_intPin (s : State) : (enterSoftReset s).intPin = s.intPin := rfl
@[simp] theorem enterSoftReset_nmiPin (s : State) : (enterSoftReset s).nmiPin = s.nmiPin := rfl
@[simp] theorem enterSoftReset_nmiLevel (s : State) : (enterSoftReset s).nmiLevel = s.nmiLevel := rfl
@[simp] theorem enterSoftReset_timerPending (s : State) : (enterSoftReset s).timerPending = s.timerPending := rfl
@[simp] theorem enterSoftReset_busIdle (s : State) : (enterSoftReset s).busIdle = s.busIdle := rfl
@[simp] theorem enterSoftReset_caches (s : State) : (enterSoftReset s).caches = s.caches := rfl
@[simp] theorem enterSoftReset_mem (s : State) : (enterSoftReset s).mem = s.mem := rfl
@[simp] theorem enterSoftReset_stale (s : State) : (enterSoftReset s).stale = s.stale := rfl
@[simp] theorem enterSoftReset_params (s : State) : (enterSoftReset s).params = s.params := rfl
@[simp] theorem enterSoftReset_pendingErrors (s : State) : (enterSoftReset s).pendingErrors = s.pendingErrors := rfl
@[simp] theorem enterSoftReset_events (s : State) : (enterSoftReset s).events = s.events := rfl
@[simp] theorem enterSoftReset_freeCount (s : State) : (enterSoftReset s).freeCount = s.freeCount := rfl

/-! `enterCacheError` -/

@[simp] theorem enterCacheError_gpr (s : State) : (enterCacheError s).gpr = s.gpr := rfl
@[simp] theorem enterCacheError_hi (s : State) : (enterCacheError s).hi = s.hi := rfl
@[simp] theorem enterCacheError_lo (s : State) : (enterCacheError s).lo = s.lo := rfl
@[simp] theorem enterCacheError_branchTarget (s : State) : (enterCacheError s).branchTarget = s.branchTarget := rfl
@[simp] theorem enterCacheError_fpu (s : State) : (enterCacheError s).fpu = s.fpu := rfl
@[simp] theorem enterCacheError_tlb (s : State) : (enterCacheError s).tlb = s.tlb := rfl
@[simp] theorem enterCacheError_llBit (s : State) : (enterCacheError s).llBit = s.llBit := rfl
@[simp] theorem enterCacheError_intReg (s : State) : (enterCacheError s).intReg = s.intReg := rfl
@[simp] theorem enterCacheError_intPin (s : State) : (enterCacheError s).intPin = s.intPin := rfl
@[simp] theorem enterCacheError_nmiPin (s : State) : (enterCacheError s).nmiPin = s.nmiPin := rfl
@[simp] theorem enterCacheError_nmiLevel (s : State) : (enterCacheError s).nmiLevel = s.nmiLevel := rfl
@[simp] theorem enterCacheError_timerPending (s : State) : (enterCacheError s).timerPending = s.timerPending := rfl
@[simp] theorem enterCacheError_standby (s : State) : (enterCacheError s).standby = s.standby := rfl
@[simp] theorem enterCacheError_busIdle (s : State) : (enterCacheError s).busIdle = s.busIdle := rfl
@[simp] theorem enterCacheError_caches (s : State) : (enterCacheError s).caches = s.caches := rfl
@[simp] theorem enterCacheError_mem (s : State) : (enterCacheError s).mem = s.mem := rfl
@[simp] theorem enterCacheError_stale (s : State) : (enterCacheError s).stale = s.stale := rfl
@[simp] theorem enterCacheError_params (s : State) : (enterCacheError s).params = s.params := rfl
@[simp] theorem enterCacheError_pendingErrors (s : State) : (enterCacheError s).pendingErrors = s.pendingErrors := rfl
@[simp] theorem enterCacheError_events (s : State) : (enterCacheError s).events = s.events := rfl
@[simp] theorem enterCacheError_freeCount (s : State) : (enterCacheError s).freeCount = s.freeCount := rfl

/-! `returnFromException` -/

@[simp] theorem returnFromException_gpr (s : State) : (returnFromException s).gpr = s.gpr := by unfold returnFromException; split <;> rfl
@[simp] theorem returnFromException_hi (s : State) : (returnFromException s).hi = s.hi := by unfold returnFromException; split <;> rfl
@[simp] theorem returnFromException_lo (s : State) : (returnFromException s).lo = s.lo := by unfold returnFromException; split <;> rfl
@[simp] theorem returnFromException_inDelaySlot (s : State) : (returnFromException s).inDelaySlot = s.inDelaySlot := by unfold returnFromException; split <;> rfl
@[simp] theorem returnFromException_branchTarget (s : State) : (returnFromException s).branchTarget = s.branchTarget := by unfold returnFromException; split <;> rfl
@[simp] theorem returnFromException_fpu (s : State) : (returnFromException s).fpu = s.fpu := by unfold returnFromException; split <;> rfl
@[simp] theorem returnFromException_tlb (s : State) : (returnFromException s).tlb = s.tlb := by unfold returnFromException; split <;> rfl
@[simp] theorem returnFromException_intReg (s : State) : (returnFromException s).intReg = s.intReg := by unfold returnFromException; split <;> rfl
@[simp] theorem returnFromException_intPin (s : State) : (returnFromException s).intPin = s.intPin := by unfold returnFromException; split <;> rfl
@[simp] theorem returnFromException_nmiPin (s : State) : (returnFromException s).nmiPin = s.nmiPin := by unfold returnFromException; split <;> rfl
@[simp] theorem returnFromException_nmiLevel (s : State) : (returnFromException s).nmiLevel = s.nmiLevel := by unfold returnFromException; split <;> rfl
@[simp] theorem returnFromException_timerPending (s : State) : (returnFromException s).timerPending = s.timerPending := by unfold returnFromException; split <;> rfl
@[simp] theorem returnFromException_standby (s : State) : (returnFromException s).standby = s.standby := by unfold returnFromException; split <;> rfl
@[simp] theorem returnFromException_busIdle (s : State) : (returnFromException s).busIdle = s.busIdle := by unfold returnFromException; split <;> rfl
@[simp] theorem returnFromException_caches (s : State) : (returnFromException s).caches = s.caches := by unfold returnFromException; split <;> rfl
@[simp] theorem returnFromException_mem (s : State) : (returnFromException s).mem = s.mem := by unfold returnFromException; split <;> rfl
@[simp] theorem returnFromException_stale (s : State) : (returnFromException s).stale = s.stale := by unfold returnFromException; split <;> rfl
@[simp] theorem returnFromException_params (s : State) : (returnFromException s).params = s.params := by unfold returnFromException; split <;> rfl
@[simp] theorem returnFromException_pendingErrors (s : State) : (returnFromException s).pendingErrors = s.pendingErrors := by unfold returnFromException; split <;> rfl
@[simp] theorem returnFromException_events (s : State) : (returnFromException s).events = s.events := by unfold returnFromException; split <;> rfl
@[simp] theorem returnFromException_freeCount (s : State) : (returnFromException s).freeCount = s.freeCount := by unfold returnFromException; split <;> rfl

/-! `breakLink` -/

@[simp] theorem breakLink_gpr (s : State) (k : LinkEvent) : (breakLink k s).gpr = s.gpr := by unfold breakLink; split <;> rfl
@[simp] theorem breakLink_hi (s : State) (k : LinkEvent) : (breakLink k s).hi = s.hi := by unfold breakLink; split <;> rfl
@[simp] theorem breakLink_lo (s : State) (k : LinkEvent) : (breakLink k s).lo = s.lo := by unfold breakLink; split <;> rfl
@[simp] theorem breakLink_pc (s : State) (k : LinkEvent) : (breakLink k s).pc = s.pc := by unfold breakLink; split <;> rfl
@[simp] theorem breakLink_inDelaySlot (s : State) (k : LinkEvent) : (breakLink k s).inDelaySlot = s.inDelaySlot := by unfold breakLink; split <;> rfl
@[simp] theorem breakLink_branchTarget (s : State) (k : LinkEvent) : (breakLink k s).branchTarget = s.branchTarget := by unfold breakLink; split <;> rfl
@[simp] theorem breakLink_cp0 (s : State) (k : LinkEvent) : (breakLink k s).cp0 = s.cp0 := by unfold breakLink; split <;> rfl
@[simp] theorem breakLink_fpu (s : State) (k : LinkEvent) : (breakLink k s).fpu = s.fpu := by unfold breakLink; split <;> rfl
@[simp] theorem breakLink_tlb (s : State) (k : LinkEvent) : (breakLink k s).tlb = s.tlb := by unfold breakLink; split <;> rfl
@[simp] theorem breakLink_intReg (s : State) (k : LinkEvent) : (breakLink k s).intReg = s.intReg := by unfold breakLink; split <;> rfl
@[simp] theorem breakLink_intPin (s : State) (k : LinkEvent) : (breakLink k s).intPin = s.intPin := by unfold breakLink; split <;> rfl
@[simp] theorem breakLink_nmiPin (s : State) (k : LinkEvent) : (breakLink k s).nmiPin = s.nmiPin := by unfold breakLink; split <;> rfl
@[simp] theorem breakLink_nmiLevel (s : State) (k : LinkEvent) : (breakLink k s).nmiLevel = s.nmiLevel := by unfold breakLink; split <;> rfl
@[simp] theorem breakLink_timerPending (s : State) (k : LinkEvent) : (breakLink k s).timerPending = s.timerPending := by unfold breakLink; split <;> rfl
@[simp] theorem breakLink_standby (s : State) (k : LinkEvent) : (breakLink k s).standby = s.standby := by unfold breakLink; split <;> rfl
@[simp] theorem breakLink_busIdle (s : State) (k : LinkEvent) : (breakLink k s).busIdle = s.busIdle := by unfold breakLink; split <;> rfl
@[simp] theorem breakLink_caches (s : State) (k : LinkEvent) : (breakLink k s).caches = s.caches := by unfold breakLink; split <;> rfl
@[simp] theorem breakLink_mem (s : State) (k : LinkEvent) : (breakLink k s).mem = s.mem := by unfold breakLink; split <;> rfl
@[simp] theorem breakLink_stale (s : State) (k : LinkEvent) : (breakLink k s).stale = s.stale := by unfold breakLink; split <;> rfl
@[simp] theorem breakLink_params (s : State) (k : LinkEvent) : (breakLink k s).params = s.params := by unfold breakLink; split <;> rfl
@[simp] theorem breakLink_pendingErrors (s : State) (k : LinkEvent) : (breakLink k s).pendingErrors = s.pendingErrors := by unfold breakLink; split <;> rfl
@[simp] theorem breakLink_events (s : State) (k : LinkEvent) : (breakLink k s).events = s.events := by unfold breakLink; split <;> rfl
@[simp] theorem breakLink_freeCount (s : State) (k : LinkEvent) : (breakLink k s).freeCount = s.freeCount := by unfold breakLink; split <;> rfl
@[simp] theorem breakLink_hazards (s : State) (k : LinkEvent) : (breakLink k s).hazards = s.hazards := by unfold breakLink; split <;> rfl

/-! `putD` -/

@[simp] theorem putD_gpr (s : State) (k : Nat) (x : DLine) : (putD k x s).gpr = s.gpr := rfl
@[simp] theorem putD_hi (s : State) (k : Nat) (x : DLine) : (putD k x s).hi = s.hi := rfl
@[simp] theorem putD_lo (s : State) (k : Nat) (x : DLine) : (putD k x s).lo = s.lo := rfl
@[simp] theorem putD_pc (s : State) (k : Nat) (x : DLine) : (putD k x s).pc = s.pc := rfl
@[simp] theorem putD_inDelaySlot (s : State) (k : Nat) (x : DLine) : (putD k x s).inDelaySlot = s.inDelaySlot := rfl
@[simp] theorem putD_branchTarget (s : State) (k : Nat) (x : DLine) : (putD k x s).branchTarget = s.branchTarget := rfl
@[simp] theorem putD_cp0 (s : State) (k : Nat) (x : DLine) : (putD k x s).cp0 = s.cp0 := rfl
@[simp] theorem putD_fpu (s : State) (k : Nat) (x : DLine) : (putD k x s).fpu = s.fpu := rfl
@[simp] theorem putD_tlb (s : State) (k : Nat) (x : DLine) : (putD k x s).tlb = s.tlb := rfl
@[simp] theorem putD_llBit (s : State) (k : Nat) (x : DLine) : (putD k x s).llBit = s.llBit := rfl
@[simp] theorem putD_intReg (s : State) (k : Nat) (x : DLine) : (putD k x s).intReg = s.intReg := rfl
@[simp] theorem putD_intPin (s : State) (k : Nat) (x : DLine) : (putD k x s).intPin = s.intPin := rfl
@[simp] theorem putD_nmiPin (s : State) (k : Nat) (x : DLine) : (putD k x s).nmiPin = s.nmiPin := rfl
@[simp] theorem putD_nmiLevel (s : State) (k : Nat) (x : DLine) : (putD k x s).nmiLevel = s.nmiLevel := rfl
@[simp] theorem putD_timerPending (s : State) (k : Nat) (x : DLine) : (putD k x s).timerPending = s.timerPending := rfl
@[simp] theorem putD_standby (s : State) (k : Nat) (x : DLine) : (putD k x s).standby = s.standby := rfl
@[simp] theorem putD_busIdle (s : State) (k : Nat) (x : DLine) : (putD k x s).busIdle = s.busIdle := rfl
@[simp] theorem putD_mem (s : State) (k : Nat) (x : DLine) : (putD k x s).mem = s.mem := rfl
@[simp] theorem putD_stale (s : State) (k : Nat) (x : DLine) : (putD k x s).stale = s.stale := rfl
@[simp] theorem putD_params (s : State) (k : Nat) (x : DLine) : (putD k x s).params = s.params := rfl
@[simp] theorem putD_pendingErrors (s : State) (k : Nat) (x : DLine) : (putD k x s).pendingErrors = s.pendingErrors := rfl
@[simp] theorem putD_events (s : State) (k : Nat) (x : DLine) : (putD k x s).events = s.events := rfl
@[simp] theorem putD_freeCount (s : State) (k : Nat) (x : DLine) : (putD k x s).freeCount = s.freeCount := rfl
@[simp] theorem putD_hazards (s : State) (k : Nat) (x : DLine) : (putD k x s).hazards = s.hazards := rfl

/-! `putI` -/

@[simp] theorem putI_gpr (s : State) (k : Nat) (x : ILine) : (putI k x s).gpr = s.gpr := rfl
@[simp] theorem putI_hi (s : State) (k : Nat) (x : ILine) : (putI k x s).hi = s.hi := rfl
@[simp] theorem putI_lo (s : State) (k : Nat) (x : ILine) : (putI k x s).lo = s.lo := rfl
@[simp] theorem putI_pc (s : State) (k : Nat) (x : ILine) : (putI k x s).pc = s.pc := rfl
@[simp] theorem putI_inDelaySlot (s : State) (k : Nat) (x : ILine) : (putI k x s).inDelaySlot = s.inDelaySlot := rfl
@[simp] theorem putI_branchTarget (s : State) (k : Nat) (x : ILine) : (putI k x s).branchTarget = s.branchTarget := rfl
@[simp] theorem putI_cp0 (s : State) (k : Nat) (x : ILine) : (putI k x s).cp0 = s.cp0 := rfl
@[simp] theorem putI_fpu (s : State) (k : Nat) (x : ILine) : (putI k x s).fpu = s.fpu := rfl
@[simp] theorem putI_tlb (s : State) (k : Nat) (x : ILine) : (putI k x s).tlb = s.tlb := rfl
@[simp] theorem putI_llBit (s : State) (k : Nat) (x : ILine) : (putI k x s).llBit = s.llBit := rfl
@[simp] theorem putI_intReg (s : State) (k : Nat) (x : ILine) : (putI k x s).intReg = s.intReg := rfl
@[simp] theorem putI_intPin (s : State) (k : Nat) (x : ILine) : (putI k x s).intPin = s.intPin := rfl
@[simp] theorem putI_nmiPin (s : State) (k : Nat) (x : ILine) : (putI k x s).nmiPin = s.nmiPin := rfl
@[simp] theorem putI_nmiLevel (s : State) (k : Nat) (x : ILine) : (putI k x s).nmiLevel = s.nmiLevel := rfl
@[simp] theorem putI_timerPending (s : State) (k : Nat) (x : ILine) : (putI k x s).timerPending = s.timerPending := rfl
@[simp] theorem putI_standby (s : State) (k : Nat) (x : ILine) : (putI k x s).standby = s.standby := rfl
@[simp] theorem putI_busIdle (s : State) (k : Nat) (x : ILine) : (putI k x s).busIdle = s.busIdle := rfl
@[simp] theorem putI_mem (s : State) (k : Nat) (x : ILine) : (putI k x s).mem = s.mem := rfl
@[simp] theorem putI_stale (s : State) (k : Nat) (x : ILine) : (putI k x s).stale = s.stale := rfl
@[simp] theorem putI_params (s : State) (k : Nat) (x : ILine) : (putI k x s).params = s.params := rfl
@[simp] theorem putI_pendingErrors (s : State) (k : Nat) (x : ILine) : (putI k x s).pendingErrors = s.pendingErrors := rfl
@[simp] theorem putI_events (s : State) (k : Nat) (x : ILine) : (putI k x s).events = s.events := rfl
@[simp] theorem putI_freeCount (s : State) (k : Nat) (x : ILine) : (putI k x s).freeCount = s.freeCount := rfl
@[simp] theorem putI_hazards (s : State) (k : Nat) (x : ILine) : (putI k x s).hazards = s.hazards := rfl

/-! `putS` -/

@[simp] theorem putS_gpr (s : State) (k : Nat) (x : SLine) : (putS k x s).gpr = s.gpr := rfl
@[simp] theorem putS_hi (s : State) (k : Nat) (x : SLine) : (putS k x s).hi = s.hi := rfl
@[simp] theorem putS_lo (s : State) (k : Nat) (x : SLine) : (putS k x s).lo = s.lo := rfl
@[simp] theorem putS_pc (s : State) (k : Nat) (x : SLine) : (putS k x s).pc = s.pc := rfl
@[simp] theorem putS_inDelaySlot (s : State) (k : Nat) (x : SLine) : (putS k x s).inDelaySlot = s.inDelaySlot := rfl
@[simp] theorem putS_branchTarget (s : State) (k : Nat) (x : SLine) : (putS k x s).branchTarget = s.branchTarget := rfl
@[simp] theorem putS_cp0 (s : State) (k : Nat) (x : SLine) : (putS k x s).cp0 = s.cp0 := rfl
@[simp] theorem putS_fpu (s : State) (k : Nat) (x : SLine) : (putS k x s).fpu = s.fpu := rfl
@[simp] theorem putS_tlb (s : State) (k : Nat) (x : SLine) : (putS k x s).tlb = s.tlb := rfl
@[simp] theorem putS_llBit (s : State) (k : Nat) (x : SLine) : (putS k x s).llBit = s.llBit := rfl
@[simp] theorem putS_intReg (s : State) (k : Nat) (x : SLine) : (putS k x s).intReg = s.intReg := rfl
@[simp] theorem putS_intPin (s : State) (k : Nat) (x : SLine) : (putS k x s).intPin = s.intPin := rfl
@[simp] theorem putS_nmiPin (s : State) (k : Nat) (x : SLine) : (putS k x s).nmiPin = s.nmiPin := rfl
@[simp] theorem putS_nmiLevel (s : State) (k : Nat) (x : SLine) : (putS k x s).nmiLevel = s.nmiLevel := rfl
@[simp] theorem putS_timerPending (s : State) (k : Nat) (x : SLine) : (putS k x s).timerPending = s.timerPending := rfl
@[simp] theorem putS_standby (s : State) (k : Nat) (x : SLine) : (putS k x s).standby = s.standby := rfl
@[simp] theorem putS_busIdle (s : State) (k : Nat) (x : SLine) : (putS k x s).busIdle = s.busIdle := rfl
@[simp] theorem putS_mem (s : State) (k : Nat) (x : SLine) : (putS k x s).mem = s.mem := rfl
@[simp] theorem putS_stale (s : State) (k : Nat) (x : SLine) : (putS k x s).stale = s.stale := rfl
@[simp] theorem putS_params (s : State) (k : Nat) (x : SLine) : (putS k x s).params = s.params := rfl
@[simp] theorem putS_pendingErrors (s : State) (k : Nat) (x : SLine) : (putS k x s).pendingErrors = s.pendingErrors := rfl
@[simp] theorem putS_events (s : State) (k : Nat) (x : SLine) : (putS k x s).events = s.events := rfl
@[simp] theorem putS_freeCount (s : State) (k : Nat) (x : SLine) : (putS k x s).freeCount = s.freeCount := rfl
@[simp] theorem putS_hazards (s : State) (k : Nat) (x : SLine) : (putS k x s).hazards = s.hazards := rfl

/-! `putT` -/

@[simp] theorem putT_gpr (s : State) (k : Nat) (x : TLine) : (putT k x s).gpr = s.gpr := rfl
@[simp] theorem putT_hi (s : State) (k : Nat) (x : TLine) : (putT k x s).hi = s.hi := rfl
@[simp] theorem putT_lo (s : State) (k : Nat) (x : TLine) : (putT k x s).lo = s.lo := rfl
@[simp] theorem putT_pc (s : State) (k : Nat) (x : TLine) : (putT k x s).pc = s.pc := rfl
@[simp] theorem putT_inDelaySlot (s : State) (k : Nat) (x : TLine) : (putT k x s).inDelaySlot = s.inDelaySlot := rfl
@[simp] theorem putT_branchTarget (s : State) (k : Nat) (x : TLine) : (putT k x s).branchTarget = s.branchTarget := rfl
@[simp] theorem putT_cp0 (s : State) (k : Nat) (x : TLine) : (putT k x s).cp0 = s.cp0 := rfl
@[simp] theorem putT_fpu (s : State) (k : Nat) (x : TLine) : (putT k x s).fpu = s.fpu := rfl
@[simp] theorem putT_tlb (s : State) (k : Nat) (x : TLine) : (putT k x s).tlb = s.tlb := rfl
@[simp] theorem putT_llBit (s : State) (k : Nat) (x : TLine) : (putT k x s).llBit = s.llBit := rfl
@[simp] theorem putT_intReg (s : State) (k : Nat) (x : TLine) : (putT k x s).intReg = s.intReg := rfl
@[simp] theorem putT_intPin (s : State) (k : Nat) (x : TLine) : (putT k x s).intPin = s.intPin := rfl
@[simp] theorem putT_nmiPin (s : State) (k : Nat) (x : TLine) : (putT k x s).nmiPin = s.nmiPin := rfl
@[simp] theorem putT_nmiLevel (s : State) (k : Nat) (x : TLine) : (putT k x s).nmiLevel = s.nmiLevel := rfl
@[simp] theorem putT_timerPending (s : State) (k : Nat) (x : TLine) : (putT k x s).timerPending = s.timerPending := rfl
@[simp] theorem putT_standby (s : State) (k : Nat) (x : TLine) : (putT k x s).standby = s.standby := rfl
@[simp] theorem putT_busIdle (s : State) (k : Nat) (x : TLine) : (putT k x s).busIdle = s.busIdle := rfl
@[simp] theorem putT_mem (s : State) (k : Nat) (x : TLine) : (putT k x s).mem = s.mem := rfl
@[simp] theorem putT_stale (s : State) (k : Nat) (x : TLine) : (putT k x s).stale = s.stale := rfl
@[simp] theorem putT_params (s : State) (k : Nat) (x : TLine) : (putT k x s).params = s.params := rfl
@[simp] theorem putT_pendingErrors (s : State) (k : Nat) (x : TLine) : (putT k x s).pendingErrors = s.pendingErrors := rfl
@[simp] theorem putT_events (s : State) (k : Nat) (x : TLine) : (putT k x s).events = s.events := rfl
@[simp] theorem putT_freeCount (s : State) (k : Nat) (x : TLine) : (putT k x s).freeCount = s.freeCount := rfl
@[simp] theorem putT_hazards (s : State) (k : Nat) (x : TLine) : (putT k x s).hazards = s.hazards := rfl

/-! `modifyParityD` -/

@[simp] theorem modifyParityD_gpr (s : State) (va : Dword) (k : Nat) : (modifyParityD va k s).gpr = s.gpr := by unfold modifyParityD; split <;> rfl
@[simp] theorem modifyParityD_hi (s : State) (va : Dword) (k : Nat) : (modifyParityD va k s).hi = s.hi := by unfold modifyParityD; split <;> rfl
@[simp] theorem modifyParityD_lo (s : State) (va : Dword) (k : Nat) : (modifyParityD va k s).lo = s.lo := by unfold modifyParityD; split <;> rfl
@[simp] theorem modifyParityD_pc (s : State) (va : Dword) (k : Nat) : (modifyParityD va k s).pc = s.pc := by unfold modifyParityD; split <;> rfl
@[simp] theorem modifyParityD_inDelaySlot (s : State) (va : Dword) (k : Nat) : (modifyParityD va k s).inDelaySlot = s.inDelaySlot := by unfold modifyParityD; split <;> rfl
@[simp] theorem modifyParityD_branchTarget (s : State) (va : Dword) (k : Nat) : (modifyParityD va k s).branchTarget = s.branchTarget := by unfold modifyParityD; split <;> rfl
@[simp] theorem modifyParityD_cp0 (s : State) (va : Dword) (k : Nat) : (modifyParityD va k s).cp0 = s.cp0 := by unfold modifyParityD; split <;> rfl
@[simp] theorem modifyParityD_fpu (s : State) (va : Dword) (k : Nat) : (modifyParityD va k s).fpu = s.fpu := by unfold modifyParityD; split <;> rfl
@[simp] theorem modifyParityD_tlb (s : State) (va : Dword) (k : Nat) : (modifyParityD va k s).tlb = s.tlb := by unfold modifyParityD; split <;> rfl
@[simp] theorem modifyParityD_llBit (s : State) (va : Dword) (k : Nat) : (modifyParityD va k s).llBit = s.llBit := by unfold modifyParityD; split <;> rfl
@[simp] theorem modifyParityD_intReg (s : State) (va : Dword) (k : Nat) : (modifyParityD va k s).intReg = s.intReg := by unfold modifyParityD; split <;> rfl
@[simp] theorem modifyParityD_intPin (s : State) (va : Dword) (k : Nat) : (modifyParityD va k s).intPin = s.intPin := by unfold modifyParityD; split <;> rfl
@[simp] theorem modifyParityD_nmiPin (s : State) (va : Dword) (k : Nat) : (modifyParityD va k s).nmiPin = s.nmiPin := by unfold modifyParityD; split <;> rfl
@[simp] theorem modifyParityD_nmiLevel (s : State) (va : Dword) (k : Nat) : (modifyParityD va k s).nmiLevel = s.nmiLevel := by unfold modifyParityD; split <;> rfl
@[simp] theorem modifyParityD_timerPending (s : State) (va : Dword) (k : Nat) : (modifyParityD va k s).timerPending = s.timerPending := by unfold modifyParityD; split <;> rfl
@[simp] theorem modifyParityD_standby (s : State) (va : Dword) (k : Nat) : (modifyParityD va k s).standby = s.standby := by unfold modifyParityD; split <;> rfl
@[simp] theorem modifyParityD_busIdle (s : State) (va : Dword) (k : Nat) : (modifyParityD va k s).busIdle = s.busIdle := by unfold modifyParityD; split <;> rfl
@[simp] theorem modifyParityD_mem (s : State) (va : Dword) (k : Nat) : (modifyParityD va k s).mem = s.mem := by unfold modifyParityD; split <;> rfl
@[simp] theorem modifyParityD_stale (s : State) (va : Dword) (k : Nat) : (modifyParityD va k s).stale = s.stale := by unfold modifyParityD; split <;> rfl
@[simp] theorem modifyParityD_params (s : State) (va : Dword) (k : Nat) : (modifyParityD va k s).params = s.params := by unfold modifyParityD; split <;> rfl
@[simp] theorem modifyParityD_pendingErrors (s : State) (va : Dword) (k : Nat) : (modifyParityD va k s).pendingErrors = s.pendingErrors := by unfold modifyParityD; split <;> rfl
@[simp] theorem modifyParityD_events (s : State) (va : Dword) (k : Nat) : (modifyParityD va k s).events = s.events := by unfold modifyParityD; split <;> rfl
@[simp] theorem modifyParityD_freeCount (s : State) (va : Dword) (k : Nat) : (modifyParityD va k s).freeCount = s.freeCount := by unfold modifyParityD; split <;> rfl
@[simp] theorem modifyParityD_hazards (s : State) (va : Dword) (k : Nat) : (modifyParityD va k s).hazards = s.hazards := by unfold modifyParityD; split <;> rfl

/-! `modifyParityI` -/

@[simp] theorem modifyParityI_gpr (s : State) (va : Dword) (k : Nat) : (modifyParityI va k s).gpr = s.gpr := by unfold modifyParityI; split <;> rfl
@[simp] theorem modifyParityI_hi (s : State) (va : Dword) (k : Nat) : (modifyParityI va k s).hi = s.hi := by unfold modifyParityI; split <;> rfl
@[simp] theorem modifyParityI_lo (s : State) (va : Dword) (k : Nat) : (modifyParityI va k s).lo = s.lo := by unfold modifyParityI; split <;> rfl
@[simp] theorem modifyParityI_pc (s : State) (va : Dword) (k : Nat) : (modifyParityI va k s).pc = s.pc := by unfold modifyParityI; split <;> rfl
@[simp] theorem modifyParityI_inDelaySlot (s : State) (va : Dword) (k : Nat) : (modifyParityI va k s).inDelaySlot = s.inDelaySlot := by unfold modifyParityI; split <;> rfl
@[simp] theorem modifyParityI_branchTarget (s : State) (va : Dword) (k : Nat) : (modifyParityI va k s).branchTarget = s.branchTarget := by unfold modifyParityI; split <;> rfl
@[simp] theorem modifyParityI_cp0 (s : State) (va : Dword) (k : Nat) : (modifyParityI va k s).cp0 = s.cp0 := by unfold modifyParityI; split <;> rfl
@[simp] theorem modifyParityI_fpu (s : State) (va : Dword) (k : Nat) : (modifyParityI va k s).fpu = s.fpu := by unfold modifyParityI; split <;> rfl
@[simp] theorem modifyParityI_tlb (s : State) (va : Dword) (k : Nat) : (modifyParityI va k s).tlb = s.tlb := by unfold modifyParityI; split <;> rfl
@[simp] theorem modifyParityI_llBit (s : State) (va : Dword) (k : Nat) : (modifyParityI va k s).llBit = s.llBit := by unfold modifyParityI; split <;> rfl
@[simp] theorem modifyParityI_intReg (s : State) (va : Dword) (k : Nat) : (modifyParityI va k s).intReg = s.intReg := by unfold modifyParityI; split <;> rfl
@[simp] theorem modifyParityI_intPin (s : State) (va : Dword) (k : Nat) : (modifyParityI va k s).intPin = s.intPin := by unfold modifyParityI; split <;> rfl
@[simp] theorem modifyParityI_nmiPin (s : State) (va : Dword) (k : Nat) : (modifyParityI va k s).nmiPin = s.nmiPin := by unfold modifyParityI; split <;> rfl
@[simp] theorem modifyParityI_nmiLevel (s : State) (va : Dword) (k : Nat) : (modifyParityI va k s).nmiLevel = s.nmiLevel := by unfold modifyParityI; split <;> rfl
@[simp] theorem modifyParityI_timerPending (s : State) (va : Dword) (k : Nat) : (modifyParityI va k s).timerPending = s.timerPending := by unfold modifyParityI; split <;> rfl
@[simp] theorem modifyParityI_standby (s : State) (va : Dword) (k : Nat) : (modifyParityI va k s).standby = s.standby := by unfold modifyParityI; split <;> rfl
@[simp] theorem modifyParityI_busIdle (s : State) (va : Dword) (k : Nat) : (modifyParityI va k s).busIdle = s.busIdle := by unfold modifyParityI; split <;> rfl
@[simp] theorem modifyParityI_mem (s : State) (va : Dword) (k : Nat) : (modifyParityI va k s).mem = s.mem := by unfold modifyParityI; split <;> rfl
@[simp] theorem modifyParityI_stale (s : State) (va : Dword) (k : Nat) : (modifyParityI va k s).stale = s.stale := by unfold modifyParityI; split <;> rfl
@[simp] theorem modifyParityI_params (s : State) (va : Dword) (k : Nat) : (modifyParityI va k s).params = s.params := by unfold modifyParityI; split <;> rfl
@[simp] theorem modifyParityI_pendingErrors (s : State) (va : Dword) (k : Nat) : (modifyParityI va k s).pendingErrors = s.pendingErrors := by unfold modifyParityI; split <;> rfl
@[simp] theorem modifyParityI_events (s : State) (va : Dword) (k : Nat) : (modifyParityI va k s).events = s.events := by unfold modifyParityI; split <;> rfl
@[simp] theorem modifyParityI_freeCount (s : State) (va : Dword) (k : Nat) : (modifyParityI va k s).freeCount = s.freeCount := by unfold modifyParityI; split <;> rfl
@[simp] theorem modifyParityI_hazards (s : State) (va : Dword) (k : Nat) : (modifyParityI va k s).hazards = s.hazards := by unfold modifyParityI; split <;> rfl

/-! `modifyParityS` -/

@[simp] theorem modifyParityS_gpr (s : State) (va : Dword) (k : Nat) : (modifyParityS va k s).gpr = s.gpr := by unfold modifyParityS; split <;> rfl
@[simp] theorem modifyParityS_hi (s : State) (va : Dword) (k : Nat) : (modifyParityS va k s).hi = s.hi := by unfold modifyParityS; split <;> rfl
@[simp] theorem modifyParityS_lo (s : State) (va : Dword) (k : Nat) : (modifyParityS va k s).lo = s.lo := by unfold modifyParityS; split <;> rfl
@[simp] theorem modifyParityS_pc (s : State) (va : Dword) (k : Nat) : (modifyParityS va k s).pc = s.pc := by unfold modifyParityS; split <;> rfl
@[simp] theorem modifyParityS_inDelaySlot (s : State) (va : Dword) (k : Nat) : (modifyParityS va k s).inDelaySlot = s.inDelaySlot := by unfold modifyParityS; split <;> rfl
@[simp] theorem modifyParityS_branchTarget (s : State) (va : Dword) (k : Nat) : (modifyParityS va k s).branchTarget = s.branchTarget := by unfold modifyParityS; split <;> rfl
@[simp] theorem modifyParityS_cp0 (s : State) (va : Dword) (k : Nat) : (modifyParityS va k s).cp0 = s.cp0 := by unfold modifyParityS; split <;> rfl
@[simp] theorem modifyParityS_fpu (s : State) (va : Dword) (k : Nat) : (modifyParityS va k s).fpu = s.fpu := by unfold modifyParityS; split <;> rfl
@[simp] theorem modifyParityS_tlb (s : State) (va : Dword) (k : Nat) : (modifyParityS va k s).tlb = s.tlb := by unfold modifyParityS; split <;> rfl
@[simp] theorem modifyParityS_llBit (s : State) (va : Dword) (k : Nat) : (modifyParityS va k s).llBit = s.llBit := by unfold modifyParityS; split <;> rfl
@[simp] theorem modifyParityS_intReg (s : State) (va : Dword) (k : Nat) : (modifyParityS va k s).intReg = s.intReg := by unfold modifyParityS; split <;> rfl
@[simp] theorem modifyParityS_intPin (s : State) (va : Dword) (k : Nat) : (modifyParityS va k s).intPin = s.intPin := by unfold modifyParityS; split <;> rfl
@[simp] theorem modifyParityS_nmiPin (s : State) (va : Dword) (k : Nat) : (modifyParityS va k s).nmiPin = s.nmiPin := by unfold modifyParityS; split <;> rfl
@[simp] theorem modifyParityS_nmiLevel (s : State) (va : Dword) (k : Nat) : (modifyParityS va k s).nmiLevel = s.nmiLevel := by unfold modifyParityS; split <;> rfl
@[simp] theorem modifyParityS_timerPending (s : State) (va : Dword) (k : Nat) : (modifyParityS va k s).timerPending = s.timerPending := by unfold modifyParityS; split <;> rfl
@[simp] theorem modifyParityS_standby (s : State) (va : Dword) (k : Nat) : (modifyParityS va k s).standby = s.standby := by unfold modifyParityS; split <;> rfl
@[simp] theorem modifyParityS_busIdle (s : State) (va : Dword) (k : Nat) : (modifyParityS va k s).busIdle = s.busIdle := by unfold modifyParityS; split <;> rfl
@[simp] theorem modifyParityS_mem (s : State) (va : Dword) (k : Nat) : (modifyParityS va k s).mem = s.mem := by unfold modifyParityS; split <;> rfl
@[simp] theorem modifyParityS_stale (s : State) (va : Dword) (k : Nat) : (modifyParityS va k s).stale = s.stale := by unfold modifyParityS; split <;> rfl
@[simp] theorem modifyParityS_params (s : State) (va : Dword) (k : Nat) : (modifyParityS va k s).params = s.params := by unfold modifyParityS; split <;> rfl
@[simp] theorem modifyParityS_pendingErrors (s : State) (va : Dword) (k : Nat) : (modifyParityS va k s).pendingErrors = s.pendingErrors := by unfold modifyParityS; split <;> rfl
@[simp] theorem modifyParityS_events (s : State) (va : Dword) (k : Nat) : (modifyParityS va k s).events = s.events := by unfold modifyParityS; split <;> rfl
@[simp] theorem modifyParityS_freeCount (s : State) (va : Dword) (k : Nat) : (modifyParityS va k s).freeCount = s.freeCount := by unfold modifyParityS; split <;> rfl
@[simp] theorem modifyParityS_hazards (s : State) (va : Dword) (k : Nat) : (modifyParityS va k s).hazards = s.hazards := by unfold modifyParityS; split <;> rfl

/-! `loadParityBits` -/

@[simp] theorem loadParityBits_gpr (s : State) (b : ParityBits) : (loadParityBits b s).gpr = s.gpr := rfl
@[simp] theorem loadParityBits_hi (s : State) (b : ParityBits) : (loadParityBits b s).hi = s.hi := rfl
@[simp] theorem loadParityBits_lo (s : State) (b : ParityBits) : (loadParityBits b s).lo = s.lo := rfl
@[simp] theorem loadParityBits_pc (s : State) (b : ParityBits) : (loadParityBits b s).pc = s.pc := rfl
@[simp] theorem loadParityBits_inDelaySlot (s : State) (b : ParityBits) : (loadParityBits b s).inDelaySlot = s.inDelaySlot := rfl
@[simp] theorem loadParityBits_branchTarget (s : State) (b : ParityBits) : (loadParityBits b s).branchTarget = s.branchTarget := rfl
@[simp] theorem loadParityBits_fpu (s : State) (b : ParityBits) : (loadParityBits b s).fpu = s.fpu := rfl
@[simp] theorem loadParityBits_tlb (s : State) (b : ParityBits) : (loadParityBits b s).tlb = s.tlb := rfl
@[simp] theorem loadParityBits_llBit (s : State) (b : ParityBits) : (loadParityBits b s).llBit = s.llBit := rfl
@[simp] theorem loadParityBits_intReg (s : State) (b : ParityBits) : (loadParityBits b s).intReg = s.intReg := rfl
@[simp] theorem loadParityBits_intPin (s : State) (b : ParityBits) : (loadParityBits b s).intPin = s.intPin := rfl
@[simp] theorem loadParityBits_nmiPin (s : State) (b : ParityBits) : (loadParityBits b s).nmiPin = s.nmiPin := rfl
@[simp] theorem loadParityBits_nmiLevel (s : State) (b : ParityBits) : (loadParityBits b s).nmiLevel = s.nmiLevel := rfl
@[simp] theorem loadParityBits_timerPending (s : State) (b : ParityBits) : (loadParityBits b s).timerPending = s.timerPending := rfl
@[simp] theorem loadParityBits_standby (s : State) (b : ParityBits) : (loadParityBits b s).standby = s.standby := rfl
@[simp] theorem loadParityBits_busIdle (s : State) (b : ParityBits) : (loadParityBits b s).busIdle = s.busIdle := rfl
@[simp] theorem loadParityBits_caches (s : State) (b : ParityBits) : (loadParityBits b s).caches = s.caches := rfl
@[simp] theorem loadParityBits_mem (s : State) (b : ParityBits) : (loadParityBits b s).mem = s.mem := rfl
@[simp] theorem loadParityBits_stale (s : State) (b : ParityBits) : (loadParityBits b s).stale = s.stale := rfl
@[simp] theorem loadParityBits_params (s : State) (b : ParityBits) : (loadParityBits b s).params = s.params := rfl
@[simp] theorem loadParityBits_pendingErrors (s : State) (b : ParityBits) : (loadParityBits b s).pendingErrors = s.pendingErrors := rfl
@[simp] theorem loadParityBits_events (s : State) (b : ParityBits) : (loadParityBits b s).events = s.events := rfl
@[simp] theorem loadParityBits_freeCount (s : State) (b : ParityBits) : (loadParityBits b s).freeCount = s.freeCount := rfl
@[simp] theorem loadParityBits_hazards (s : State) (b : ParityBits) : (loadParityBits b s).hazards = s.hazards := rfl

/-! `recordError` -/

@[simp] theorem recordError_hi (s : State) (e : ImpreciseError) : (recordError e s).hi = s.hi := by unfold recordError loseDest; dsimp only; split <;> simp
@[simp] theorem recordError_lo (s : State) (e : ImpreciseError) : (recordError e s).lo = s.lo := by unfold recordError loseDest; dsimp only; split <;> simp
@[simp] theorem recordError_pc (s : State) (e : ImpreciseError) : (recordError e s).pc = s.pc := by unfold recordError loseDest; dsimp only; split <;> simp
@[simp] theorem recordError_inDelaySlot (s : State) (e : ImpreciseError) : (recordError e s).inDelaySlot = s.inDelaySlot := by unfold recordError loseDest; dsimp only; split <;> simp
@[simp] theorem recordError_branchTarget (s : State) (e : ImpreciseError) : (recordError e s).branchTarget = s.branchTarget := by unfold recordError loseDest; dsimp only; split <;> simp
@[simp] theorem recordError_tlb (s : State) (e : ImpreciseError) : (recordError e s).tlb = s.tlb := by unfold recordError loseDest; dsimp only; split <;> simp
@[simp] theorem recordError_llBit (s : State) (e : ImpreciseError) : (recordError e s).llBit = s.llBit := by unfold recordError loseDest; dsimp only; split <;> simp
@[simp] theorem recordError_intReg (s : State) (e : ImpreciseError) : (recordError e s).intReg = s.intReg := by unfold recordError loseDest; dsimp only; split <;> simp
@[simp] theorem recordError_intPin (s : State) (e : ImpreciseError) : (recordError e s).intPin = s.intPin := by unfold recordError loseDest; dsimp only; split <;> simp
@[simp] theorem recordError_nmiPin (s : State) (e : ImpreciseError) : (recordError e s).nmiPin = s.nmiPin := by unfold recordError loseDest; dsimp only; split <;> simp
@[simp] theorem recordError_nmiLevel (s : State) (e : ImpreciseError) : (recordError e s).nmiLevel = s.nmiLevel := by unfold recordError loseDest; dsimp only; split <;> simp
@[simp] theorem recordError_timerPending (s : State) (e : ImpreciseError) : (recordError e s).timerPending = s.timerPending := by unfold recordError loseDest; dsimp only; split <;> simp
@[simp] theorem recordError_standby (s : State) (e : ImpreciseError) : (recordError e s).standby = s.standby := by unfold recordError loseDest; dsimp only; split <;> simp
@[simp] theorem recordError_busIdle (s : State) (e : ImpreciseError) : (recordError e s).busIdle = s.busIdle := by unfold recordError loseDest; dsimp only; split <;> simp
@[simp] theorem recordError_caches (s : State) (e : ImpreciseError) : (recordError e s).caches = s.caches := by unfold recordError loseDest; dsimp only; split <;> simp
@[simp] theorem recordError_mem (s : State) (e : ImpreciseError) : (recordError e s).mem = s.mem := by unfold recordError loseDest; dsimp only; split <;> simp
@[simp] theorem recordError_stale (s : State) (e : ImpreciseError) : (recordError e s).stale = s.stale := by unfold recordError loseDest; dsimp only; split <;> simp
@[simp] theorem recordError_params (s : State) (e : ImpreciseError) : (recordError e s).params = s.params := by unfold recordError loseDest; dsimp only; split <;> simp
@[simp] theorem recordError_pendingErrors (s : State) (e : ImpreciseError) : (recordError e s).pendingErrors = s.pendingErrors := by unfold recordError loseDest; dsimp only; split <;> simp
@[simp] theorem recordError_events (s : State) (e : ImpreciseError) : (recordError e s).events = s.events := by unfold recordError loseDest; dsimp only; split <;> simp
@[simp] theorem recordError_hazards (s : State) (e : ImpreciseError) : (recordError e s).hazards = s.hazards := by unfold recordError loseDest; dsimp only; split <;> simp

/-! `stepCount` -/

@[simp] theorem stepCount_gpr (s : State) : (stepCount s).gpr = s.gpr := rfl
@[simp] theorem stepCount_hi (s : State) : (stepCount s).hi = s.hi := rfl
@[simp] theorem stepCount_lo (s : State) : (stepCount s).lo = s.lo := rfl
@[simp] theorem stepCount_pc (s : State) : (stepCount s).pc = s.pc := rfl
@[simp] theorem stepCount_inDelaySlot (s : State) : (stepCount s).inDelaySlot = s.inDelaySlot := rfl
@[simp] theorem stepCount_branchTarget (s : State) : (stepCount s).branchTarget = s.branchTarget := rfl
@[simp] theorem stepCount_fpu (s : State) : (stepCount s).fpu = s.fpu := rfl
@[simp] theorem stepCount_tlb (s : State) : (stepCount s).tlb = s.tlb := rfl
@[simp] theorem stepCount_llBit (s : State) : (stepCount s).llBit = s.llBit := rfl
@[simp] theorem stepCount_intReg (s : State) : (stepCount s).intReg = s.intReg := rfl
@[simp] theorem stepCount_intPin (s : State) : (stepCount s).intPin = s.intPin := rfl
@[simp] theorem stepCount_nmiPin (s : State) : (stepCount s).nmiPin = s.nmiPin := rfl
@[simp] theorem stepCount_nmiLevel (s : State) : (stepCount s).nmiLevel = s.nmiLevel := rfl
@[simp] theorem stepCount_standby (s : State) : (stepCount s).standby = s.standby := rfl
@[simp] theorem stepCount_busIdle (s : State) : (stepCount s).busIdle = s.busIdle := rfl
@[simp] theorem stepCount_caches (s : State) : (stepCount s).caches = s.caches := rfl
@[simp] theorem stepCount_mem (s : State) : (stepCount s).mem = s.mem := rfl
@[simp] theorem stepCount_stale (s : State) : (stepCount s).stale = s.stale := rfl
@[simp] theorem stepCount_params (s : State) : (stepCount s).params = s.params := rfl
@[simp] theorem stepCount_pendingErrors (s : State) : (stepCount s).pendingErrors = s.pendingErrors := rfl
@[simp] theorem stepCount_events (s : State) : (stepCount s).events = s.events := rfl
@[simp] theorem stepCount_freeCount (s : State) : (stepCount s).freeCount = s.freeCount := rfl
@[simp] theorem stepCount_hazards (s : State) : (stepCount s).hazards = s.hazards := rfl

/-! `stepRandom` -/

@[simp] theorem stepRandom_gpr (s : State) : (stepRandom s).gpr = s.gpr := rfl
@[simp] theorem stepRandom_hi (s : State) : (stepRandom s).hi = s.hi := rfl
@[simp] theorem stepRandom_lo (s : State) : (stepRandom s).lo = s.lo := rfl
@[simp] theorem stepRandom_pc (s : State) : (stepRandom s).pc = s.pc := rfl
@[simp] theorem stepRandom_inDelaySlot (s : State) : (stepRandom s).inDelaySlot = s.inDelaySlot := rfl
@[simp] theorem stepRandom_branchTarget (s : State) : (stepRandom s).branchTarget = s.branchTarget := rfl
@[simp] theorem stepRandom_fpu (s : State) : (stepRandom s).fpu = s.fpu := rfl
@[simp] theorem stepRandom_tlb (s : State) : (stepRandom s).tlb = s.tlb := rfl
@[simp] theorem stepRandom_llBit (s : State) : (stepRandom s).llBit = s.llBit := rfl
@[simp] theorem stepRandom_intReg (s : State) : (stepRandom s).intReg = s.intReg := rfl
@[simp] theorem stepRandom_intPin (s : State) : (stepRandom s).intPin = s.intPin := rfl
@[simp] theorem stepRandom_nmiPin (s : State) : (stepRandom s).nmiPin = s.nmiPin := rfl
@[simp] theorem stepRandom_nmiLevel (s : State) : (stepRandom s).nmiLevel = s.nmiLevel := rfl
@[simp] theorem stepRandom_timerPending (s : State) : (stepRandom s).timerPending = s.timerPending := rfl
@[simp] theorem stepRandom_standby (s : State) : (stepRandom s).standby = s.standby := rfl
@[simp] theorem stepRandom_busIdle (s : State) : (stepRandom s).busIdle = s.busIdle := rfl
@[simp] theorem stepRandom_caches (s : State) : (stepRandom s).caches = s.caches := rfl
@[simp] theorem stepRandom_mem (s : State) : (stepRandom s).mem = s.mem := rfl
@[simp] theorem stepRandom_stale (s : State) : (stepRandom s).stale = s.stale := rfl
@[simp] theorem stepRandom_params (s : State) : (stepRandom s).params = s.params := rfl
@[simp] theorem stepRandom_pendingErrors (s : State) : (stepRandom s).pendingErrors = s.pendingErrors := rfl
@[simp] theorem stepRandom_events (s : State) : (stepRandom s).events = s.events := rfl
@[simp] theorem stepRandom_freeCount (s : State) : (stepRandom s).freeCount = s.freeCount := rfl
@[simp] theorem stepRandom_hazards (s : State) : (stepRandom s).hazards = s.hazards := rfl

/-! `stepPerf` -/

@[simp] theorem stepPerf_gpr (s : State) (b : State) (x : Bool) : (stepPerf b x s).gpr = s.gpr := by unfold stepPerf; repeat (first | rfl | split)
@[simp] theorem stepPerf_hi (s : State) (b : State) (x : Bool) : (stepPerf b x s).hi = s.hi := by unfold stepPerf; repeat (first | rfl | split)
@[simp] theorem stepPerf_lo (s : State) (b : State) (x : Bool) : (stepPerf b x s).lo = s.lo := by unfold stepPerf; repeat (first | rfl | split)
@[simp] theorem stepPerf_pc (s : State) (b : State) (x : Bool) : (stepPerf b x s).pc = s.pc := by unfold stepPerf; repeat (first | rfl | split)
@[simp] theorem stepPerf_inDelaySlot (s : State) (b : State) (x : Bool) : (stepPerf b x s).inDelaySlot = s.inDelaySlot := by unfold stepPerf; repeat (first | rfl | split)
@[simp] theorem stepPerf_branchTarget (s : State) (b : State) (x : Bool) : (stepPerf b x s).branchTarget = s.branchTarget := by unfold stepPerf; repeat (first | rfl | split)
@[simp] theorem stepPerf_fpu (s : State) (b : State) (x : Bool) : (stepPerf b x s).fpu = s.fpu := by unfold stepPerf; repeat (first | rfl | split)
@[simp] theorem stepPerf_tlb (s : State) (b : State) (x : Bool) : (stepPerf b x s).tlb = s.tlb := by unfold stepPerf; repeat (first | rfl | split)
@[simp] theorem stepPerf_llBit (s : State) (b : State) (x : Bool) : (stepPerf b x s).llBit = s.llBit := by unfold stepPerf; repeat (first | rfl | split)
@[simp] theorem stepPerf_intReg (s : State) (b : State) (x : Bool) : (stepPerf b x s).intReg = s.intReg := by unfold stepPerf; repeat (first | rfl | split)
@[simp] theorem stepPerf_intPin (s : State) (b : State) (x : Bool) : (stepPerf b x s).intPin = s.intPin := by unfold stepPerf; repeat (first | rfl | split)
@[simp] theorem stepPerf_nmiPin (s : State) (b : State) (x : Bool) : (stepPerf b x s).nmiPin = s.nmiPin := by unfold stepPerf; repeat (first | rfl | split)
@[simp] theorem stepPerf_nmiLevel (s : State) (b : State) (x : Bool) : (stepPerf b x s).nmiLevel = s.nmiLevel := by unfold stepPerf; repeat (first | rfl | split)
@[simp] theorem stepPerf_timerPending (s : State) (b : State) (x : Bool) : (stepPerf b x s).timerPending = s.timerPending := by unfold stepPerf; repeat (first | rfl | split)
@[simp] theorem stepPerf_standby (s : State) (b : State) (x : Bool) : (stepPerf b x s).standby = s.standby := by unfold stepPerf; repeat (first | rfl | split)
@[simp] theorem stepPerf_busIdle (s : State) (b : State) (x : Bool) : (stepPerf b x s).busIdle = s.busIdle := by unfold stepPerf; repeat (first | rfl | split)
@[simp] theorem stepPerf_caches (s : State) (b : State) (x : Bool) : (stepPerf b x s).caches = s.caches := by unfold stepPerf; repeat (first | rfl | split)
@[simp] theorem stepPerf_mem (s : State) (b : State) (x : Bool) : (stepPerf b x s).mem = s.mem := by unfold stepPerf; repeat (first | rfl | split)
@[simp] theorem stepPerf_stale (s : State) (b : State) (x : Bool) : (stepPerf b x s).stale = s.stale := by unfold stepPerf; repeat (first | rfl | split)
@[simp] theorem stepPerf_params (s : State) (b : State) (x : Bool) : (stepPerf b x s).params = s.params := by unfold stepPerf; repeat (first | rfl | split)
@[simp] theorem stepPerf_pendingErrors (s : State) (b : State) (x : Bool) : (stepPerf b x s).pendingErrors = s.pendingErrors := by unfold stepPerf; repeat (first | rfl | split)
@[simp] theorem stepPerf_events (s : State) (b : State) (x : Bool) : (stepPerf b x s).events = s.events := by unfold stepPerf; repeat (first | rfl | split)
@[simp] theorem stepPerf_hazards (s : State) (b : State) (x : Bool) : (stepPerf b x s).hazards = s.hazards := by unfold stepPerf; repeat (first | rfl | split)

/-! `tick` -/

@[simp] theorem tick_gpr (s : State) (b : State) (x y : Bool) : (tick b x y s).gpr = s.gpr := by unfold tick; split <;> simp
@[simp] theorem tick_hi (s : State) (b : State) (x y : Bool) : (tick b x y s).hi = s.hi := by unfold tick; split <;> simp
@[simp] theorem tick_lo (s : State) (b : State) (x y : Bool) : (tick b x y s).lo = s.lo := by unfold tick; split <;> simp
@[simp] theorem tick_pc (s : State) (b : State) (x y : Bool) : (tick b x y s).pc = s.pc := by unfold tick; split <;> simp
@[simp] theorem tick_inDelaySlot (s : State) (b : State) (x y : Bool) : (tick b x y s).inDelaySlot = s.inDelaySlot := by unfold tick; split <;> simp
@[simp] theorem tick_branchTarget (s : State) (b : State) (x y : Bool) : (tick b x y s).branchTarget = s.branchTarget := by unfold tick; split <;> simp
@[simp] theorem tick_fpu (s : State) (b : State) (x y : Bool) : (tick b x y s).fpu = s.fpu := by unfold tick; split <;> simp
@[simp] theorem tick_tlb (s : State) (b : State) (x y : Bool) : (tick b x y s).tlb = s.tlb := by unfold tick; split <;> simp
@[simp] theorem tick_llBit (s : State) (b : State) (x y : Bool) : (tick b x y s).llBit = s.llBit := by unfold tick; split <;> simp
@[simp] theorem tick_intReg (s : State) (b : State) (x y : Bool) : (tick b x y s).intReg = s.intReg := by unfold tick; split <;> simp
@[simp] theorem tick_intPin (s : State) (b : State) (x y : Bool) : (tick b x y s).intPin = s.intPin := by unfold tick; split <;> simp
@[simp] theorem tick_nmiPin (s : State) (b : State) (x y : Bool) : (tick b x y s).nmiPin = s.nmiPin := by unfold tick; split <;> simp
@[simp] theorem tick_nmiLevel (s : State) (b : State) (x y : Bool) : (tick b x y s).nmiLevel = s.nmiLevel := by unfold tick; split <;> simp
@[simp] theorem tick_standby (s : State) (b : State) (x y : Bool) : (tick b x y s).standby = s.standby := by unfold tick; split <;> simp
@[simp] theorem tick_busIdle (s : State) (b : State) (x y : Bool) : (tick b x y s).busIdle = s.busIdle := by unfold tick; split <;> simp
@[simp] theorem tick_caches (s : State) (b : State) (x y : Bool) : (tick b x y s).caches = s.caches := by unfold tick; split <;> simp
@[simp] theorem tick_mem (s : State) (b : State) (x y : Bool) : (tick b x y s).mem = s.mem := by unfold tick; split <;> simp
@[simp] theorem tick_stale (s : State) (b : State) (x y : Bool) : (tick b x y s).stale = s.stale := by unfold tick; split <;> simp
@[simp] theorem tick_params (s : State) (b : State) (x y : Bool) : (tick b x y s).params = s.params := by unfold tick; split <;> simp
@[simp] theorem tick_pendingErrors (s : State) (b : State) (x y : Bool) : (tick b x y s).pendingErrors = s.pendingErrors := by unfold tick; split <;> simp
@[simp] theorem tick_events (s : State) (b : State) (x y : Bool) : (tick b x y s).events = s.events := by unfold tick; split <;> simp
@[simp] theorem tick_hazards (s : State) (b : State) (x y : Bool) : (tick b x y s).hazards = s.hazards := by unfold tick; split <;> simp

/-! What the plain updates write -/

@[simp] theorem drew_freeCount (s : State) (n : Nat) : (s.drew n).freeCount = s.freeCount + n := rfl
@[simp] theorem writeHiLo_hi (s : State) (h l : Dword) : (writeHiLo h l s).hi = h := rfl
@[simp] theorem writeHiLo_lo (s : State) (h l : Dword) : (writeHiLo h l s).lo = l := rfl
@[simp] theorem enterSlot_pc (s : State) (t : Dword) : (enterSlot t s).pc = s.pc + 4 := rfl
@[simp] theorem enterSlot_inDelaySlot (s : State) (t : Dword) : (enterSlot t s).inDelaySlot = true := rfl
@[simp] theorem enterSlot_branchTarget (s : State) (t : Dword) : (enterSlot t s).branchTarget = t := rfl
@[simp] theorem nullifySlot_pc (s : State) : (nullifySlot s).pc = s.pc + 8 := rfl
@[simp] theorem advance_pc (s : State) :
    (advance s).pc = if s.inDelaySlot then s.branchTarget else s.pc + 4 := by unfold advance; split <;> rfl
@[simp] theorem advance_inDelaySlot (s : State) : (advance s).inDelaySlot = false := by
  unfold advance; split <;> simp_all
@[simp] theorem setLink_llBit (s : State) (pa : PAddr) : (setLink pa s).llBit = true := rfl

/-! The general registers -/

@[simp] theorem readGpr_zero (s : State) : readGpr s 0 = 0 := if_pos rfl

theorem readGpr_congr {s t : State} (h : t.gpr = s.gpr) (r : RegNum) : readGpr t r = readGpr s r := by
  simp only [readGpr, h]

theorem writeGpr_zero (s : State) (v : Dword) : writeGpr s 0 v = s := if_pos rfl

theorem readGpr_writeGpr_same (s : State) (d : RegNum) (v : Dword) :
    readGpr (writeGpr s d v) d = if d = 0 then 0 else v := by
  by_cases hd : d = 0
  · subst hd
    rw [writeGpr_zero, readGpr_zero, if_pos rfl]
  · simp only [readGpr, writeGpr, if_neg hd, Vector.getElem_set_self]

theorem readGpr_writeGpr_other (s : State) (d r : RegNum) (v : Dword) (h : r ≠ d) :
    readGpr (writeGpr s d v) r = readGpr s r := by
  by_cases hd : d = 0
  · rw [hd, writeGpr_zero]
  · have hn : d.toNat ≠ r.toNat := fun e => h (BitVec.eq_of_toNat_eq e.symm)
    simp only [readGpr, writeGpr, if_neg hd, Vector.getElem_set_ne _ _ hn]

end Sys2Proof.Laws
end

