-- ==== Sys2Proof/Laws/MemSide.lean ====
section
/-! SUPPORT. What the operations of the memory system can do: they change the caches, memory, the record of values not
written back and the count of free values, keep their canonical forms, and change nothing else. -/

namespace Sys2Proof.Laws

open Sys2Proof.Machine

/-! ## Lists of lines -/

/-- Setting a line keeps what lies above a number above it. -/
theorem Lines_sorted_cons {α : Type} (k : Nat) (v : α) (r : List (Nat × α)) :
    Lines.sorted ((k, v) :: r) = true ↔ (∀ x ∈ r.head?, k < x.1) ∧ Lines.sorted r = true := by
  cases r with
  | nil => simp [Lines.sorted]
  | cons c r => simp [Lines.sorted]

/-- The head of a list of lines after one is set. -/
theorem Lines_head_put {α : Type} (l : List (Nat × α)) (a k : Nat) (x : α) (h : ∀ y ∈ l.head?, k < y.1) (ha : k < a) :
    ∀ y ∈ (Lines.put l a x).head?, k < y.1 := by
  cases l with
  | nil => simpa [Lines.put] using ha
  | cons c r =>
    obtain ⟨j, v⟩ := c
    have hj : k < j := by simpa using h
    unfold Lines.put
    split
    · simpa using ha
    · split <;> simpa

/-- Setting a line keeps the numbers rising. -/
theorem Lines_sorted_put {α : Type} (l : List (Nat × α)) (a : Nat) (x : α) (h : Lines.sorted l = true) :
    Lines.sorted (Lines.put l a x) = true := by
  induction l with
  | nil => rfl
  | cons c r ih =>
    obtain ⟨k, v⟩ := c
    have hc := (Lines_sorted_cons k v r).1 h
    unfold Lines.put
    split
    · next hlt => exact (Lines_sorted_cons a x _).2 ⟨by simpa using hlt, h⟩
    · split
      · next he =>
        subst he
        exact (Lines_sorted_cons a x r).2 hc
      · exact (Lines_sorted_cons k v _).2 ⟨Lines_head_put r a k x hc.1 (by omega), ih hc.2⟩

/-! ## The relation -/

/-- `t` differs from `s` in the memory system only, whose canonical forms are kept. -/
structure MemSide (s t : State) : Prop where
  gpr : t.gpr = s.gpr
  hi : t.hi = s.hi
  lo : t.lo = s.lo
  pc : t.pc = s.pc
  inDelaySlot : t.inDelaySlot = s.inDelaySlot
  branchTarget : t.branchTarget = s.branchTarget
  cp0 : t.cp0 = s.cp0
  fpu : t.fpu = s.fpu
  tlb : t.tlb = s.tlb
  llBit : t.llBit = s.llBit
  intReg : t.intReg = s.intReg
  intPin : t.intPin = s.intPin
  nmiPin : t.nmiPin = s.nmiPin
  nmiLevel : t.nmiLevel = s.nmiLevel
  timerPending : t.timerPending = s.timerPending
  standby : t.standby = s.standby
  busIdle : t.busIdle = s.busIdle
  params : t.params = s.params
  pendingErrors : t.pendingErrors = s.pendingErrors
  events : t.events = s.events
  hazards : t.hazards = s.hazards
  memWf : Memory.wf s.mem = true → Memory.wf t.mem = true
  cachesWf : s.caches.wf = true → t.caches.wf = true

theorem MemSide_refl (s : State) : MemSide s s := by constructor <;> first | rfl | exact id

theorem MemSide_trans {s t u : State} (h : MemSide s t) (k : MemSide t u) : MemSide s u := by
  constructor <;> first
    | exact (k.memWf ∘ h.memWf)
    | exact (k.cachesWf ∘ h.cachesWf)
    | simp only [k.gpr, h.gpr, k.hi, h.hi, k.lo, h.lo, k.pc, h.pc, k.inDelaySlot, h.inDelaySlot, k.branchTarget,
        h.branchTarget, k.cp0, h.cp0, k.fpu, h.fpu, k.tlb, h.tlb, k.llBit, h.llBit, k.intReg, h.intReg, k.intPin, h.intPin,
        k.nmiPin, h.nmiPin, k.nmiLevel, h.nmiLevel, k.timerPending, h.timerPending, k.standby, h.standby, k.busIdle,
        h.busIdle, k.params, h.params, k.pendingErrors, h.pendingErrors, k.events, h.events, k.hazards, h.hazards]

/-- The state inside a stop, if it holds one, differs in the memory system only. -/
def StopSide (s : State) : Stop → Prop
  | .exc _ t => MemSide s t
  | .cacheError t => MemSide s t
  | .fault _ => True
  | .refused _ => True

/-- An operation of the memory system: whatever it answers, its state differs in the memory system only. -/
def OpSide {α : Type} (s : State) (st : α → State) (x : Except Stop α) : Prop :=
  match x with
  | .ok a => MemSide s (st a)
  | .error e => StopSide s e

theorem StopSide_trans {s t : State} (h : MemSide s t) (e : Stop) (k : StopSide t e) : StopSide s e := by
  cases e with
  | exc _ u => exact MemSide_trans h k
  | cacheError u => exact MemSide_trans h k
  | fault _ => trivial
  | refused _ => trivial

theorem OpSide_trans {α : Type} {s t : State} {st : α → State} (h : MemSide s t) (x : Except Stop α)
    (k : OpSide t st x) : OpSide s st x := by
  cases x with
  | ok a => exact MemSide_trans h k
  | error e => exact StopSide_trans h e k

/-! ## The plain operations -/

theorem MemSide_drew (s : State) (n : Nat) : MemSide s (s.drew n) := by constructor <;> first | rfl | exact id

/-- A change of memory that keeps the canonical form. -/
theorem MemSide_setMem (s : State) (m : List Host.Cell) (st : List Host.Cell)
    (h : Memory.wf s.mem = true → Memory.wf m = true) : MemSide s { s with mem := m, stale := st } := by
  constructor <;> first | rfl | exact id | exact h

/-- A change of the caches that keeps the lists of lines rising. -/
theorem MemSide_setCaches (s : State) (c : Caches) (h : s.caches.wf = true → c.wf = true) :
    MemSide s { s with caches := c } := by
  constructor <;> first | rfl | exact id | exact h

theorem MemSide_putD (s : State) (k : Nat) (x : DLine) : MemSide s (putD k x s) := by
  refine MemSide_setCaches _ _ fun h => ?_
  simp only [Caches.wf, Bool.and_eq_true] at h ⊢
  exact ⟨⟨⟨h.1.1.1, Lines_sorted_put _ _ _ h.1.1.2⟩, h.1.2⟩, h.2⟩

theorem MemSide_putI (s : State) (k : Nat) (x : ILine) : MemSide s (putI k x s) := by
  refine MemSide_setCaches _ _ fun h => ?_
  simp only [Caches.wf, Bool.and_eq_true] at h ⊢
  exact ⟨⟨⟨Lines_sorted_put _ _ _ h.1.1.1, h.1.1.2⟩, h.1.2⟩, h.2⟩

theorem MemSide_putS (s : State) (k : Nat) (x : SLine) : MemSide s (putS k x s) := by
  refine MemSide_setCaches _ _ fun h => ?_
  simp only [Caches.wf, Bool.and_eq_true] at h ⊢
  exact ⟨⟨⟨h.1.1.1, h.1.1.2⟩, Lines_sorted_put _ _ _ h.1.2⟩, h.2⟩

theorem MemSide_putT (s : State) (k : Nat) (x : TLine) : MemSide s (putT k x s) := by
  refine MemSide_setCaches _ _ fun h => ?_
  simp only [Caches.wf, Bool.and_eq_true] at h ⊢
  exact ⟨⟨⟨h.1.1.1, h.1.1.2⟩, h.1.2⟩, Lines_sorted_put _ _ _ h.2⟩

theorem mainWrite_side (a : PAddr) (n : Nat) (v : Dword) (s : State) : OpSide s id (mainWrite a n v s) := by
  unfold mainWrite
  split
  · exact MemSide_setMem s _ s.stale (Memory_wf_writeBytes _ _ _ _)
  · exact MemSide_refl s
  · exact MemSide_refl s
  · trivial

theorem mainWriteLine_side (a : PAddr) (v : BitVec 256) (s : State) : OpSide s id (mainWriteLine a v s) := by
  unfold mainWriteLine
  split
  · exact MemSide_setMem s _ s.stale (Memory_wf_writeLine _ _ _)
  · exact MemSide_refl s
  · exact MemSide_refl s
  · trivial

theorem MemSide_transparentWrite (s : State) (a n : Nat) (v : Dword) (attr : BitVec 3) :
    MemSide s (transparentWrite a n v attr s) :=
  MemSide_setMem s _ _ (Memory_wf_writeBytes _ _ _ _)

theorem MemSide_discardByte (s : State) (a : Nat) : MemSide s (discardByte a s) :=
  MemSide_trans (MemSide_drew s 1) (MemSide_setMem (s.drew 1) _ _ (Memory_wf_write _ _ _))

theorem MemSide_foldl {α : Type} (f : State → α → State) (h : ∀ s a, MemSide s (f s a)) (l : List α) (s : State) :
    MemSide s (l.foldl f s) := by
  induction l generalizing s with
  | nil => exact MemSide_refl s
  | cons a r ih => exact MemSide_trans (h s a) (ih _)

theorem MemSide_discard (s : State) (p : Nat → Bool) : MemSide s (discard p s) :=
  MemSide_foldl _ (fun s a => MemSide_discardByte s a) _ s

theorem MemSide_loseCaches (s : State) : MemSide s (loseCaches s) :=
  MemSide_setCaches s _ fun _ => rfl

theorem MemSide_loseCacheState (s : State) : MemSide s (loseCacheState s) :=
  MemSide_trans (MemSide_discard s _) (MemSide_loseCaches _)

theorem MemSide_zeroLine (s : State) (pa : PAddr) : MemSide s (zeroLine pa s) :=
  MemSide_setMem s _ _ (Memory_wf_writeLine _ _ _)

theorem MemSide_transparentCreate (s : State) (pa : PAddr) : MemSide s (transparentCreate pa s) :=
  MemSide_trans (MemSide_drew s 4) (MemSide_setMem (s.drew 4) _ _ (Memory_wf_writeLine _ _ _))

theorem MemSide_storeLine (s : State) (k : Nat) (pa : PAddr) (n : Nat) (v : Dword) (d : Bool) :
    MemSide s (storeLine k pa n v d s) := MemSide_putD s k _

theorem MemSide_lineReached (s : State) (pa : PAddr) : MemSide s (lineReached pa s) := MemSide_setMem s _ _ id

theorem MemSide_transparentHitD (s : State) (pa : PAddr) : MemSide s (transparentHitD pa s) := by
  unfold transparentHitD
  split
  · exact MemSide_refl s
  · exact MemSide_lineReached s pa

/-- The writing-back secondary Hit operations at the transparent level change `CH`, the record of values not written back
and the count of free values only. -/
theorem transparentWritebackS_eq (pa : PAddr) (s : State) : ∃ st,
    transparentWritebackS pa s = { setCh (freeHit s) (s.drew 2) with stale := st } := by
  unfold transparentWritebackS
  dsimp only
  split <;> exact ⟨_, rfl⟩

theorem transparentWritebackInvalidateS_eq (pa : PAddr) (s : State) : ∃ st,
    transparentWritebackInvalidateS pa s = { setCh (freeHit s) (s.drew 2) with stale := st } := by
  unfold transparentWritebackInvalidateS
  split <;> exact ⟨_, rfl⟩

/-! ## Lookups and reads of the map leave the state alone -/

theorem readable_side (f : Bool) (pa : PAddr) (s : State) : OpSide s (fun _ => s) (readable f pa s) := by
  unfold readable
  split
  · exact MemSide_refl s
  · exact MemSide_refl s
  · trivial
  · exact MemSide_refl s

theorem mainReadLine_side (f : Bool) (a : PAddr) (s : State) : OpSide s (fun _ => s) (mainReadLine f a s) := by
  have h := readable_side f a s
  unfold mainReadLine
  split
  · next e he => rw [he] at h; exact h
  · exact MemSide_refl s

/-- A lookup stops only with the fault of a line state software must not write. -/
theorem lookupD_error (s : State) (pa : PAddr) (e : Stop) (h : lookupD s pa = .error e) : e = .fault .reservedCacheState := by
  unfold lookupD at h
  dsimp only at h
  split at h
  · injection h with h
    exact h.symm
  · cases h

theorem lookupI_error (s : State) (pa : PAddr) (e : Stop) (h : lookupI s pa = .error e) : e = .fault .reservedCacheState := by
  unfold lookupI at h
  dsimp only at h
  split at h
  · injection h with h
    exact h.symm
  · cases h

theorem lookupT_error (s : State) (pa : PAddr) (e : Stop) (h : lookupT s pa = .error e) : e = .fault .reservedCacheState := by
  unfold lookupT at h
  dsimp only at h
  split at h
  · split at h
    · cases h
    · split at h
      · injection h with h
        exact h.symm
      · cases h
  · cases h

/-! ## Fills and writebacks -/

/-- What an operation answers, as what the one it calls first answered. -/
theorem OpSide_of_eq {α : Type} {s : State} {st : α → State} {x y : Except Stop α} (h : y = x) (k : OpSide s st y) :
    OpSide s st x := h ▸ k

theorem writeBelow_side (a : PAddr) (v : BitVec 256) (s : State) : OpSide s id (writeBelow a v s) := by
  have h0 := mainWriteLine_side a v s
  unfold writeBelow
  split
  · next e h => exact OpSide_of_eq h h0
  · next t h =>
    have h1 : MemSide s t := OpSide_of_eq h h0
    split
    · split
      · exact MemSide_trans h1 (MemSide_putT _ _ _)
      · exact h1
      · next e h => rw [lookupT_error _ _ _ h]; trivial
    · exact h1

theorem writebackD_side (a : PAddr) (x : DLine) (s : State) : OpSide s id (writebackD a x s) := by
  unfold writebackD
  split
  · exact mainWriteLine_side a _ s
  · split
    · split
      · exact MemSide_putS s _ _
      · exact writeBelow_side a _ s
    · exact writeBelow_side a _ s

/-- A block read of main memory, with the state it leaves. -/
theorem readThen_side (f : Bool) (a : PAddr) (s : State) (g : BitVec 256 → State) (hg : ∀ v, MemSide s (g v)) :
    OpSide s (·.2) (match mainReadLine f a s with
      | .error e => (.error e : Except Stop (BitVec 256 × State))
      | .ok v => .ok (v, g v)) := by
  have h0 := mainReadLine_side f a s
  split
  · next e h => rw [h] at h0; exact h0
  · next v h => exact hg v

theorem blockBelow_side (f : Bool) (a : PAddr) (s : State) : OpSide s (·.2) (blockBelow f a s) := by
  unfold blockBelow
  split
  · split
    · exact MemSide_refl s
    · exact readThen_side f a s (fun v => putT (tertiaryIndex s a) (newT a v) s) (fun v => MemSide_putT s _ _)
    · next e h => rw [lookupT_error _ _ _ h]; trivial
  · exact readThen_side f a s (fun _ => s) (fun _ => MemSide_refl s)

/-- A conditional writeback. -/
theorem maybeWrite_side (c : Bool) (x : Except Stop State) (s : State) (h : OpSide s id x) :
    OpSide s id (if c then x else .ok s) := by
  split
  · exact h
  · exact MemSide_refl s

theorem fillS_side (a : PAddr) (lock : Bool) (v : BitVec 256) (s : State) : OpSide s id (fillS a lock v s) := by
  unfold fillS
  dsimp only
  split
  · next t h =>
    have k : OpSide s id (.ok t : Except Stop State) := h ▸ maybeWrite_side _ _ s (writeBelow_side _ _ s)
    exact MemSide_trans k (MemSide_trans (MemSide_drew t 2) (MemSide_putS _ _ _))
  · next e h =>
    have k : OpSide s id (.error e : Except Stop State) := h ▸ maybeWrite_side _ _ s (writeBelow_side _ _ s)
    exact k

theorem blockSecondary_side (f m : Bool) (a : PAddr) (s : State) : OpSide s (·.2) (blockSecondary f m a s) := by
  unfold blockSecondary
  split
  · split
    · exact MemSide_refl s
    · split
      · next v t h =>
        have h1 : OpSide s (·.2) (.ok (v, t) : Except Stop (BitVec 256 × State)) := h ▸ blockBelow_side f a s
        split
        · next u h' =>
          have h2 : OpSide t id (.ok u : Except Stop State) := h' ▸ fillS_side a _ v t
          exact MemSide_trans h1 h2
        · next e h' =>
          have h2 : OpSide t id (.error e : Except Stop State) := h' ▸ fillS_side a _ v t
          exact StopSide_trans h1 e h2
      · next e h =>
        have h1 : OpSide s (·.2) (.error e : Except Stop (BitVec 256 × State)) := h ▸ blockBelow_side f a s
        exact h1
  · exact blockBelow_side f a s

theorem fillSource_side (c f m : Bool) (a : PAddr) (s : State) : OpSide s (·.2) (fillSource c f m a s) := by
  unfold fillSource
  split
  · exact blockSecondary_side f m a s
  · exact readThen_side f a s (fun _ => s) (fun _ => MemSide_refl s)

theorem evictD_side (a : PAddr) (lock : Bool) (s : State) : OpSide s (·.2) (evictD a lock s) := by
  unfold evictD
  dsimp only
  split
  · next t h =>
    have k : OpSide s id (.ok t : Except Stop State) := h ▸ maybeWrite_side _ _ s (writebackD_side _ _ s)
    exact MemSide_trans k (MemSide_drew t 2)
  · next e h =>
    have k : OpSide s id (.error e : Except Stop State) := h ▸ maybeWrite_side _ _ s (writebackD_side _ _ s)
    exact k

theorem fillD_side (a : PAddr) (attr : BitVec 3) (load : Bool) (s : State) : OpSide s (·.2) (fillD a attr load s) := by
  unfold fillD
  have h0 := fillSource_side (attr == 3) false load a s
  split
  · next e h => rw [h] at h0; exact h0
  · next v t h =>
    rw [h] at h0
    have h1 := evictD_side a (load && t.cp0.ecc.d) t
    split
    · next e h' => rw [h'] at h1; exact StopSide_trans h0 e h1
    · next slot u h' =>
      rw [h'] at h1
      exact MemSide_trans h0 (MemSide_trans h1 (MemSide_putD _ _ _))

theorem fillI_side (a : PAddr) (attr : BitVec 3) (fill : Bool) (s : State) : OpSide s (·.2) (fillI a attr fill s) := by
  unfold fillI
  have h0 := fillSource_side (attr != 7) (!fill) fill a s
  split
  · next e h => rw [h] at h0; exact h0
  · next v t h =>
    rw [h] at h0
    exact MemSide_trans h0 (MemSide_trans (MemSide_drew t 2) (MemSide_putI _ _ _))

/-! ## The accesses -/

theorem cachedRead_side (pa : PAddr) (n : Nat) (attr : BitVec 3) (s : State) : OpSide s (·.2) (cachedRead pa n attr s) := by
  have h0 := fillD_side pa attr true s
  unfold cachedRead
  split
  · exact MemSide_refl s
  · split
    · next k t h => rw [h] at h0; exact h0
    · next e h => rw [h] at h0; exact h0
  · next e h => rw [lookupD_error _ _ _ h]; trivial

theorem storeMissFill_side (pa : PAddr) (attr : BitVec 3) (s : State) : OpSide s (·.2) (storeMissFill pa attr s) := by
  have h0 := fillD_side pa attr false s
  unfold storeMissFill
  split
  · next k t h => rw [h] at h0; exact h0
  · exact MemSide_refl s
  · next e _ h => rw [h] at h0; exact h0

theorem cachedWrite_side (pa : PAddr) (n : Nat) (v : Dword) (attr : BitVec 3) (s : State) :
    OpSide s id (cachedWrite pa n v attr s) := by
  have hw := mainWrite_side pa n v s
  unfold cachedWrite
  split
  · next e h => rw [lookupD_error _ _ _ h]; trivial
  · split
    · split
      · next t h => rw [h] at hw; exact MemSide_trans hw (MemSide_storeLine _ _ _ _ _ _)
      · next e h => rw [h] at hw; exact hw
    · exact MemSide_storeLine s _ _ _ _ _
  · split
    · exact hw
    · split
      · split
        · next e h => rw [h] at hw; exact hw
        · next t h =>
          rw [h] at hw
          have hf := storeMissFill_side pa attr t
          split
          · next k u h' => rw [h'] at hf; exact MemSide_trans hw hf
          · next e h' => rw [h'] at hf; exact StopSide_trans hw e hf
      · have hf := storeMissFill_side pa attr s
        split
        · next k u h' => rw [h'] at hf; exact MemSide_trans hf (MemSide_storeLine _ _ _ _ _ _)
        · next u h' => rw [h'] at hf; exact hf
        · next e h' => rw [h'] at hf; exact hf

theorem memRead_side (pa : PAddr) (n : Nat) (attr : BitVec 3) (s : State) : OpSide s (·.2) (memRead pa n attr s) := by
  unfold memRead
  split
  · exact cachedRead_side pa n attr s
  · have h0 := readable_side false pa s
    split
    · next e h => rw [h] at h0; exact h0
    · exact MemSide_refl s

theorem memWrite_side (pa : PAddr) (n : Nat) (v : Dword) (attr : BitVec 3) (s : State) :
    OpSide s id (memWrite pa n v attr s) := by
  unfold memWrite
  split
  · exact cachedWrite_side pa n v attr s
  · split
    · exact mainWrite_side pa n v s
    · split
      · trivial
      · exact MemSide_refl s
      · exact MemSide_refl s
      · exact MemSide_transparentWrite s _ _ _ _

theorem fetchRead_side (pa : PAddr) (attr : BitVec 3) (s : State) : OpSide s (·.2) (fetchRead pa attr s) := by
  unfold fetchRead
  split
  · split
    · next e h => rw [lookupI_error _ _ _ h]; trivial
    · dsimp only
      split
      · exact MemSide_refl s
      · split
        · exact MemSide_refl s
        · trivial
    · have h0 := fillI_side pa attr false s
      split
      · next k t h => rw [h] at h0; exact h0
      · next e h => rw [h] at h0; exact h0
  · have h0 := readable_side true pa s
    split
    · next e h => rw [h] at h0; exact h0
    · exact MemSide_refl s

/-! ## Translation and the data accesses of the instructions -/

theorem translate_side (kind : AccessKind) (va : Dword) (s : State) : OpSide s (fun _ => s) (Machine.translate kind va s) := by
  have hm : OpSide s (fun _ => s) (translateMapped kind va s) := by
    unfold translateMapped
    split
    · trivial
    · split
      · exact MemSide_refl s
      · dsimp only
        split
        · exact MemSide_refl s
        · split <;> exact MemSide_refl s
      · trivial
  unfold Machine.translate
  split
  · exact MemSide_refl s
  · split
    · exact MemSide_refl s
    · trivial
  · split
    · split
      · exact MemSide_refl s
      · trivial
    · next e h =>
      have h1 : OpSide s (fun _ => s) (.error e : Except Stop (PAddr × BitVec 3)) := h ▸ hm
      exact h1

theorem translateAligned_side (kind : AccessKind) (n : Nat) (va : Dword) (s : State) :
    OpSide s (fun _ => s) (translateAligned kind n va s) := by
  unfold translateAligned
  split
  · exact translate_side kind va s
  · exact MemSide_refl s

theorem watchData_side (kind : AccessKind) (pa : PAddr) (n : Nat) (s : State) :
    OpSide s (fun _ => s) (watchData kind pa n s) := by
  unfold watchData
  dsimp only
  split
  · exact MemSide_refl s
  · exact MemSide_refl s

theorem loadAt_side (n : Nat) (pa : PAddr) (attr : BitVec 3) (s : State) : OpSide s (·.2) (loadAt n pa attr s) := by
  unfold loadAt
  split
  · next e h =>
    have h1 : OpSide s (fun _ => s) (.error e : Except Stop Unit) := h ▸ watchData_side .load pa n s
    exact h1
  · split
    · next e h =>
      have h1 : OpSide s (·.2) (.error e : Except Stop (Dword × State)) := h ▸ memRead_side pa n attr s
      exact h1
    · next v t h =>
      have h1 : OpSide s (·.2) (.ok (v, t) : Except Stop (Dword × State)) := h ▸ memRead_side pa n attr s
      exact h1

theorem storeAt_side (n : Nat) (pa : PAddr) (attr : BitVec 3) (v : Dword) (s : State) :
    OpSide s id (storeAt n pa attr v s) := by
  unfold storeAt
  split
  · next e h =>
    have h1 : OpSide s (fun _ => s) (.error e : Except Stop Unit) := h ▸ watchData_side .store pa n s
    exact h1
  · exact memWrite_side pa n _ attr s

theorem loadData_side (n : Nat) (va : Dword) (s : State) : OpSide s (·.2) (loadData n va s) := by
  unfold loadData
  split
  · next e h =>
    have h1 : OpSide s (fun _ => s) (.error e : Except Stop (PAddr × BitVec 3)) := h ▸ translateAligned_side .load n va s
    exact h1
  · exact loadAt_side _ _ _ s

theorem storeData_side (n : Nat) (va v : Dword) (s : State) : OpSide s id (storeData n va v s) := by
  unfold storeData
  split
  · next e h =>
    have h1 : OpSide s (fun _ => s) (.error e : Except Stop (PAddr × BitVec 3)) := h ▸ translateAligned_side .store n va s
    exact h1
  · exact storeAt_side _ _ _ _ s

theorem loadLeft_side (n : Nat) (va : Dword) (s : State) : OpSide s (·.2) (loadLeft n va s) := by
  unfold loadLeft
  split
  · next e h =>
    have h1 : OpSide s (fun _ => s) (.error e : Except Stop (PAddr × BitVec 3)) := h ▸ translate_side .load va s
    exact h1
  · exact loadAt_side _ _ _ s

theorem loadRight_side (n : Nat) (va : Dword) (s : State) : OpSide s (·.2) (loadRight n va s) := by
  unfold loadRight
  split
  · next e h =>
    have h1 : OpSide s (fun _ => s) (.error e : Except Stop (PAddr × BitVec 3)) := h ▸ translate_side .load va s
    exact h1
  · exact loadAt_side _ _ _ s

theorem storeLeft_side (n : Nat) (va v : Dword) (s : State) : OpSide s id (storeLeft n va v s) := by
  unfold storeLeft
  split
  · next e h =>
    have h1 : OpSide s (fun _ => s) (.error e : Except Stop (PAddr × BitVec 3)) := h ▸ translate_side .store va s
    exact h1
  · exact storeAt_side _ _ _ _ s

theorem storeRight_side (n : Nat) (va v : Dword) (s : State) : OpSide s id (storeRight n va v s) := by
  unfold storeRight
  split
  · next e h =>
    have h1 : OpSide s (fun _ => s) (.error e : Except Stop (PAddr × BitVec 3)) := h ▸ translate_side .store va s
    exact h1
  · exact storeAt_side _ _ _ _ s

theorem prepareForStore_side (pa : PAddr) (attr : BitVec 3) (s : State) : OpSide s id (prepareForStore pa attr s) := by
  unfold prepareForStore
  split
  · split
    · next e h => rw [lookupD_error _ _ _ h]; trivial
    · exact MemSide_refl s
    · have h0 := evictD_side pa false s
      split
      · next e h => rw [h] at h0; exact h0
      · next k t h => rw [h] at h0; exact MemSide_trans h0 (MemSide_putD _ _ _)
  · split
    · exact MemSide_trans (MemSide_drew s 1) (MemSide_zeroLine _ _)
    · exact MemSide_drew s 1

theorem prefetchLine_side (pa : PAddr) (attr : BitVec 3) (s : State) : OpSide s id (prefetchLine pa attr s) := by
  have hd := MemSide_drew s 1
  unfold prefetchLine
  split
  · split
    · split
      · next e h => rw [lookupD_error _ _ _ h]; trivial
      · exact hd
      · have h0 := fillD_side pa attr true (s.drew 1)
        split
        · next k t h => rw [h] at h0; exact MemSide_trans hd h0
        · trivial
        · exact hd
    · exact hd
  · exact MemSide_refl s

/-- Placing a word to be fetched changes memory only. -/
theorem placeFetchWord_side (w : Nat) (s : State) : MemSide s (placeFetchWord w s) := by
  unfold placeFetchWord
  dsimp only
  split
  · exact MemSide_setMem s _ s.stale (Memory_wf_writeBytes _ _ _ _)
  · exact MemSide_refl s

end Sys2Proof.Laws
end

