-- ==== Sys2Proof/Laws/Ops.lean ====
section
/-! SUPPORT. What the shared operations answer: completing, writing a result, jumping, raising, each said once with
everything it leaves alone. -/

namespace Sys2Proof.Laws

open Sys2Proof.Machine Sys2Proof.Safety

/-! ## Completing -/

/-- The next instruction after one that completes. -/
theorem continues_advance (s u : State) (hp : u.pc = s.pc) (hd : u.inDelaySlot = s.inDelaySlot)
    (hb : u.branchTarget = s.branchTarget) : Continues s (advance u) := by
  unfold Continues advance
  rw [← hp, ← hd, ← hb]
  cases u.inDelaySlot <;> simp

/-- A frame of the parts no instruction changes by itself. -/
theorem keepsRest_of_eq {s t : State} (h1 : t.intReg = s.intReg) (h2 : t.intPin = s.intPin) (h3 : t.nmiPin = s.nmiPin)
    (h4 : t.nmiLevel = s.nmiLevel) (h5 : t.timerPending = s.timerPending) (h6 : t.standby = s.standby)
    (h7 : t.busIdle = s.busIdle) (h8 : t.caches = s.caches) (h9 : t.params = s.params)
    (h10 : t.pendingErrors = s.pendingErrors) (h11 : t.events = s.events) :
    KeepsRest s t := ⟨h1, h2, h3, h4, h5, h6, h7, h8, h9, h10, h11⟩

/-- A change of the count of free values is no change of the rest. -/
theorem keepsRest_advance_drew (s : State) (n : Nat) : KeepsRest s (advance (s.drew n)) := by simp [KeepsRest]

/-- An instruction that does nothing but complete. -/
theorem onlyPc_advance (s : State) : OnlyPc s (advance s) := by
  refine ⟨fun q => readGpr_congr (by simp) q, by simp [KeepsHiLo], by simp, by simp [KeepsControl], by simp,
    by simp [KeepsRest], fun a => by simp, continues_advance s s rfl rfl rfl⟩

/-- Writing a result, after `n` free values were drawn. -/
theorem onlyGpr_writeResult (s : State) (n : Nat) (d : RegNum) (v : Dword) :
    OnlyGpr d s (advance (writeGpr (s.drew n) d v)) := by
  refine ⟨fun q hq => ?_, by simp [KeepsHiLo], by simp, by simp [KeepsControl], by simp, by simp [KeepsRest],
    fun a => by simp, continues_advance s _ (by simp) (by simp) (by simp)⟩
  have h := readGpr_writeGpr_other (s.drew n) d q v hq
  rw [readGpr_congr (advance_gpr _) q, h]
  exact readGpr_congr rfl q

/-- The register holds the result. -/
theorem holds_writeResult (s : State) (d : RegNum) (v : Dword) : Holds (advance (writeGpr s d v)) d v := by
  unfold Holds
  rw [readGpr_congr (advance_gpr _) d]
  exact readGpr_writeGpr_same s d v

/-- `writeResult` answers a next state in which only the destination changed. -/
theorem writeResult_gives (s : State) (d : RegNum) (v : Dword) :
    ∃ t, writeResult d v s = .next t ∧ Holds t d v ∧ OnlyGpr d s t :=
  ⟨_, rfl, holds_writeResult s d v, onlyGpr_writeResult s 0 d v⟩

/-- The same after free values were drawn: the frame is that of the state before. -/
theorem writeResult_drew (s : State) (n : Nat) (d : RegNum) (v : Dword) :
    ∃ t, writeResult d v (s.drew n) = .next t ∧ Holds t d v ∧ OnlyGpr d s t :=
  ⟨_, rfl, holds_writeResult _ d v, onlyGpr_writeResult s n d v⟩

/-- Writing `HI` and `LO`, after `n` free values were drawn. -/
theorem writeHiLo_gives (s : State) (n : Nat) (hi lo : Dword) :
    ∃ t, complete (writeHiLo hi lo (s.drew n)) = .next t ∧ t.hi = hi ∧ t.lo = lo ∧ OnlyHiLo s t := by
  refine ⟨_, rfl, by simp [writeHiLo], by simp [writeHiLo], ?_⟩
  refine ⟨fun q => readGpr_congr (by simp [writeHiLo]) q, by simp [writeHiLo], by simp [KeepsControl, writeHiLo],
    by simp [writeHiLo], by simp [KeepsRest, writeHiLo], fun a => by simp [writeHiLo],
    continues_advance s _ rfl rfl rfl⟩

/-! ## Jumping -/

/-- The link register and nothing else. -/
theorem onlyLink_enterSlot (s : State) (r : RegNum) (target : Dword) :
    OnlyLink (some r) s (enterSlot target (link r s)) ∧ EntersSlot target s (enterSlot target (link r s)) := by
  refine ⟨⟨⟨?_, fun q hq => ?_⟩, by simp [KeepsHiLo, link], by simp [link], by simp [KeepsControl, link],
    by simp [link], by simp [KeepsRest, link], fun a => by simp [link]⟩, by simp [enterSlot, link], rfl, rfl⟩
  · exact readGpr_writeGpr_same s r _
  · exact readGpr_writeGpr_other s r q _ hq

/-- No link register: only the program counter. -/
theorem onlyLink_none_enterSlot (s : State) (target : Dword) :
    OnlyLink none s (enterSlot target s) ∧ EntersSlot target s (enterSlot target s) :=
  ⟨⟨fun _ => rfl, ⟨rfl, rfl⟩, rfl, ⟨rfl, rfl⟩, rfl, ⟨rfl, rfl, rfl, rfl, rfl, rfl, rfl, rfl, rfl, rfl, rfl⟩, fun _ => rfl⟩,
    rfl, rfl, rfl⟩

/-! ## Numbers in registers -/

/-- `WordValue` as a range. -/
theorem wordValue_iff (s : State) (r : RegNum) : wordValue (readGpr s r) = true ↔ IsWord s r := by
  have key : ∀ x : Dword, wordValue x = true ↔ (-(2 ^ 31) ≤ x.toInt ∧ x.toInt < 2 ^ 31) := by
    intro x
    have h1 : wordValue x = true ↔ (sext32 (low32 x)).toInt = x.toInt := by
      simp [wordValue, BitVec.toInt_inj]
    rw [h1]
    have h2 : (sext32 (low32 x)).toInt = x.toInt.bmod (2 ^ 32) := by
      unfold sext32 low32
      rw [BitVec.toInt_signExtend_of_le (by decide), BitVec.toInt_setWidth]
      have := BitVec.toInt_eq_toNat_bmod x
      rw [this]
      simp [Int.bmod_bmod_of_dvd]
    rw [h2]
    constructor
    · intro h
      have h3 := Int.le_bmod (x := x.toInt) (m := 2 ^ 32) (by decide)
      have h4 := Int.bmod_lt (x := x.toInt) (m := 2 ^ 32) (by decide)
      rw [h] at h3 h4
      norm_num at h3 h4 ⊢
      omega
    · intro h
      rw [Int.bmod_eq_of_le] <;> norm_num at * <;> omega
  exact key _

/-! ## Imprecise errors -/

/-- What the record of an imprecise error leaves alone: all but `CacheErr`, `ECC`, the two address registers and the
destination of the failing load. -/
theorem recordError_frame (e : ImpreciseError) (s : State) :
    let t := recordError e s
    t.mem = s.mem ∧ t.stale = s.stale ∧ KeepsRest s t ∧ KeepsHiLo s t ∧ t.tlb = s.tlb ∧ t.llBit = s.llBit ∧ t.pc = s.pc ∧
      t.inDelaySlot = s.inDelaySlot ∧ t.branchTarget = s.branchTarget ∧
      t.cp0 = { s.cp0 with cacheErr := t.cp0.cacheErr, ecc := t.cp0.ecc, dErrAddr0 := t.cp0.dErrAddr0
                           dErrAddr1 := t.cp0.dErrAddr1 } := by
  obtain ⟨bus, bits, addr, second, dest⟩ := e
  cases second <;> cases dest <;> simp [recordError, loseDest, KeepsRest, KeepsHiLo]

end Sys2Proof.Laws
end

