-- ==== Sys2Proof/Laws/Access.lean ====
section
/-! SUPPORT. What loads and stores compute: the bytes of memory as a number in a byte order, the words a Watch register
hits, and what translation keeps of an address. -/

namespace Sys2Proof.Laws

open Sys2Proof.Machine Sys2Proof.Safety

/-! ## Bytes as numbers -/

/-- The number of `n` bytes is below `256 ^ n`. -/
theorem numberAt_lt (big : Bool) (m : List Host.Cell) (a n : Nat) : numberAt big m a n < 256 ^ n := by
  induction n with
  | zero => simp [numberAt]
  | succ n ih =>
    have hb : (Memory.read m (a + n)).toNat < 256 := (Memory.read m (a + n)).isLt
    unfold numberAt
    rw [pow_succ]
    split
    · omega
    · have h2 : (Memory.read m (a + n)).toNat * 256 ^ n ≤ 255 * 256 ^ n := Nat.mul_le_mul_right _ (by omega)
      omega

/-- The little-endian number, lowest byte first. -/
theorem numberAt_little_succ (m : List Host.Cell) (a n : Nat) :
    numberAt false m a (n + 1) = numberAt false m (a + 1) n * 256 + (Memory.read m a).toNat := by
  induction n generalizing a with
  | zero => simp [numberAt]
  | succ n ih =>
    have h : numberAt false m a (n + 1 + 1) =
        (Memory.read m (a + (n + 1))).toNat * 256 ^ (n + 1) + numberAt false m a (n + 1) := rfl
    have h' : numberAt false m (a + 1) (n + 1) =
        (Memory.read m (a + 1 + n)).toNat * 256 ^ n + numberAt false m (a + 1) n := rfl
    rw [h, ih a, h', show a + 1 + n = a + (n + 1) by omega, pow_succ]
    ring

/-- Appending bytes by shifting is the little-endian number. -/
theorem readBytes_toNat (m : List Host.Cell) (a n : Nat) (hn : n ≤ 8) :
    (Memory.readBytes m a n).toNat = numberAt false m a n := by
  induction n generalizing a with
  | zero => simp [Memory.readBytes, numberAt]
  | succ n ih =>
    have hlt := numberAt_lt false m (a + 1) n
    have hb : (Memory.read m a).toNat < 256 := (Memory.read m a).isLt
    have hp : (256 : Nat) ^ n * 256 ≤ 2 ^ 64 := by
      rw [← pow_succ]
      calc (256 : Nat) ^ (n + 1) ≤ 256 ^ 8 := Nat.pow_le_pow_right (by decide) hn
        _ = 2 ^ 64 := by norm_num
    rw [numberAt_little_succ, Memory.readBytes, BitVec.toNat_or, BitVec.toNat_shiftLeft, ih (a + 1) (by omega),
      BitVec.toNat_setWidth, Nat.mod_eq_of_lt (show (Memory.read m a).toNat < 2 ^ 64 by omega), Nat.shiftLeft_eq,
      Nat.mod_eq_of_lt (by omega)]
    rw [show numberAt false m (a + 1) n * 2 ^ 8 = 2 ^ 8 * numberAt false m (a + 1) n by ring,
      ← Nat.two_pow_add_eq_or_of_lt (by omega : (Memory.read m a).toNat < 2 ^ 8)]
    ring

/-- The value of the low `n` bytes of a doubleword in the opposite order. -/
theorem reverseBytes_lt (n : Nat) (hn : n ≤ 8) (v : Dword) : (reverseBytes n v).toNat < 256 ^ n := by
  induction n generalizing v with
  | zero => simp [reverseBytes]
  | succ n ih =>
    have h1 := ih (by omega) (v >>> 8)
    have hp : (256 : Nat) ^ (n + 1) ≤ 2 ^ 64 := by
      calc (256 : Nat) ^ (n + 1) ≤ 256 ^ 8 := Nat.pow_le_pow_right (by decide) hn
        _ = 2 ^ 64 := by norm_num
    have h2 : (v &&& 0xFF).toNat < 256 := by
      rw [BitVec.toNat_and]
      exact lt_of_le_of_lt Nat.and_le_right (by decide)
    have h256 : (256 : Nat) ^ n = 2 ^ (8 * n) := by rw [pow_mul]; norm_num
    rw [reverseBytes, BitVec.toNat_or, BitVec.toNat_shiftLeft, Nat.shiftLeft_eq, ← h256]
    have h3 : (v &&& 0xFF).toNat * 256 ^ n < 256 ^ (n + 1) := by
      rw [pow_succ, mul_comm]
      exact Nat.mul_lt_mul_of_pos_left h2 (by positivity)
    rw [Nat.mod_eq_of_lt (by omega), mul_comm, h256,
      ← Nat.two_pow_add_eq_or_of_lt (by rw [← h256]; exact h1), ← h256]
    rw [pow_succ]
    have h4 : 256 ^ n * (v &&& 0xFF).toNat ≤ 256 ^ n * 255 := Nat.mul_le_mul_left _ (by omega)
    omega

/-- Reversing, one byte more. -/
theorem reverseBytes_toNat_succ (n : Nat) (hn : n < 8) (v : Dword) :
    (reverseBytes (n + 1) v).toNat = v.toNat % 256 * 256 ^ n + (reverseBytes n (v >>> 8)).toNat := by
  have h1 := reverseBytes_lt n (by omega) (v >>> 8)
  have hp : (256 : Nat) ^ (n + 1) ≤ 2 ^ 64 := by
    calc (256 : Nat) ^ (n + 1) ≤ 256 ^ 8 := Nat.pow_le_pow_right (by decide) hn
      _ = 2 ^ 64 := by norm_num
  have h256 : (256 : Nat) ^ n = 2 ^ (8 * n) := by rw [pow_mul]; norm_num
  have h2 : (v &&& 0xFF).toNat = v.toNat % 256 := by
    rw [BitVec.toNat_and]
    exact Nat.and_two_pow_sub_one_eq_mod v.toNat 8
  rw [reverseBytes, BitVec.toNat_or, BitVec.toNat_shiftLeft, Nat.shiftLeft_eq, ← h256, h2]
  have h3 : v.toNat % 256 * 256 ^ n < 256 ^ (n + 1) := by
    rw [pow_succ, mul_comm]
    exact Nat.mul_lt_mul_of_pos_left (by omega) (by positivity)
  rw [Nat.mod_eq_of_lt (by omega), mul_comm, h256,
    ← Nat.two_pow_add_eq_or_of_lt (by rw [← h256]; exact h1), ← h256]

/-- The bytes read, in the byte order of the processor, as a number. -/
theorem orderBytes_readBytes (big : Bool) (m : List Host.Cell) (a n : Nat) (hn : n ≤ 8) :
    (orderBytes big n (Memory.readBytes m a n)).toNat = numberAt big m a n := by
  cases big with
  | false => exact readBytes_toNat m a n hn
  | true =>
    have key : ∀ k j : Nat, k + j ≤ 8 → ∀ x : Dword, x.toNat % 256 ^ k = numberAt false m a k →
        (reverseBytes k x).toNat = numberAt true m a k := by
      intro k
      induction k generalizing a with
      | zero => intro j _ x _; simp [reverseBytes, numberAt]
      | succ k ih =>
        intro j hk x hx
        have hshift : (x >>> 8).toNat = x.toNat / 256 := by simp [Nat.shiftRight_eq_div_pow]
        rw [reverseBytes_toNat_succ k (by omega), ih (a + 1) (j + 1) (by omega)]
        · rw [numberAt_little_succ] at hx
          have hb : (Memory.read m a).toNat < 256 := (Memory.read m a).isLt
          have hx256 : x.toNat % 256 = (Memory.read m a).toNat := by
            have := congrArg (· % 256) hx
            rw [Nat.mod_mod_of_dvd _ (by rw [pow_succ]; exact Dvd.intro_left _ rfl)] at this
            omega
          rw [hx256]
          clear hx ih hx256 hshift x hk
          induction k with
          | zero => simp [numberAt]
          | succ k ih =>
            have e1 : numberAt true m a (k + 1 + 1) =
                numberAt true m a (k + 1) * 256 + (Memory.read m (a + (k + 1))).toNat := rfl
            have e2 : numberAt true m (a + 1) (k + 1) =
                numberAt true m (a + 1) k * 256 + (Memory.read m (a + 1 + k)).toNat := rfl
            rw [e1, ← ih, e2, pow_succ, show a + 1 + k = a + (k + 1) by omega]
            ring
        · rw [numberAt_little_succ] at hx
          have hb : (Memory.read m a).toNat < 256 := (Memory.read m a).isLt
          have hlt := numberAt_lt false m (a + 1) k
          rw [hshift]
          have : x.toNat / 256 % 256 ^ k = x.toNat % 256 ^ (k + 1) / 256 := by
            rw [pow_succ, mul_comm, Nat.mod_mul_right_div_self]
          rw [this, hx]
          omega
    exact key n 0 (by omega) _ (by
      rw [readBytes_toNat m a n hn, Nat.mod_eq_of_lt (numberAt_lt false m a n)])

/-! ## Translation keeps the offset in a page -/

/-- A translated address has the low 12 bits of the virtual one. -/
theorem translate_offset (kind : AccessKind) (va : Dword) (s : State) (pa : PAddr) (attr : BitVec 3)
    (h : Machine.translate kind va s = .ok (pa, attr)) : pa.toNat % 4096 = va.toNat % 4096 := by
  have hseg : ∀ p a, Machine.segment s va = .unmapped p a → p.toNat % 4096 = va.toNat % 4096 := by
    intro p a hp
    unfold Machine.segment compatSegment at hp
    repeat' split at hp
    all_goals first
      | (cases hp; done)
      | (injection hp with h1 h2
         subst h1
         simp only [ksegAddr, BitVec.toNat_setWidth, BitVec.extractLsb'_toNat, Nat.shiftRight_zero]
         omega)
  have hpage : ∀ (e : TlbEntry) (p : TlbPage), (e.paddr p va).toNat % 4096 = va.toNat % 4096 := by
    intro e p
    have hbit : ∀ i, i < 12 → (e.paddr p va).getLsbD i = va.getLsbD i := by
      intro i hi
      unfold TlbEntry.paddr
      simp only [BitVec.getLsbD_or, BitVec.getLsbD_and, BitVec.getLsbD_append, hi, if_true,
        BitVec.getLsbD_zero, Bool.false_or]
      have hm : (BitVec.ofNat 36 (2 ^ (12 + maskBits e.mask)) - 1#36).getLsbD i = true := by
        have hb : maskBits e.mask ≤ 12 := by
          unfold maskBits
          exact le_trans List.countP_le_length (by simp)
        have hsub : (BitVec.ofNat 36 (2 ^ (12 + maskBits e.mask)) - 1#36).toNat = 2 ^ (12 + maskBits e.mask) - 1 := by
          have hlt : 2 ^ (12 + maskBits e.mask) ≤ 2 ^ 24 := Nat.pow_le_pow_right (by decide) (by omega)
          have hpos : 0 < 2 ^ (12 + maskBits e.mask) := by positivity
          rw [BitVec.toNat_sub]
          simp only [BitVec.toNat_ofNat]
          omega
        rw [BitVec.getLsbD, hsub, Nat.testBit_two_pow_sub_one]
        simp; omega
      have hv : (va.setWidth 36).getLsbD i = va.getLsbD i := by simp; omega
      rw [hv]
      simp only [BitVec.ofNat_eq_ofNat] at *
      rw [hm]; simp
    apply Nat.eq_of_testBit_eq
    intro i
    rw [show (4096 : Nat) = 2 ^ 12 by norm_num, Nat.testBit_mod_two_pow, Nat.testBit_mod_two_pow]
    by_cases hi : i < 12
    · have := hbit i hi
      simp only [BitVec.getLsbD] at this
      rw [this]
    · simp [hi]
  unfold Machine.translate at h
  split at h
  · exact absurd h (by simp)
  · next p a hp =>
    split at h
    · injection h with h
      injection h with h1 h2
      subst h1
      exact hseg _ _ hp
    · exact absurd h (by simp)
  · unfold translateMapped at h
    split at h
    · next p a hq =>
      split at h
      · injection h with h
        injection h with h1 h2
        subst h1
        split at hq
        · exact absurd hq (by simp)
        · split at hq
          · exact absurd hq (by simp)
          · simp only at hq
            split at hq
            · exact absurd hq (by simp)
            · split at hq
              · exact absurd hq (by simp)
              · injection hq with hq
                injection hq with h3 h4
                rw [← h3]
                exact hpage _ _
          · exact absurd hq (by simp)
      · exact absurd h (by simp)
    · exact absurd h (by simp)

/-- A Watch register hits a word: the bits of the address agree, but for the masked ones of `PA[31:2]` (60_exceptions.md rule
R854). -/
theorem hitsWord_iff (x : Watch) (mask : BitVec 30) (pa : PAddr) : x.hitsWord mask pa = true ↔
    ∀ b, b < 34 → (b < 30 ∧ mask.getLsbD b = true) ∨ x.pa.getLsbD b = pa.getLsbD (b + 2) := by
  have bit (b : Nat) (hb : b < 34) (y : BitVec 34) :
      (y &&& ~~~(mask.zeroExtend 34)).getLsbD b = (y.getLsbD b && !mask.getLsbD b) := by
    rw [BitVec.getLsbD_and, BitVec.getLsbD_not, BitVec.getLsbD_setWidth]; simp [hb]
  have word (b : Nat) (hb : b < 34) : (pa.extractLsb' 2 34).getLsbD b = pa.getLsbD (b + 2) := by
    rw [BitVec.getLsbD_extractLsb', decide_eq_true hb, Bool.true_and, Nat.add_comm]
  simp only [Watch.hitsWord, beq_iff_eq]
  constructor
  · intro h b hb
    have := congrArg (·.getLsbD b) h
    simp only [bit b hb, word b hb] at this
    cases hm : mask.getLsbD b with
    | true => exact .inl ⟨BitVec.lt_of_getLsbD hm, rfl⟩
    | false => exact .inr (by simpa [hm] using this)
  · intro h
    apply BitVec.eq_of_getLsbD_eq
    intro b hb
    rw [bit b hb, bit b hb, word b hb]
    rcases h b hb with ⟨_, hm⟩ | he
    · rw [hm, Bool.not_true, Bool.and_false, Bool.and_false]
    · rw [he]

end Sys2Proof.Laws
end

