-- ==== Sys2Proof/Laws/CacheLine.lean ====
section
/-! SUPPORT. Lines of the explicit caches: their bytes, where a fill places one, and what a fill over unmodified lines
answers. -/

namespace Sys2Proof.Laws

open Sys2Proof.Machine Sys2Proof.Safety

/-! ## Bytes of a line -/

/-- A bit of `n` bytes read from memory. -/
theorem readBytes_getLsbD (n : Nat) (m : List Host.Cell) (a i : Nat) (hn : n ≤ 8) :
    (Memory.readBytes m a n).getLsbD i = (decide (i < 8 * n) && (Memory.read m (a + i / 8)).getLsbD (i % 8)) := by
  induction n generalizing a i with
  | zero => simp [Memory.readBytes]
  | succ n ih =>
    rw [Memory.readBytes, BitVec.getLsbD_or, BitVec.getLsbD_shiftLeft, BitVec.getLsbD_setWidth]
    by_cases h : i < 8
    · simp [h, show i < 64 by omega, show i < 8 * (n + 1) by omega, show i / 8 = 0 by omega, show i % 8 = i by omega]
    · rw [ih (a + 1) (i - 8) (by omega)]
      have h8 : (Memory.read m a).getLsbD i = false := BitVec.getLsbD_of_ge _ _ (by omega)
      simp only [h8, Bool.and_false, Bool.or_false, show decide (i < 8) = false by simp [h], Bool.not_false,
        Bool.and_true, show a + 1 + (i - 8) / 8 = a + i / 8 by omega, show (i - 8) % 8 = i % 8 by omega]
      by_cases h' : i < 8 * (n + 1)
      · simp [h', show i < 64 by omega, show i - 8 < 8 * n by omega]
      · simp [h', show ¬(i - 8 < 8 * n) by omega]

/-- A byte of a line read from memory. -/
theorem readLine_byte (m : List Host.Cell) (a j : Nat) (h : j < 32) :
    lineByte (Memory.readLine m a) j = Memory.read m (a + j) := by
  apply BitVec.eq_of_getLsbD_eq
  intro i hi
  simp only [lineByte, Memory.readLine, BitVec.getLsbD_extractLsb', BitVec.getLsbD_append, readBytes_getLsbD _ _ _ _ (le_refl 8), hi,
    decide_true, Bool.true_and]
  by_cases h1 : 8 * j + i < 64
  · simp [h1, show (8 * j + i) / 8 = j by omega, show (8 * j + i) % 8 = i by omega]
  · by_cases h2 : 8 * j + i - 64 < 64
    · simp [h1, h2, show a + 8 + (8 * j + i - 64) / 8 = a + j by omega, show (8 * j + i - 64) % 8 = i by omega]
    · by_cases h3 : 8 * j + i - 64 - 64 < 64
      · simp [h1, h2, h3, show a + 16 + (8 * j + i - 64 - 64) / 8 = a + j by omega,
          show (8 * j + i - 64 - 64) % 8 = i by omega]
      · simp [h1, h2, h3, show 8 * j + i - 64 - 64 - 64 < 64 by omega,
          show a + 24 + (8 * j + i - 64 - 64 - 64) / 8 = a + j by omega,
          show (8 * j + i - 64 - 64 - 64) % 8 = i by omega]

/-- A byte of a line after a store into it. -/
theorem lineWrite_byte (x : BitVec 256) (off n j : Nat) (v : Dword) (hn : n ≤ 8) (h : off + n ≤ 32) (hj : j < 32) :
    lineByte (lineWrite x off n v) j = if off ≤ j ∧ j < off + n then v.extractLsb' (8 * (j - off)) 8 else lineByte x j := by
  apply BitVec.eq_of_getLsbD_eq
  intro i hi
  have key : (lineByte (lineWrite x off n v) j).getLsbD i =
      if 8 * off ≤ 8 * j + i ∧ 8 * j + i < 8 * off + 8 * n then v.getLsbD (8 * j + i - 8 * off) else x.getLsbD (8 * j + i) := by
    simp only [lineByte, lineWrite, BitVec.getLsbD_extractLsb', BitVec.getLsbD_or, BitVec.getLsbD_and, BitVec.getLsbD_not,
      BitVec.getLsbD_shiftLeft, BitVec.getLsbD_setWidth, BitVec.getLsbD_ushiftRight, BitVec.getLsbD_allOnes, hi]
    by_cases h1 : 8 * j + i < 8 * off
    · simp [h1, show ¬(8 * off ≤ 8 * j + i ∧ 8 * j + i < 8 * off + 8 * n) by omega, show 8 * j + i < 256 by omega]
    · by_cases h2 : 8 * j + i < 8 * off + 8 * n
      · simp [h1, h2, show 8 * j + i < 256 by omega, show 8 * off ≤ 8 * j + i by omega,
          show 64 - 8 * n + (8 * j + i - 8 * off) < 64 by omega, show 8 * j + i - 8 * off < 256 by omega]
      · simp [h1, h2, show 8 * j + i < 256 by omega, show ¬(64 - 8 * n + (8 * j + i - 8 * off) < 64) by omega]
  rw [key]
  by_cases h1 : off ≤ j ∧ j < off + n
  · rw [if_pos (by omega), if_pos h1, BitVec.getLsbD_extractLsb']
    simp [hi, show 8 * j + i - 8 * off = 8 * (j - off) + i by omega]
  · rw [if_neg (by omega), if_neg h1, lineByte, BitVec.getLsbD_extractLsb']
    simp [hi]

/-- Memory after a line is stored: the line's bytes, and every other byte as before. -/
theorem read_writeLine (m : List Host.Cell) (a : Nat) (x : BitVec 256) (hw : Memory.wf m = true) (c : Nat) :
    Memory.read (Memory.writeLine m a x) c = if a ≤ c ∧ c < a + 32 then lineByte x (c - a) else Memory.read m c := by
  have h1 := Memory_wf_writeBytes 8 m a (x.extractLsb' 0 64) hw
  have h2 := Memory_wf_writeBytes 8 _ (a + 8) (x.extractLsb' 64 64) h1
  have h3 := Memory_wf_writeBytes 8 _ (a + 16) (x.extractLsb' 128 64) h2
  have part : ∀ (m : List Host.Cell) (k : Nat), k ≤ 24 → Memory.wf m = true →
      Memory.read (Memory.writeBytes m (a + k) 8 (x.extractLsb' (8 * k) 64)) c =
        if a + k ≤ c ∧ c < a + k + 8 then lineByte x (c - a) else Memory.read m c := by
    intro m k hk hm
    by_cases h : a + k ≤ c ∧ c < a + k + 8
    · rw [if_pos h, show c = a + k + (c - (a + k)) by omega, Memory_read_writeBytes_same 8 m (a + k) _ _ (by omega) hm]
      apply BitVec.eq_of_getLsbD_eq
      intro i hi
      simp [lineByte, hi, show 8 * (c - (a + k)) + i < 64 by omega,
        show 8 * k + (8 * (c - (a + k)) + i) = 8 * (a + k + (c - (a + k)) - a) + i by omega]
    · rw [if_neg h, Memory_read_writeBytes_other _ _ _ _ _ h]
  have p0 := part m 0 (by omega) hw
  simp only [Nat.add_zero, Nat.mul_zero] at p0
  rw [Memory.writeLine, part _ 24 (by omega) h3, part _ 16 (by omega) h2, part _ 8 (by omega) h1, p0]
  split_ifs <;> first | rfl | omega

/-- Every byte of memory outside a stored line is as before. -/
theorem read_writeLine_other (m : List Host.Cell) (a c : Nat) (x : BitVec 256) (h : ¬(a ≤ c ∧ c < a + 32)) :
    Memory.read (Memory.writeLine m a x) c = Memory.read m c := by
  rw [Memory.writeLine]
  repeat rw [Memory_read_writeBytes_other _ _ _ _ _ (by omega)]

/-- A line as a memory of 32 bytes. -/
theorem read_lineMemory (x : BitVec 256) (j : Nat) (h : j < 32) :
    Memory.read (Memory.writeLine [] 0 x) j = lineByte x j := by
  rw [read_writeLine [] 0 x rfl, if_pos (by omega), Nat.sub_zero]

/-- The number in a line is that of the line as a memory. -/
theorem lineNumber_eq (big : Bool) (x : BitVec 256) (off n : Nat) (h : off + n ≤ 32) :
    lineNumber big x off n = numberAt big (Memory.writeLine [] 0 x) off n := by
  induction n with
  | zero => rfl
  | succ n ih => rw [lineNumber, numberAt, ih (by omega), read_lineMemory x _ (by omega)]

/-- The bytes read from a line are those read from the line as a memory. -/
theorem lineRead_eq (x : BitVec 256) (off n : Nat) (hn : n ≤ 8) (h : off + n ≤ 32) :
    lineRead x off n = Memory.readBytes (Memory.writeLine [] 0 x) off n := by
  apply BitVec.eq_of_getLsbD_eq
  intro i hi
  rw [readBytes_getLsbD _ _ _ _ hn]
  by_cases h1 : i < 8 * n
  · rw [read_lineMemory x _ (by omega)]
    simp [lineRead, lineByte, h1, hi, show i % 8 < 8 by omega, -BitVec.reduceAllOnes,
      show 8 * (off + i / 8) + i % 8 = 8 * off + i by omega, show 64 - 8 * n + i < 64 by omega]
  · simp [lineRead, h1, -BitVec.reduceAllOnes, show ¬(64 - 8 * n + i < 64) by omega]

/-- What a load gets from a line, as a number in the processor's byte order. -/
theorem orderBytes_lineRead (big : Bool) (x : BitVec 256) (off n : Nat) (hn : n ≤ 8) (h : off + n ≤ 32) :
    (orderBytes big n (lineRead x off n)).toNat = lineNumber big x off n := by
  rw [lineRead_eq x off n hn h, orderBytes_readBytes big _ off n hn, lineNumber_eq big x off n h]

/-- A line read from memory holds the numbers memory holds. -/
theorem lineNumber_readLine (big : Bool) (m : List Host.Cell) (a off n : Nat) (h : off + n ≤ 32) :
    lineNumber big (Memory.readLine m a) off n = numberAt big m (a + off) n := by
  induction n with
  | zero => rfl
  | succ n ih => rw [lineNumber, numberAt, ih (by omega), readLine_byte m a _ (by omega), Nat.add_assoc]

/-! ## The list of lines -/

/-- What is found after a line is set. -/
theorem Lines_find_put {α : Type} (l : List (Nat × α)) (k j : Nat) (x : α) :
    Lines.find (Lines.put l k x) j = if j = k then some x else Lines.find l j := by
  induction l with
  | nil => simp [Lines.put, Lines.find]
  | cons c r ih =>
    obtain ⟨q, v⟩ := c
    simp only [Lines.put]
    by_cases h1 : k < q
    · simp only [h1, if_true, Lines.find]
    · by_cases h2 : k = q
      · subst h2
        simp only [lt_self_iff_false, if_false, if_true, Lines.find]
        by_cases h3 : j = k <;> simp [h3]
      · simp only [h1, h2, if_false, Lines.find, ih]
        by_cases h3 : j = q
        · simp [h3, show ¬(q = k) from fun e => h2 e.symm]
        · simp [h3]

/-- A data-cache line after one is set. -/
theorem dLine_putD (s : State) (k j : Nat) (x : DLine) : dLine (putD k x s) j = if j = k then x else dLine s j := by
  simp only [dLine, putD, Lines_find_put]; split <;> rfl

/-- An instruction-cache line after one is set. -/
theorem iLine_putI (s : State) (k j : Nat) (x : ILine) : iLine (putI k x s) j = if j = k then x else iLine s j := by
  simp only [iLine, putI, Lines_find_put]; split <;> rfl

/-- A secondary line after one is set. -/
theorem sLine_putS (s : State) (k j : Nat) (x : SLine) : sLine (putS k x s) j = if j = k then x else sLine s j := by
  simp only [sLine, putS, Lines_find_put]; split <;> rfl

/-- A tertiary line after one is set. -/
theorem tLine_putT (s : State) (k j : Nat) (x : TLine) : tLine (putT k x s) j = if j = k then x else tLine s j := by
  simp only [tLine, putT, Lines_find_put]; split <;> rfl

/-! ## Lookups -/

/-- The bits of two addresses of one line agree from bit 5 up. -/
theorem sameLine_getLsbD (a b : PAddr) (h : a.toNat / 32 = b.toNat / 32) (i : Nat) (hi : 5 ≤ i) :
    a.getLsbD i = b.getLsbD i := by
  simp only [BitVec.getLsbD]
  obtain ⟨j, rfl⟩ := Nat.exists_eq_add_of_le hi
  have key : ∀ x : Nat, x.testBit (5 + j) = (x / 32).testBit j := fun x => by
    rw [show (32 : Nat) = 2 ^ 5 by rfl, Nat.testBit_div_two_pow, Nat.add_comm]
  rw [key, key, h]

/-- Two addresses of one line agree in every field above the offset. -/
theorem sameLine_field (a b : PAddr) (h : a.toNat / 32 = b.toNat / 32) (off n : Nat) (ho : 5 ≤ off) :
    a.extractLsb' off n = b.extractLsb' off n := by
  apply BitVec.eq_of_getLsbD_eq
  intro i hi
  simp only [BitVec.getLsbD_extractLsb', sameLine_getLsbD a b h (off + i) (by omega)]

/-- A data-cache lookup depends on the line of the address only. -/
theorem lookupD_sameLine (s : State) (a b : PAddr) (h : a.toNat / 32 = b.toNat / 32) : lookupD s a = lookupD s b := by
  have ways : primaryWays a = primaryWays b := by
    unfold primaryWays primaryIndex
    rw [sameLine_field a b h 5 7 (by decide)]
  unfold lookupD
  rw [ways, sameLine_field a b h 12 24 (by decide)]

/-- A data-cache lookup sees the data cache only. -/
theorem lookupD_congr (s t : State) (pa : PAddr) (hd : t.caches.dcache = s.caches.dcache)
    (he : t.caches.epoch = s.caches.epoch) : lookupD t pa = lookupD s pa := by
  have line : dLine t = dLine s := funext fun k => by unfold dLine; rw [hd, he]
  have written : dWritten t = dWritten s := funext fun k => by unfold dWritten; rw [hd]
  unfold lookupD
  rw [line, written]

/-! ## Fills -/

/-- The way a fill goes to is one of four. -/
theorem victimWay_lt (locked : Nat → Bool) (s : State) : victimWay locked s < 4 := by
  unfold victimWay
  rw [List.getD_eq_getElem?_getD]
  cases h : (List.filter (fun w => decide (2 ≤ w) || !locked w) (List.range 4))[(s.free 0).toNat %
      (List.filter (fun w => decide (2 ≤ w) || !locked w) (List.range 4)).length]? with
  | none => decide
  | some w =>
    have := List.mem_of_getElem? h
    simpa using List.mem_range.mp (List.mem_of_mem_filter this)

/-- The line of a fill lies in one of the four ways of its index. -/
theorem fillSlot_way (lock : Bool) (perWay index : Nat) (locked : Nat → Bool) (s : State) :
    ∃ w, w < 4 ∧ (fillSlot lock perWay index locked s).line = w * perWay + index := by
  unfold fillSlot
  by_cases h : (lock && !locked (lockWay s)) = true
  · exact ⟨lockWay s, by unfold lockWay; split <;> decide, by simp [h]⟩
  · exact ⟨victimWay locked s, victimWay_lt _ _, by simp [h]⟩

/-- A data-cache fill goes to a line of the address's index. -/
theorem slotD_ways (a : PAddr) (lock : Bool) (s : State) : (slotD a lock s).line ∈ primaryWays a := by
  obtain ⟨w, h, e⟩ := fillSlot_way lock 128 (primaryIndex a) (fun w => (dLine s (w * 128 + primaryIndex a)).l) s
  exact List.mem_map.mpr ⟨w, List.mem_range.mpr h, e.symm⟩

/-- An instruction-cache fill goes to a line of the address's index. -/
theorem slotI_ways (a : PAddr) (lock : Bool) (s : State) : (slotI a lock s).line ∈ primaryWays a := by
  obtain ⟨w, h, e⟩ := fillSlot_way lock 128 (primaryIndex a) (fun w => (iLine s (w * 128 + primaryIndex a)).l) s
  exact List.mem_map.mpr ⟨w, List.mem_range.mpr h, e.symm⟩

/-- Emptying a slot among unmodified lines writes nothing back. -/
theorem evictD_clean (a : PAddr) (lock : Bool) (s : State) (h : CleanWays s a) :
    evictD a lock s = .ok (slotD a lock s, s.drew 2) := by
  simp [evictD, h _ (slotD_ways a lock s)]

/-- A fill that misses cleanly reads the line from memory and changes one line. -/
theorem fillD_clean (a : PAddr) (attr : BitVec 3) (load : Bool) (s : State) (h : MissesCleanly s a attr) :
    fillD a attr load s = .ok ((slotD a (load && s.cp0.ecc.d) s).line,
      putD (slotD a (load && s.cp0.ecc.d) s).line
        (newD a attr false (slotD a (load && s.cp0.ecc.d) s) (Memory.readLine s.mem (lineAddr a))) (s.drew 2)) := by
  obtain ⟨_, hm, hr, hc⟩ := h
  have read : mainReadLine false a s = .ok (Memory.readLine s.mem (lineAddr a)) := by
    rcases hr with hr | hr <;> simp [mainReadLine, readable, hr]
  have src : fillSource (attr == 3) false load a s = .ok (Memory.readLine s.mem (lineAddr a), s) := by
    rcases hm with rfl | rfl | rfl | ⟨rfl, hs, ht⟩
    all_goals simp [fillSource, read]
    simp [blockSecondary, hs, blockBelow, ht, read]
  simp only [fillD, src, evictD_clean a _ s hc]

end Sys2Proof.Laws
end

