-- ==== Sys2Proof/Laws/Fp.lean ====
section
/-! SUPPORT. Classes and patterns of floating-point operands, and what a normal number rounds to. -/

namespace Sys2Proof.Laws

open Sys2Proof.Machine Sys2Proof.Safety

/-- The sign of a class is that of the pattern. -/
theorem classify_neg (f : FpFmt) (x : Dword) : (classify f x).neg = signOf f x := by
  simp only [classify, signOf]; split_ifs <;> rfl

/-- A zero of the machine is that of the statements. -/
@[simp] theorem fpZero_eq (f : FpFmt) (n : Bool) : fpZero f n = zeroPattern f n := by cases f <;> cases n <;> rfl
/-- An infinity of the machine is that of the statements. -/
@[simp] theorem fpInf_eq (f : FpFmt) (n : Bool) : fpInf f n = infinityPattern f n := by cases f <;> cases n <;> rfl
/-- The class of a zero. -/
@[simp] theorem classify_zero (f : FpFmt) (n : Bool) : classify f (zeroPattern f n) = .zero n := by
  cases f <;> cases n <;> decide
/-- The class of an infinity. -/
@[simp] theorem classify_infinity (f : FpFmt) (n : Bool) : classify f (infinityPattern f n) = .inf n := by
  cases f <;> cases n <;> decide
/-- The class of 1.0. -/
@[simp] theorem classify_fpOne (f : FpFmt) : classify f (fpOne f) = .norm false (2 ^ f.fracBits) (-(f.fracBits : Int)) := by
  cases f <;> decide

/-- The fields of a normal number. -/
theorem classify_norm {f : FpFmt} {x : Dword} {neg : Bool} {m : Nat} {e : Int} (h : classify f x = .norm neg m e) :
    neg = signOf f x ∧ m = 2 ^ f.fracBits + x.toNat % 2 ^ f.fracBits ∧
      ∃ k, k = x.toNat / 2 ^ f.fracBits % 2 ^ f.expBits ∧ k ≠ 0 ∧ k < 2 ^ f.expBits - 1 ∧
        e = (k : Int) - f.bias - f.fracBits := by
  have hk : x.toNat / 2 ^ f.fracBits % 2 ^ f.expBits < 2 ^ f.expBits := Nat.mod_lt _ (by positivity)
  simp only [classify] at h
  split_ifs at h with h1 h2 h3 h4
  simp only [FpClass.norm.injEq] at h
  obtain ⟨rfl, rfl, rfl⟩ := h
  exact ⟨rfl, rfl, _, rfl, h4, by omega, rfl⟩

/-- The leading bit of a normal fraction. -/
theorem log2_fraction (f : FpFmt) (r : Nat) (h : r < 2 ^ f.fracBits) : (2 ^ f.fracBits + r).log2 = f.fracBits := by
  rw [Nat.log2_eq_iff (by positivity), pow_succ]
  omega

/-- A number of the format's precision rounds to itself. -/
theorem roundMag_exact (f : FpFmt) (rm : BitVec 2) (neg : Bool) (r : Nat) (e : Int) (h : r < 2 ^ f.fracBits) :
    roundMag (f.fracBits + 1) rm neg (2 ^ f.fracBits + r) e false =
      { m := 2 ^ f.fracBits + r, e := e, inexact := false } := by
  have up : roundsUp rm neg (2 ^ f.fracBits + r) 0 1 false = false := by
    simp only [roundsUp]; split <;> simp
  simp [roundMag, log2_fraction f r h, Nat.mod_one, up]

/-- A pattern with nothing above its format's bits is made of its fields. -/
theorem fpBits_fields {f : FpFmt} {x : Dword} (h : x.toNat < 2 ^ (f.signPos + 1)) :
    fpBits f (signOf f x) (x.toNat / 2 ^ f.fracBits % 2 ^ f.expBits) (x.toNat % 2 ^ f.fracBits) = x := by
  have top : x.toNat / 2 ^ f.signPos < 2 := by
    rw [Nat.div_lt_iff_lt_mul (by positivity)]; rw [pow_succ] at h; omega
  have sign : (if signOf f x then 2 ^ f.signPos else 0) = x.toNat / 2 ^ f.signPos * 2 ^ f.signPos := by
    simp only [signOf, BitVec.getLsbD, Nat.testBit_eq_decide_div_mod_eq, Nat.mod_eq_of_lt top, decide_eq_true_eq]
    rcases Nat.lt_or_ge (x.toNat / 2 ^ f.signPos) 1 with h | h
    · simp [Nat.lt_one_iff.mp h]
    · simp [show x.toNat / 2 ^ f.signPos = 1 by omega]
  apply BitVec.eq_of_toNat_eq
  rw [fpBits, sign, BitVec.toNat_ofNat]
  cases f <;> simp only [FpFmt.signPos, FpFmt.fracBits, FpFmt.expBits] at * <;> omega

/-- The pattern with the other sign is made of the same fields. -/
theorem fpBits_not (f : FpFmt) (neg : Bool) (e m : Nat) (he : e < 2 ^ f.expBits) (hm : m < 2 ^ f.fracBits) :
    fpBits f (!neg) e m = invertSign f (fpBits f neg e m) := by
  have low : e * 2 ^ f.fracBits + m < 2 ^ f.signPos := by
    have h := Nat.mul_le_mul_right (2 ^ f.fracBits) (Nat.succ_le_of_lt he)
    rw [Nat.succ_mul] at h
    rw [FpFmt.signPos, Nat.add_comm f.fracBits, pow_add]
    omega
  have bound : f.signPos < 64 := by cases f <;> decide
  have flip : ∀ v : Nat, v < 2 ^ f.signPos →
      BitVec.ofNat 64 (2 ^ f.signPos + v) = BitVec.ofNat 64 v ^^^ (1#64 <<< f.signPos) := by
    intro v hv
    apply BitVec.eq_of_getLsbD_eq
    intro i hi
    have one : (1#64 <<< f.signPos).getLsbD i = decide (f.signPos = i) := by
      rw [← BitVec.twoPow_eq, BitVec.getLsbD_twoPow, decide_eq_true bound, Bool.true_and]
    rw [BitVec.getLsbD_xor, one, BitVec.getLsbD_ofNat, BitVec.getLsbD_ofNat, decide_eq_true hi, Bool.true_and, Bool.true_and]
    rcases Nat.lt_trichotomy i f.signPos with h | rfl | h
    · rw [Nat.testBit_two_pow_add_gt h, decide_eq_false (by omega), Bool.xor_false]
    · rw [Nat.testBit_two_pow_add_eq, decide_eq_true rfl, Bool.xor_true]
    · have big := Nat.pow_le_pow_right (n := 2) (by decide) (Nat.succ_le_of_lt h)
      rw [Nat.succ_eq_add_one, pow_succ] at big
      rw [Nat.testBit_lt_two_pow (by omega), Nat.testBit_lt_two_pow (by omega), decide_eq_false (by omega)]
      rfl
  cases neg
  · simpa [fpBits, invertSign, Nat.add_assoc] using flip _ low
  · have h := congrArg (· ^^^ (1#64 <<< f.signPos)) (flip _ low)
    simp only [BitVec.xor_assoc, BitVec.xor_self, BitVec.xor_zero] at h
    simpa [fpBits, invertSign, Nat.add_assoc] using h.symm

/-- A normal number delivered without change is its pattern, with the sign asked for. -/
theorem roundTo_norm {c : Fcr31} {f : FpFmt} {x : Dword} {neg : Bool} {m : Nat} {e : Int} (h : classify f x = .norm neg m e)
    (hx : x.toNat < 2 ^ (f.signPos + 1)) (n : Bool) :
    roundTo c f n m e false false = .exact (if n = neg then x else invertSign f x) := by
  obtain ⟨rfl, rfl, k, hk, h0, h1, rfl⟩ := classify_norm h
  have hr : x.toNat % 2 ^ f.fracBits < 2 ^ f.fracBits := Nat.mod_lt _ (by positivity)
  have hb : 2 ^ f.expBits - 1 = 2 * f.bias + 1 := by cases f <;> rfl
  have top (i : Bool) : Rounded.top { m := 2 ^ f.fracBits + x.toNat % 2 ^ f.fracBits, e := (k : Int) - f.bias - f.fracBits, inexact := i } =
      (k : Int) - f.bias := by
    simp only [Rounded.top, log2_fraction f _ hr]; ring
  have pack : packNormal f n { m := 2 ^ f.fracBits + x.toNat % 2 ^ f.fracBits, e := (k : Int) - f.bias - f.fracBits, inexact := false } =
      fpBits f n k (x.toNat % 2 ^ f.fracBits) := by
    simp only [packNormal, top, log2_fraction f _ hr]
    congr 1
    · omega
    · simp
  have value : fpBits f n k (x.toNat % 2 ^ f.fracBits) = if n = signOf f x then x else invertSign f x := by
    have fields := fpBits_fields hx
    rw [← hk] at fields
    split_ifs with hn
    · rw [hn, fields]
    · rw [show n = !signOf f x by cases n <;> cases hs : signOf f x <;> simp_all, fpBits_not f _ k _ (by omega) hr, fields]
  simp only [roundTo, roundMag_exact f _ _ _ _ hr, deliver, Rounded.overflows, Rounded.tiny, top, FpFmt.emin]
  rw [if_neg (by simp; omega), if_neg (by simp; omega), pack, value]
  rfl

end Sys2Proof.Laws
end

