-- ==== Sys2Proof/WellFormed.lean ====
section
/-! DEFINITION. Well-formed instructions: the forms the MIPS definition forbids (45_jump_branch.md rules R573,
R580, R588) and the `CACHE` codes that name no operation (41_cache_instruction.md rule R382) are refused here.
Nothing in the machine depends on this check: the meaning of each such form is still given. -/

namespace Sys2Proof

/-- A link register that is also the tested or target register makes the instruction non-restartable
(45_jump_branch.md rules R573, R580). -/
def linkDistinct (link rs : RegNum) : Bool := link != rs

/-- The `CACHE` codes marked "NA" or not listed name no operation (41_cache_instruction.md rule R382). -/
def definedCacheOp : Instr → Bool
  | .cacheOp0C _ _ | .cacheOp0E _ _ | .cacheOp0F _ _ | .cacheOp12 _ _ | .cacheOp1A _ _
  | .cacheOp1C _ _ | .cacheOp1D _ _ | .cacheOp1E _ _ | .cacheOp1F _ _ => false
  | _ => true

/-- `SYNC` has `stype` = 0 (46_special_trap.md rule R603); the model ignores the field. -/
def syncTypeZero : Instr → Bool
  | .sync stype => stype == 0
  | _ => true

/-- The restartability check of the linking instructions. -/
def restartable : Instr → Bool
  | .jalr rs rd => linkDistinct rd rs
  | .bltzal rs _ | .bgezal rs _ | .bltzall rs _ | .bgezall rs _ => linkDistinct 31 rs
  | _ => true

/-- An instruction the spec's definition admits. -/
def Instr.WellFormed (i : Instr) : Bool := restartable i && definedCacheOp i && syncTypeZero i

end Sys2Proof
end

