-- ==== Sys2Proof/Laws/PerInstr.lean ====
section
/-! SUPPORT. The family `RoundTrip`: decoding an instruction's encoding gives the instruction back; one lemma per
constructor, over the fields of the encoding formats. -/

set_option Elab.async false

namespace Sys2Proof.Laws

/-! ## The fields of the formats -/

@[simp] theorem opF_rType (op : BitVec 6) (rs rt rd sa : BitVec 5) (fn : BitVec 6) : opF (rType op rs rt rd sa fn) = op := by
  simp only [opF, rType]
  ext i hi
  simp
  grind

@[simp] theorem rsF_rType (op : BitVec 6) (rs rt rd sa : BitVec 5) (fn : BitVec 6) : rsF (rType op rs rt rd sa fn) = rs := by
  simp only [rType, rsF]
  ext i hi
  simp
  grind

@[simp] theorem rtF_rType (op : BitVec 6) (rs rt rd sa : BitVec 5) (fn : BitVec 6) : rtF (rType op rs rt rd sa fn) = rt := by
  simp only [rType, rtF]
  ext i hi
  simp
  grind

@[simp] theorem rdF_rType (op : BitVec 6) (rs rt rd sa : BitVec 5) (fn : BitVec 6) : rdF (rType op rs rt rd sa fn) = rd := by
  simp only [rType, rdF]
  ext i hi
  simp
  grind

@[simp] theorem saF_rType (op : BitVec 6) (rs rt rd sa : BitVec 5) (fn : BitVec 6) : saF (rType op rs rt rd sa fn) = sa := by
  simp only [rType, saF]
  ext i hi
  simp
  grind

@[simp] theorem functF_rType (op : BitVec 6) (rs rt rd sa : BitVec 5) (fn : BitVec 6) : functF (rType op rs rt rd sa fn) = fn := by
  simp only [functF, rType]
  ext i hi
  simp
  grind

@[simp] theorem opF_iType (op : BitVec 6) (rs rt : BitVec 5) (imm : BitVec 16) : opF (iType op rs rt imm) = op := by
  simp only [iType, opF]
  ext i hi
  simp
  grind

@[simp] theorem rsF_iType (op : BitVec 6) (rs rt : BitVec 5) (imm : BitVec 16) : rsF (iType op rs rt imm) = rs := by
  simp only [iType, rsF]
  ext i hi
  simp
  grind

@[simp] theorem rtF_iType (op : BitVec 6) (rs rt : BitVec 5) (imm : BitVec 16) : rtF (iType op rs rt imm) = rt := by
  simp only [iType, rtF]
  ext i hi
  simp
  grind

@[simp] theorem immF_iType (op : BitVec 6) (rs rt : BitVec 5) (imm : BitVec 16) : immF (iType op rs rt imm) = imm := by
  simp only [iType, immF]
  ext i hi
  simp
  grind

@[simp] theorem opF_jType (op : BitVec 6) (t : BitVec 26) : opF (jType op t) = op := by
  simp only [jType, opF]
  ext i hi
  simp
  grind

@[simp] theorem targetF_jType (op : BitVec 6) (t : BitVec 26) : targetF (jType op t) = t := by
  simp only [jType, targetF]
  ext i hi
  simp
  grind

@[simp] theorem opF_codeType (c : BitVec 20) (fn : BitVec 6) : opF (codeType c fn) = 0#6 := by
  simp only [codeType, opF]
  ext i hi
  simp
  grind

@[simp] theorem codeF_codeType (c : BitVec 20) (fn : BitVec 6) : codeF (codeType c fn) = c := by
  simp only [codeF, codeType]
  ext i hi
  simp
  grind

@[simp] theorem functF_codeType (c : BitVec 20) (fn : BitVec 6) : functF (codeType c fn) = fn := by
  simp only [codeType, functF]
  ext i hi
  simp
  grind

@[simp] theorem opF_trapType (rs rt : BitVec 5) (c : BitVec 10) (fn : BitVec 6) : opF (trapType rs rt c fn) = 0#6 := by
  simp only [opF, trapType]
  ext i hi
  simp
  grind

@[simp] theorem rsF_trapType (rs rt : BitVec 5) (c : BitVec 10) (fn : BitVec 6) : rsF (trapType rs rt c fn) = rs := by
  simp only [rsF, trapType]
  ext i hi
  simp
  grind

@[simp] theorem rtF_trapType (rs rt : BitVec 5) (c : BitVec 10) (fn : BitVec 6) : rtF (trapType rs rt c fn) = rt := by
  simp only [rtF, trapType]
  ext i hi
  simp
  grind

@[simp] theorem trapCodeF_trapType (rs rt : BitVec 5) (c : BitVec 10) (fn : BitVec 6) : trapCodeF (trapType rs rt c fn) = c := by
  simp only [trapCodeF, trapType]
  ext i hi
  simp
  grind

@[simp] theorem functF_trapType (rs rt : BitVec 5) (c : BitVec 10) (fn : BitVec 6) : functF (trapType rs rt c fn) = fn := by
  simp only [functF, trapType]
  ext i hi
  simp
  grind

@[simp] theorem ccSlot_hi (cc : BitVec 3) (sel : BitVec 2) : (ccSlot cc sel).extractLsb' 2 3 = cc := by
  simp only [ccSlot]
  ext i hi
  simp
  grind

@[simp] theorem ccSlot_lo (cc : BitVec 3) (sel : BitVec 2) : (ccSlot cc sel).extractLsb' 0 2 = sel := by
  simp only [ccSlot]
  ext i hi
  simp
  grind

/-! ## The lemmas -/

/-- Decoding the encoding of an instruction gives the instruction back, in either byte order. -/
def RoundTrip.Statement (i : Instr) : Prop := decode (encode i) = .ok i

theorem decode_at0 (w : Word) (h : (opF w).toNat = 0) : decode w = decodeSpecial w := by
  unfold decode
  rw [h]
  rfl

theorem decode_at1 (w : Word) (h : (opF w).toNat = 1) : decode w = decodeRegimm w := by
  unfold decode
  rw [h]
  rfl

theorem decode_at17 (w : Word) (h : (opF w).toNat = 17) : decode w = decodeCop1 w := by
  unfold decode
  rw [h]
  rfl

theorem decode_at19 (w : Word) (h : (opF w).toNat = 19) : decode w = decodeCop1x w := by
  unfold decode
  rw [h]
  rfl

theorem decode_at28 (w : Word) (h : (opF w).toNat = 28) : decode w = decodeRm7000 w := by
  unfold decode
  rw [h]
  rfl

theorem decode_at47 (w : Word) (h : (opF w).toNat = 47) : decode w = .ok (decodeCache w) := by
  unfold decode
  rw [h]
  rfl

theorem decodeCop1_at16 (w : Word) (h : (rsF w).toNat = 16) : decodeCop1 w = decodeFmtS w := by
  unfold decodeCop1
  rw [h]
  rfl

theorem decodeCop1_at17 (w : Word) (h : (rsF w).toNat = 17) : decodeCop1 w = decodeFmtD w := by
  unfold decodeCop1
  rw [h]
  rfl

theorem decodeCop1_at21 (w : Word) (h : (rsF w).toNat = 21) : decodeCop1 w = decodeFmtL w := by
  unfold decodeCop1
  rw [h]
  rfl

theorem RoundTrip.add (rs rt rd : BitVec 5) : RoundTrip.Statement (.add rs rt rd) := by
  have h1 (w : Word) (h : (functF w).toNat = 32) : decodeSpecial w = .ok (.add (rsF w) (rtF w) (rdF w)) := by
    unfold decodeSpecial
    rw [h]
    rfl
  unfold RoundTrip.Statement encode
  rw [decode_at0 _ (by rw [opF_rType]; rfl), h1 _ (by rw [functF_rType]; rfl)]
  simp only [rdF_rType, rsF_rType, rtF_rType]

theorem RoundTrip.addu (rs rt rd : BitVec 5) : RoundTrip.Statement (.addu rs rt rd) := by
  have h1 (w : Word) (h : (functF w).toNat = 33) : decodeSpecial w = .ok (.addu (rsF w) (rtF w) (rdF w)) := by
    unfold decodeSpecial
    rw [h]
    rfl
  unfold RoundTrip.Statement encode
  rw [decode_at0 _ (by rw [opF_rType]; rfl), h1 _ (by rw [functF_rType]; rfl)]
  simp only [rdF_rType, rsF_rType, rtF_rType]

theorem RoundTrip.sub (rs rt rd : BitVec 5) : RoundTrip.Statement (.sub rs rt rd) := by
  have h1 (w : Word) (h : (functF w).toNat = 34) : decodeSpecial w = .ok (.sub (rsF w) (rtF w) (rdF w)) := by
    unfold decodeSpecial
    rw [h]
    rfl
  unfold RoundTrip.Statement encode
  rw [decode_at0 _ (by rw [opF_rType]; rfl), h1 _ (by rw [functF_rType]; rfl)]
  simp only [rdF_rType, rsF_rType, rtF_rType]

theorem RoundTrip.subu (rs rt rd : BitVec 5) : RoundTrip.Statement (.subu rs rt rd) := by
  have h1 (w : Word) (h : (functF w).toNat = 35) : decodeSpecial w = .ok (.subu (rsF w) (rtF w) (rdF w)) := by
    unfold decodeSpecial
    rw [h]
    rfl
  unfold RoundTrip.Statement encode
  rw [decode_at0 _ (by rw [opF_rType]; rfl), h1 _ (by rw [functF_rType]; rfl)]
  simp only [rdF_rType, rsF_rType, rtF_rType]

theorem RoundTrip.dadd (rs rt rd : BitVec 5) : RoundTrip.Statement (.dadd rs rt rd) := by
  have h1 (w : Word) (h : (functF w).toNat = 44) : decodeSpecial w = .ok (.dadd (rsF w) (rtF w) (rdF w)) := by
    unfold decodeSpecial
    rw [h]
    rfl
  unfold RoundTrip.Statement encode
  rw [decode_at0 _ (by rw [opF_rType]; rfl), h1 _ (by rw [functF_rType]; rfl)]
  simp only [rdF_rType, rsF_rType, rtF_rType]

theorem RoundTrip.daddu (rs rt rd : BitVec 5) : RoundTrip.Statement (.daddu rs rt rd) := by
  have h1 (w : Word) (h : (functF w).toNat = 45) : decodeSpecial w = .ok (.daddu (rsF w) (rtF w) (rdF w)) := by
    unfold decodeSpecial
    rw [h]
    rfl
  unfold RoundTrip.Statement encode
  rw [decode_at0 _ (by rw [opF_rType]; rfl), h1 _ (by rw [functF_rType]; rfl)]
  simp only [rdF_rType, rsF_rType, rtF_rType]

theorem RoundTrip.dsub (rs rt rd : BitVec 5) : RoundTrip.Statement (.dsub rs rt rd) := by
  have h1 (w : Word) (h : (functF w).toNat = 46) : decodeSpecial w = .ok (.dsub (rsF w) (rtF w) (rdF w)) := by
    unfold decodeSpecial
    rw [h]
    rfl
  unfold RoundTrip.Statement encode
  rw [decode_at0 _ (by rw [opF_rType]; rfl), h1 _ (by rw [functF_rType]; rfl)]
  simp only [rdF_rType, rsF_rType, rtF_rType]

theorem RoundTrip.dsubu (rs rt rd : BitVec 5) : RoundTrip.Statement (.dsubu rs rt rd) := by
  have h1 (w : Word) (h : (functF w).toNat = 47) : decodeSpecial w = .ok (.dsubu (rsF w) (rtF w) (rdF w)) := by
    unfold decodeSpecial
    rw [h]
    rfl
  unfold RoundTrip.Statement encode
  rw [decode_at0 _ (by rw [opF_rType]; rfl), h1 _ (by rw [functF_rType]; rfl)]
  simp only [rdF_rType, rsF_rType, rtF_rType]

theorem RoundTrip.slt (rs rt rd : BitVec 5) : RoundTrip.Statement (.slt rs rt rd) := by
  have h1 (w : Word) (h : (functF w).toNat = 42) : decodeSpecial w = .ok (.slt (rsF w) (rtF w) (rdF w)) := by
    unfold decodeSpecial
    rw [h]
    rfl
  unfold RoundTrip.Statement encode
  rw [decode_at0 _ (by rw [opF_rType]; rfl), h1 _ (by rw [functF_rType]; rfl)]
  simp only [rdF_rType, rsF_rType, rtF_rType]

theorem RoundTrip.sltu (rs rt rd : BitVec 5) : RoundTrip.Statement (.sltu rs rt rd) := by
  have h1 (w : Word) (h : (functF w).toNat = 43) : decodeSpecial w = .ok (.sltu (rsF w) (rtF w) (rdF w)) := by
    unfold decodeSpecial
    rw [h]
    rfl
  unfold RoundTrip.Statement encode
  rw [decode_at0 _ (by rw [opF_rType]; rfl), h1 _ (by rw [functF_rType]; rfl)]
  simp only [rdF_rType, rsF_rType, rtF_rType]

theorem RoundTrip.and (rs rt rd : BitVec 5) : RoundTrip.Statement (.and rs rt rd) := by
  have h1 (w : Word) (h : (functF w).toNat = 36) : decodeSpecial w = .ok (.and (rsF w) (rtF w) (rdF w)) := by
    unfold decodeSpecial
    rw [h]
    rfl
  unfold RoundTrip.Statement encode
  rw [decode_at0 _ (by rw [opF_rType]; rfl), h1 _ (by rw [functF_rType]; rfl)]
  simp only [rdF_rType, rsF_rType, rtF_rType]

theorem RoundTrip.or (rs rt rd : BitVec 5) : RoundTrip.Statement (.or rs rt rd) := by
  have h1 (w : Word) (h : (functF w).toNat = 37) : decodeSpecial w = .ok (.or (rsF w) (rtF w) (rdF w)) := by
    unfold decodeSpecial
    rw [h]
    rfl
  unfold RoundTrip.Statement encode
  rw [decode_at0 _ (by rw [opF_rType]; rfl), h1 _ (by rw [functF_rType]; rfl)]
  simp only [rdF_rType, rsF_rType, rtF_rType]

theorem RoundTrip.xor (rs rt rd : BitVec 5) : RoundTrip.Statement (.xor rs rt rd) := by
  have h1 (w : Word) (h : (functF w).toNat = 38) : decodeSpecial w = .ok (.xor (rsF w) (rtF w) (rdF w)) := by
    unfold decodeSpecial
    rw [h]
    rfl
  unfold RoundTrip.Statement encode
  rw [decode_at0 _ (by rw [opF_rType]; rfl), h1 _ (by rw [functF_rType]; rfl)]
  simp only [rdF_rType, rsF_rType, rtF_rType]

theorem RoundTrip.nor (rs rt rd : BitVec 5) : RoundTrip.Statement (.nor rs rt rd) := by
  have h1 (w : Word) (h : (functF w).toNat = 39) : decodeSpecial w = .ok (.nor (rsF w) (rtF w) (rdF w)) := by
    unfold decodeSpecial
    rw [h]
    rfl
  unfold RoundTrip.Statement encode
  rw [decode_at0 _ (by rw [opF_rType]; rfl), h1 _ (by rw [functF_rType]; rfl)]
  simp only [rdF_rType, rsF_rType, rtF_rType]

theorem RoundTrip.sllv (rs rt rd : BitVec 5) : RoundTrip.Statement (.sllv rs rt rd) := by
  have h1 (w : Word) (h : (functF w).toNat = 4) : decodeSpecial w = .ok (.sllv (rsF w) (rtF w) (rdF w)) := by
    unfold decodeSpecial
    rw [h]
    rfl
  unfold RoundTrip.Statement encode
  rw [decode_at0 _ (by rw [opF_rType]; rfl), h1 _ (by rw [functF_rType]; rfl)]
  simp only [rdF_rType, rsF_rType, rtF_rType]

theorem RoundTrip.srlv (rs rt rd : BitVec 5) : RoundTrip.Statement (.srlv rs rt rd) := by
  have h1 (w : Word) (h : (functF w).toNat = 6) : decodeSpecial w = .ok (.srlv (rsF w) (rtF w) (rdF w)) := by
    unfold decodeSpecial
    rw [h]
    rfl
  unfold RoundTrip.Statement encode
  rw [decode_at0 _ (by rw [opF_rType]; rfl), h1 _ (by rw [functF_rType]; rfl)]
  simp only [rdF_rType, rsF_rType, rtF_rType]

theorem RoundTrip.srav (rs rt rd : BitVec 5) : RoundTrip.Statement (.srav rs rt rd) := by
  have h1 (w : Word) (h : (functF w).toNat = 7) : decodeSpecial w = .ok (.srav (rsF w) (rtF w) (rdF w)) := by
    unfold decodeSpecial
    rw [h]
    rfl
  unfold RoundTrip.Statement encode
  rw [decode_at0 _ (by rw [opF_rType]; rfl), h1 _ (by rw [functF_rType]; rfl)]
  simp only [rdF_rType, rsF_rType, rtF_rType]

theorem RoundTrip.dsllv (rs rt rd : BitVec 5) : RoundTrip.Statement (.dsllv rs rt rd) := by
  have h1 (w : Word) (h : (functF w).toNat = 20) : decodeSpecial w = .ok (.dsllv (rsF w) (rtF w) (rdF w)) := by
    unfold decodeSpecial
    rw [h]
    rfl
  unfold RoundTrip.Statement encode
  rw [decode_at0 _ (by rw [opF_rType]; rfl), h1 _ (by rw [functF_rType]; rfl)]
  simp only [rdF_rType, rsF_rType, rtF_rType]

theorem RoundTrip.dsrlv (rs rt rd : BitVec 5) : RoundTrip.Statement (.dsrlv rs rt rd) := by
  have h1 (w : Word) (h : (functF w).toNat = 22) : decodeSpecial w = .ok (.dsrlv (rsF w) (rtF w) (rdF w)) := by
    unfold decodeSpecial
    rw [h]
    rfl
  unfold RoundTrip.Statement encode
  rw [decode_at0 _ (by rw [opF_rType]; rfl), h1 _ (by rw [functF_rType]; rfl)]
  simp only [rdF_rType, rsF_rType, rtF_rType]

theorem RoundTrip.dsrav (rs rt rd : BitVec 5) : RoundTrip.Statement (.dsrav rs rt rd) := by
  have h1 (w : Word) (h : (functF w).toNat = 23) : decodeSpecial w = .ok (.dsrav (rsF w) (rtF w) (rdF w)) := by
    unfold decodeSpecial
    rw [h]
    rfl
  unfold RoundTrip.Statement encode
  rw [decode_at0 _ (by rw [opF_rType]; rfl), h1 _ (by rw [functF_rType]; rfl)]
  simp only [rdF_rType, rsF_rType, rtF_rType]

theorem RoundTrip.movn (rs rt rd : BitVec 5) : RoundTrip.Statement (.movn rs rt rd) := by
  have h1 (w : Word) (h : (functF w).toNat = 11) : decodeSpecial w = .ok (.movn (rsF w) (rtF w) (rdF w)) := by
    unfold decodeSpecial
    rw [h]
    rfl
  unfold RoundTrip.Statement encode
  rw [decode_at0 _ (by rw [opF_rType]; rfl), h1 _ (by rw [functF_rType]; rfl)]
  simp only [rdF_rType, rsF_rType, rtF_rType]

theorem RoundTrip.movz (rs rt rd : BitVec 5) : RoundTrip.Statement (.movz rs rt rd) := by
  have h1 (w : Word) (h : (functF w).toNat = 10) : decodeSpecial w = .ok (.movz (rsF w) (rtF w) (rdF w)) := by
    unfold decodeSpecial
    rw [h]
    rfl
  unfold RoundTrip.Statement encode
  rw [decode_at0 _ (by rw [opF_rType]; rfl), h1 _ (by rw [functF_rType]; rfl)]
  simp only [rdF_rType, rsF_rType, rtF_rType]

theorem RoundTrip.sll (rt rd sa : BitVec 5) : RoundTrip.Statement (.sll rt rd sa) := by
  have h1 (w : Word) (h : (functF w).toNat = 0) : decodeSpecial w = .ok (.sll (rtF w) (rdF w) (saF w)) := by
    unfold decodeSpecial
    rw [h]
    rfl
  unfold RoundTrip.Statement encode
  rw [decode_at0 _ (by rw [opF_rType]; rfl), h1 _ (by rw [functF_rType]; rfl)]
  simp only [rdF_rType, rtF_rType, saF_rType]

theorem RoundTrip.srl (rt rd sa : BitVec 5) : RoundTrip.Statement (.srl rt rd sa) := by
  have h1 (w : Word) (h : (functF w).toNat = 2) : decodeSpecial w = .ok (.srl (rtF w) (rdF w) (saF w)) := by
    unfold decodeSpecial
    rw [h]
    rfl
  unfold RoundTrip.Statement encode
  rw [decode_at0 _ (by rw [opF_rType]; rfl), h1 _ (by rw [functF_rType]; rfl)]
  simp only [rdF_rType, rtF_rType, saF_rType]

theorem RoundTrip.sra (rt rd sa : BitVec 5) : RoundTrip.Statement (.sra rt rd sa) := by
  have h1 (w : Word) (h : (functF w).toNat = 3) : decodeSpecial w = .ok (.sra (rtF w) (rdF w) (saF w)) := by
    unfold decodeSpecial
    rw [h]
    rfl
  unfold RoundTrip.Statement encode
  rw [decode_at0 _ (by rw [opF_rType]; rfl), h1 _ (by rw [functF_rType]; rfl)]
  simp only [rdF_rType, rtF_rType, saF_rType]

theorem RoundTrip.dsll (rt rd sa : BitVec 5) : RoundTrip.Statement (.dsll rt rd sa) := by
  have h1 (w : Word) (h : (functF w).toNat = 56) : decodeSpecial w = .ok (.dsll (rtF w) (rdF w) (saF w)) := by
    unfold decodeSpecial
    rw [h]
    rfl
  unfold RoundTrip.Statement encode
  rw [decode_at0 _ (by rw [opF_rType]; rfl), h1 _ (by rw [functF_rType]; rfl)]
  simp only [rdF_rType, rtF_rType, saF_rType]

theorem RoundTrip.dsrl (rt rd sa : BitVec 5) : RoundTrip.Statement (.dsrl rt rd sa) := by
  have h1 (w : Word) (h : (functF w).toNat = 58) : decodeSpecial w = .ok (.dsrl (rtF w) (rdF w) (saF w)) := by
    unfold decodeSpecial
    rw [h]
    rfl
  unfold RoundTrip.Statement encode
  rw [decode_at0 _ (by rw [opF_rType]; rfl), h1 _ (by rw [functF_rType]; rfl)]
  simp only [rdF_rType, rtF_rType, saF_rType]

theorem RoundTrip.dsra (rt rd sa : BitVec 5) : RoundTrip.Statement (.dsra rt rd sa) := by
  have h1 (w : Word) (h : (functF w).toNat = 59) : decodeSpecial w = .ok (.dsra (rtF w) (rdF w) (saF w)) := by
    unfold decodeSpecial
    rw [h]
    rfl
  unfold RoundTrip.Statement encode
  rw [decode_at0 _ (by rw [opF_rType]; rfl), h1 _ (by rw [functF_rType]; rfl)]
  simp only [rdF_rType, rtF_rType, saF_rType]

theorem RoundTrip.dsll32 (rt rd sa : BitVec 5) : RoundTrip.Statement (.dsll32 rt rd sa) := by
  have h1 (w : Word) (h : (functF w).toNat = 60) : decodeSpecial w = .ok (.dsll32 (rtF w) (rdF w) (saF w)) := by
    unfold decodeSpecial
    rw [h]
    rfl
  unfold RoundTrip.Statement encode
  rw [decode_at0 _ (by rw [opF_rType]; rfl), h1 _ (by rw [functF_rType]; rfl)]
  simp only [rdF_rType, rtF_rType, saF_rType]

theorem RoundTrip.dsrl32 (rt rd sa : BitVec 5) : RoundTrip.Statement (.dsrl32 rt rd sa) := by
  have h1 (w : Word) (h : (functF w).toNat = 62) : decodeSpecial w = .ok (.dsrl32 (rtF w) (rdF w) (saF w)) := by
    unfold decodeSpecial
    rw [h]
    rfl
  unfold RoundTrip.Statement encode
  rw [decode_at0 _ (by rw [opF_rType]; rfl), h1 _ (by rw [functF_rType]; rfl)]
  simp only [rdF_rType, rtF_rType, saF_rType]

theorem RoundTrip.dsra32 (rt rd sa : BitVec 5) : RoundTrip.Statement (.dsra32 rt rd sa) := by
  have h1 (w : Word) (h : (functF w).toNat = 63) : decodeSpecial w = .ok (.dsra32 (rtF w) (rdF w) (saF w)) := by
    unfold decodeSpecial
    rw [h]
    rfl
  unfold RoundTrip.Statement encode
  rw [decode_at0 _ (by rw [opF_rType]; rfl), h1 _ (by rw [functF_rType]; rfl)]
  simp only [rdF_rType, rtF_rType, saF_rType]

theorem RoundTrip.mult (rs rt : BitVec 5) : RoundTrip.Statement (.mult rs rt) := by
  have h1 (w : Word) (h : (functF w).toNat = 24) : decodeSpecial w = .ok (.mult (rsF w) (rtF w)) := by
    unfold decodeSpecial
    rw [h]
    rfl
  unfold RoundTrip.Statement encode
  rw [decode_at0 _ (by rw [opF_rType]; rfl), h1 _ (by rw [functF_rType]; rfl)]
  simp only [rsF_rType, rtF_rType]

theorem RoundTrip.multu (rs rt : BitVec 5) : RoundTrip.Statement (.multu rs rt) := by
  have h1 (w : Word) (h : (functF w).toNat = 25) : decodeSpecial w = .ok (.multu (rsF w) (rtF w)) := by
    unfold decodeSpecial
    rw [h]
    rfl
  unfold RoundTrip.Statement encode
  rw [decode_at0 _ (by rw [opF_rType]; rfl), h1 _ (by rw [functF_rType]; rfl)]
  simp only [rsF_rType, rtF_rType]

theorem RoundTrip.div (rs rt : BitVec 5) : RoundTrip.Statement (.div rs rt) := by
  have h1 (w : Word) (h : (functF w).toNat = 26) : decodeSpecial w = .ok (.div (rsF w) (rtF w)) := by
    unfold decodeSpecial
    rw [h]
    rfl
  unfold RoundTrip.Statement encode
  rw [decode_at0 _ (by rw [opF_rType]; rfl), h1 _ (by rw [functF_rType]; rfl)]
  simp only [rsF_rType, rtF_rType]

theorem RoundTrip.divu (rs rt : BitVec 5) : RoundTrip.Statement (.divu rs rt) := by
  have h1 (w : Word) (h : (functF w).toNat = 27) : decodeSpecial w = .ok (.divu (rsF w) (rtF w)) := by
    unfold decodeSpecial
    rw [h]
    rfl
  unfold RoundTrip.Statement encode
  rw [decode_at0 _ (by rw [opF_rType]; rfl), h1 _ (by rw [functF_rType]; rfl)]
  simp only [rsF_rType, rtF_rType]

theorem RoundTrip.dmult (rs rt : BitVec 5) : RoundTrip.Statement (.dmult rs rt) := by
  have h1 (w : Word) (h : (functF w).toNat = 28) : decodeSpecial w = .ok (.dmult (rsF w) (rtF w)) := by
    unfold decodeSpecial
    rw [h]
    rfl
  unfold RoundTrip.Statement encode
  rw [decode_at0 _ (by rw [opF_rType]; rfl), h1 _ (by rw [functF_rType]; rfl)]
  simp only [rsF_rType, rtF_rType]

theorem RoundTrip.dmultu (rs rt : BitVec 5) : RoundTrip.Statement (.dmultu rs rt) := by
  have h1 (w : Word) (h : (functF w).toNat = 29) : decodeSpecial w = .ok (.dmultu (rsF w) (rtF w)) := by
    unfold decodeSpecial
    rw [h]
    rfl
  unfold RoundTrip.Statement encode
  rw [decode_at0 _ (by rw [opF_rType]; rfl), h1 _ (by rw [functF_rType]; rfl)]
  simp only [rsF_rType, rtF_rType]

theorem RoundTrip.ddiv (rs rt : BitVec 5) : RoundTrip.Statement (.ddiv rs rt) := by
  have h1 (w : Word) (h : (functF w).toNat = 30) : decodeSpecial w = .ok (.ddiv (rsF w) (rtF w)) := by
    unfold decodeSpecial
    rw [h]
    rfl
  unfold RoundTrip.Statement encode
  rw [decode_at0 _ (by rw [opF_rType]; rfl), h1 _ (by rw [functF_rType]; rfl)]
  simp only [rsF_rType, rtF_rType]

theorem RoundTrip.ddivu (rs rt : BitVec 5) : RoundTrip.Statement (.ddivu rs rt) := by
  have h1 (w : Word) (h : (functF w).toNat = 31) : decodeSpecial w = .ok (.ddivu (rsF w) (rtF w)) := by
    unfold decodeSpecial
    rw [h]
    rfl
  unfold RoundTrip.Statement encode
  rw [decode_at0 _ (by rw [opF_rType]; rfl), h1 _ (by rw [functF_rType]; rfl)]
  simp only [rsF_rType, rtF_rType]

theorem RoundTrip.mfhi (rd : BitVec 5) : RoundTrip.Statement (.mfhi rd) := by
  have h1 (w : Word) (h : (functF w).toNat = 16) : decodeSpecial w = .ok (.mfhi (rdF w)) := by
    unfold decodeSpecial
    rw [h]
    rfl
  unfold RoundTrip.Statement encode
  rw [decode_at0 _ (by rw [opF_rType]; rfl), h1 _ (by rw [functF_rType]; rfl)]
  simp only [rdF_rType]

theorem RoundTrip.mthi (rs : BitVec 5) : RoundTrip.Statement (.mthi rs) := by
  have h1 (w : Word) (h : (functF w).toNat = 17) : decodeSpecial w = .ok (.mthi (rsF w)) := by
    unfold decodeSpecial
    rw [h]
    rfl
  unfold RoundTrip.Statement encode
  rw [decode_at0 _ (by rw [opF_rType]; rfl), h1 _ (by rw [functF_rType]; rfl)]
  simp only [rsF_rType]

theorem RoundTrip.mflo (rd : BitVec 5) : RoundTrip.Statement (.mflo rd) := by
  have h1 (w : Word) (h : (functF w).toNat = 18) : decodeSpecial w = .ok (.mflo (rdF w)) := by
    unfold decodeSpecial
    rw [h]
    rfl
  unfold RoundTrip.Statement encode
  rw [decode_at0 _ (by rw [opF_rType]; rfl), h1 _ (by rw [functF_rType]; rfl)]
  simp only [rdF_rType]

theorem RoundTrip.mtlo (rs : BitVec 5) : RoundTrip.Statement (.mtlo rs) := by
  have h1 (w : Word) (h : (functF w).toNat = 19) : decodeSpecial w = .ok (.mtlo (rsF w)) := by
    unfold decodeSpecial
    rw [h]
    rfl
  unfold RoundTrip.Statement encode
  rw [decode_at0 _ (by rw [opF_rType]; rfl), h1 _ (by rw [functF_rType]; rfl)]
  simp only [rsF_rType]

theorem RoundTrip.jr (rs : BitVec 5) : RoundTrip.Statement (.jr rs) := by
  have h1 (w : Word) (h : (functF w).toNat = 8) : decodeSpecial w = .ok (.jr (rsF w)) := by
    unfold decodeSpecial
    rw [h]
    rfl
  unfold RoundTrip.Statement encode
  rw [decode_at0 _ (by rw [opF_rType]; rfl), h1 _ (by rw [functF_rType]; rfl)]
  simp only [rsF_rType]

theorem RoundTrip.jalr (rs rd : BitVec 5) : RoundTrip.Statement (.jalr rs rd) := by
  have h1 (w : Word) (h : (functF w).toNat = 9) : decodeSpecial w = .ok (.jalr (rsF w) (rdF w)) := by
    unfold decodeSpecial
    rw [h]
    rfl
  unfold RoundTrip.Statement encode
  rw [decode_at0 _ (by rw [opF_rType]; rfl), h1 _ (by rw [functF_rType]; rfl)]
  simp only [rdF_rType, rsF_rType]

theorem RoundTrip.movf (rs : BitVec 5) (cc : BitVec 3) (rd : BitVec 5) : RoundTrip.Statement (.movf rs cc rd) := by
  simp [RoundTrip.Statement, encode, decode, decodeSpecial, tfF, ccHiF]

theorem RoundTrip.movt (rs : BitVec 5) (cc : BitVec 3) (rd : BitVec 5) : RoundTrip.Statement (.movt rs cc rd) := by
  simp [RoundTrip.Statement, encode, decode, decodeSpecial, tfF, ccHiF]

theorem RoundTrip.syscall (code : BitVec 20) : RoundTrip.Statement (.syscall code) := by
  have h1 (w : Word) (h : (functF w).toNat = 12) : decodeSpecial w = .ok (.syscall (codeF w)) := by
    unfold decodeSpecial
    rw [h]
    rfl
  unfold RoundTrip.Statement encode
  rw [decode_at0 _ (by rw [opF_codeType]; rfl), h1 _ (by rw [functF_codeType]; rfl)]
  simp only [codeF_codeType]

theorem RoundTrip.brk (code : BitVec 20) : RoundTrip.Statement (.brk code) := by
  have h1 (w : Word) (h : (functF w).toNat = 13) : decodeSpecial w = .ok (.brk (codeF w)) := by
    unfold decodeSpecial
    rw [h]
    rfl
  unfold RoundTrip.Statement encode
  rw [decode_at0 _ (by rw [opF_codeType]; rfl), h1 _ (by rw [functF_codeType]; rfl)]
  simp only [codeF_codeType]

theorem RoundTrip.sync (stype : BitVec 5) : RoundTrip.Statement (.sync stype) := by
  have h1 (w : Word) (h : (functF w).toNat = 15) : decodeSpecial w = .ok (.sync (saF w)) := by
    unfold decodeSpecial
    rw [h]
    rfl
  unfold RoundTrip.Statement encode
  rw [decode_at0 _ (by rw [opF_rType]; rfl), h1 _ (by rw [functF_rType]; rfl)]
  simp only [saF_rType]

theorem RoundTrip.tge (rs rt : BitVec 5) (code : BitVec 10) : RoundTrip.Statement (.tge rs rt code) := by
  have h1 (w : Word) (h : (functF w).toNat = 48) : decodeSpecial w = .ok (.tge (rsF w) (rtF w) (trapCodeF w)) := by
    unfold decodeSpecial
    rw [h]
    rfl
  unfold RoundTrip.Statement encode
  rw [decode_at0 _ (by rw [opF_trapType]; rfl), h1 _ (by rw [functF_trapType]; rfl)]
  simp only [rsF_trapType, rtF_trapType, trapCodeF_trapType]

theorem RoundTrip.tgeu (rs rt : BitVec 5) (code : BitVec 10) : RoundTrip.Statement (.tgeu rs rt code) := by
  have h1 (w : Word) (h : (functF w).toNat = 49) : decodeSpecial w = .ok (.tgeu (rsF w) (rtF w) (trapCodeF w)) := by
    unfold decodeSpecial
    rw [h]
    rfl
  unfold RoundTrip.Statement encode
  rw [decode_at0 _ (by rw [opF_trapType]; rfl), h1 _ (by rw [functF_trapType]; rfl)]
  simp only [rsF_trapType, rtF_trapType, trapCodeF_trapType]

theorem RoundTrip.tlt (rs rt : BitVec 5) (code : BitVec 10) : RoundTrip.Statement (.tlt rs rt code) := by
  have h1 (w : Word) (h : (functF w).toNat = 50) : decodeSpecial w = .ok (.tlt (rsF w) (rtF w) (trapCodeF w)) := by
    unfold decodeSpecial
    rw [h]
    rfl
  unfold RoundTrip.Statement encode
  rw [decode_at0 _ (by rw [opF_trapType]; rfl), h1 _ (by rw [functF_trapType]; rfl)]
  simp only [rsF_trapType, rtF_trapType, trapCodeF_trapType]

theorem RoundTrip.tltu (rs rt : BitVec 5) (code : BitVec 10) : RoundTrip.Statement (.tltu rs rt code) := by
  have h1 (w : Word) (h : (functF w).toNat = 51) : decodeSpecial w = .ok (.tltu (rsF w) (rtF w) (trapCodeF w)) := by
    unfold decodeSpecial
    rw [h]
    rfl
  unfold RoundTrip.Statement encode
  rw [decode_at0 _ (by rw [opF_trapType]; rfl), h1 _ (by rw [functF_trapType]; rfl)]
  simp only [rsF_trapType, rtF_trapType, trapCodeF_trapType]

theorem RoundTrip.teq (rs rt : BitVec 5) (code : BitVec 10) : RoundTrip.Statement (.teq rs rt code) := by
  have h1 (w : Word) (h : (functF w).toNat = 52) : decodeSpecial w = .ok (.teq (rsF w) (rtF w) (trapCodeF w)) := by
    unfold decodeSpecial
    rw [h]
    rfl
  unfold RoundTrip.Statement encode
  rw [decode_at0 _ (by rw [opF_trapType]; rfl), h1 _ (by rw [functF_trapType]; rfl)]
  simp only [rsF_trapType, rtF_trapType, trapCodeF_trapType]

theorem RoundTrip.tne (rs rt : BitVec 5) (code : BitVec 10) : RoundTrip.Statement (.tne rs rt code) := by
  have h1 (w : Word) (h : (functF w).toNat = 54) : decodeSpecial w = .ok (.tne (rsF w) (rtF w) (trapCodeF w)) := by
    unfold decodeSpecial
    rw [h]
    rfl
  unfold RoundTrip.Statement encode
  rw [decode_at0 _ (by rw [opF_trapType]; rfl), h1 _ (by rw [functF_trapType]; rfl)]
  simp only [rsF_trapType, rtF_trapType, trapCodeF_trapType]

theorem RoundTrip.bltz (rs : BitVec 5) (offset : BitVec 16) : RoundTrip.Statement (.bltz rs offset) := by
  have h1 (w : Word) (h : (rtF w).toNat = 0) : decodeRegimm w = .ok (.bltz (rsF w) (immF w)) := by
    unfold decodeRegimm
    rw [h]
    rfl
  unfold RoundTrip.Statement encode
  rw [decode_at1 _ (by rw [opF_iType]; rfl), h1 _ (by rw [rtF_iType]; rfl)]
  simp only [immF_iType, rsF_iType]

theorem RoundTrip.bgez (rs : BitVec 5) (offset : BitVec 16) : RoundTrip.Statement (.bgez rs offset) := by
  have h1 (w : Word) (h : (rtF w).toNat = 1) : decodeRegimm w = .ok (.bgez (rsF w) (immF w)) := by
    unfold decodeRegimm
    rw [h]
    rfl
  unfold RoundTrip.Statement encode
  rw [decode_at1 _ (by rw [opF_iType]; rfl), h1 _ (by rw [rtF_iType]; rfl)]
  simp only [immF_iType, rsF_iType]

theorem RoundTrip.bltzl (rs : BitVec 5) (offset : BitVec 16) : RoundTrip.Statement (.bltzl rs offset) := by
  have h1 (w : Word) (h : (rtF w).toNat = 2) : decodeRegimm w = .ok (.bltzl (rsF w) (immF w)) := by
    unfold decodeRegimm
    rw [h]
    rfl
  unfold RoundTrip.Statement encode
  rw [decode_at1 _ (by rw [opF_iType]; rfl), h1 _ (by rw [rtF_iType]; rfl)]
  simp only [immF_iType, rsF_iType]

theorem RoundTrip.bgezl (rs : BitVec 5) (offset : BitVec 16) : RoundTrip.Statement (.bgezl rs offset) := by
  have h1 (w : Word) (h : (rtF w).toNat = 3) : decodeRegimm w = .ok (.bgezl (rsF w) (immF w)) := by
    unfold decodeRegimm
    rw [h]
    rfl
  unfold RoundTrip.Statement encode
  rw [decode_at1 _ (by rw [opF_iType]; rfl), h1 _ (by rw [rtF_iType]; rfl)]
  simp only [immF_iType, rsF_iType]

theorem RoundTrip.bltzal (rs : BitVec 5) (offset : BitVec 16) : RoundTrip.Statement (.bltzal rs offset) := by
  have h1 (w : Word) (h : (rtF w).toNat = 16) : decodeRegimm w = .ok (.bltzal (rsF w) (immF w)) := by
    unfold decodeRegimm
    rw [h]
    rfl
  unfold RoundTrip.Statement encode
  rw [decode_at1 _ (by rw [opF_iType]; rfl), h1 _ (by rw [rtF_iType]; rfl)]
  simp only [immF_iType, rsF_iType]

theorem RoundTrip.bgezal (rs : BitVec 5) (offset : BitVec 16) : RoundTrip.Statement (.bgezal rs offset) := by
  have h1 (w : Word) (h : (rtF w).toNat = 17) : decodeRegimm w = .ok (.bgezal (rsF w) (immF w)) := by
    unfold decodeRegimm
    rw [h]
    rfl
  unfold RoundTrip.Statement encode
  rw [decode_at1 _ (by rw [opF_iType]; rfl), h1 _ (by rw [rtF_iType]; rfl)]
  simp only [immF_iType, rsF_iType]

theorem RoundTrip.bltzall (rs : BitVec 5) (offset : BitVec 16) : RoundTrip.Statement (.bltzall rs offset) := by
  have h1 (w : Word) (h : (rtF w).toNat = 18) : decodeRegimm w = .ok (.bltzall (rsF w) (immF w)) := by
    unfold decodeRegimm
    rw [h]
    rfl
  unfold RoundTrip.Statement encode
  rw [decode_at1 _ (by rw [opF_iType]; rfl), h1 _ (by rw [rtF_iType]; rfl)]
  simp only [immF_iType, rsF_iType]

theorem RoundTrip.bgezall (rs : BitVec 5) (offset : BitVec 16) : RoundTrip.Statement (.bgezall rs offset) := by
  have h1 (w : Word) (h : (rtF w).toNat = 19) : decodeRegimm w = .ok (.bgezall (rsF w) (immF w)) := by
    unfold decodeRegimm
    rw [h]
    rfl
  unfold RoundTrip.Statement encode
  rw [decode_at1 _ (by rw [opF_iType]; rfl), h1 _ (by rw [rtF_iType]; rfl)]
  simp only [immF_iType, rsF_iType]

theorem RoundTrip.tgei (rs : BitVec 5) (imm : BitVec 16) : RoundTrip.Statement (.tgei rs imm) := by
  have h1 (w : Word) (h : (rtF w).toNat = 8) : decodeRegimm w = .ok (.tgei (rsF w) (immF w)) := by
    unfold decodeRegimm
    rw [h]
    rfl
  unfold RoundTrip.Statement encode
  rw [decode_at1 _ (by rw [opF_iType]; rfl), h1 _ (by rw [rtF_iType]; rfl)]
  simp only [immF_iType, rsF_iType]

theorem RoundTrip.tgeiu (rs : BitVec 5) (imm : BitVec 16) : RoundTrip.Statement (.tgeiu rs imm) := by
  have h1 (w : Word) (h : (rtF w).toNat = 9) : decodeRegimm w = .ok (.tgeiu (rsF w) (immF w)) := by
    unfold decodeRegimm
    rw [h]
    rfl
  unfold RoundTrip.Statement encode
  rw [decode_at1 _ (by rw [opF_iType]; rfl), h1 _ (by rw [rtF_iType]; rfl)]
  simp only [immF_iType, rsF_iType]

theorem RoundTrip.tlti (rs : BitVec 5) (imm : BitVec 16) : RoundTrip.Statement (.tlti rs imm) := by
  have h1 (w : Word) (h : (rtF w).toNat = 10) : decodeRegimm w = .ok (.tlti (rsF w) (immF w)) := by
    unfold decodeRegimm
    rw [h]
    rfl
  unfold RoundTrip.Statement encode
  rw [decode_at1 _ (by rw [opF_iType]; rfl), h1 _ (by rw [rtF_iType]; rfl)]
  simp only [immF_iType, rsF_iType]

theorem RoundTrip.tltiu (rs : BitVec 5) (imm : BitVec 16) : RoundTrip.Statement (.tltiu rs imm) := by
  have h1 (w : Word) (h : (rtF w).toNat = 11) : decodeRegimm w = .ok (.tltiu (rsF w) (immF w)) := by
    unfold decodeRegimm
    rw [h]
    rfl
  unfold RoundTrip.Statement encode
  rw [decode_at1 _ (by rw [opF_iType]; rfl), h1 _ (by rw [rtF_iType]; rfl)]
  simp only [immF_iType, rsF_iType]

theorem RoundTrip.teqi (rs : BitVec 5) (imm : BitVec 16) : RoundTrip.Statement (.teqi rs imm) := by
  have h1 (w : Word) (h : (rtF w).toNat = 12) : decodeRegimm w = .ok (.teqi (rsF w) (immF w)) := by
    unfold decodeRegimm
    rw [h]
    rfl
  unfold RoundTrip.Statement encode
  rw [decode_at1 _ (by rw [opF_iType]; rfl), h1 _ (by rw [rtF_iType]; rfl)]
  simp only [immF_iType, rsF_iType]

theorem RoundTrip.tnei (rs : BitVec 5) (imm : BitVec 16) : RoundTrip.Statement (.tnei rs imm) := by
  have h1 (w : Word) (h : (rtF w).toNat = 14) : decodeRegimm w = .ok (.tnei (rsF w) (immF w)) := by
    unfold decodeRegimm
    rw [h]
    rfl
  unfold RoundTrip.Statement encode
  rw [decode_at1 _ (by rw [opF_iType]; rfl), h1 _ (by rw [rtF_iType]; rfl)]
  simp only [immF_iType, rsF_iType]

theorem RoundTrip.j (target : BitVec 26) : RoundTrip.Statement (.j target) := by
  have h0 (w : Word) (h : (opF w).toNat = 2) : decode w = .ok (.j (targetF w)) := by
    unfold decode
    rw [h]
    rfl
  unfold RoundTrip.Statement encode
  rw [h0 _ (by rw [opF_jType]; rfl)]
  simp only [targetF_jType]

theorem RoundTrip.jal (target : BitVec 26) : RoundTrip.Statement (.jal target) := by
  have h0 (w : Word) (h : (opF w).toNat = 3) : decode w = .ok (.jal (targetF w)) := by
    unfold decode
    rw [h]
    rfl
  unfold RoundTrip.Statement encode
  rw [h0 _ (by rw [opF_jType]; rfl)]
  simp only [targetF_jType]

theorem RoundTrip.beq (rs rt : BitVec 5) (offset : BitVec 16) : RoundTrip.Statement (.beq rs rt offset) := by
  have h0 (w : Word) (h : (opF w).toNat = 4) : decode w = .ok (.beq (rsF w) (rtF w) (immF w)) := by
    unfold decode
    rw [h]
    rfl
  unfold RoundTrip.Statement encode
  rw [h0 _ (by rw [opF_iType]; rfl)]
  simp only [immF_iType, rsF_iType, rtF_iType]

theorem RoundTrip.bne (rs rt : BitVec 5) (offset : BitVec 16) : RoundTrip.Statement (.bne rs rt offset) := by
  have h0 (w : Word) (h : (opF w).toNat = 5) : decode w = .ok (.bne (rsF w) (rtF w) (immF w)) := by
    unfold decode
    rw [h]
    rfl
  unfold RoundTrip.Statement encode
  rw [h0 _ (by rw [opF_iType]; rfl)]
  simp only [immF_iType, rsF_iType, rtF_iType]

theorem RoundTrip.blez (rs : BitVec 5) (offset : BitVec 16) : RoundTrip.Statement (.blez rs offset) := by
  have h0 (w : Word) (h : (opF w).toNat = 6) : decode w = .ok (.blez (rsF w) (immF w)) := by
    unfold decode
    rw [h]
    rfl
  unfold RoundTrip.Statement encode
  rw [h0 _ (by rw [opF_iType]; rfl)]
  simp only [immF_iType, rsF_iType]

theorem RoundTrip.bgtz (rs : BitVec 5) (offset : BitVec 16) : RoundTrip.Statement (.bgtz rs offset) := by
  have h0 (w : Word) (h : (opF w).toNat = 7) : decode w = .ok (.bgtz (rsF w) (immF w)) := by
    unfold decode
    rw [h]
    rfl
  unfold RoundTrip.Statement encode
  rw [h0 _ (by rw [opF_iType]; rfl)]
  simp only [immF_iType, rsF_iType]

theorem RoundTrip.beql (rs rt : BitVec 5) (offset : BitVec 16) : RoundTrip.Statement (.beql rs rt offset) := by
  have h0 (w : Word) (h : (opF w).toNat = 20) : decode w = .ok (.beql (rsF w) (rtF w) (immF w)) := by
    unfold decode
    rw [h]
    rfl
  unfold RoundTrip.Statement encode
  rw [h0 _ (by rw [opF_iType]; rfl)]
  simp only [immF_iType, rsF_iType, rtF_iType]

theorem RoundTrip.bnel (rs rt : BitVec 5) (offset : BitVec 16) : RoundTrip.Statement (.bnel rs rt offset) := by
  have h0 (w : Word) (h : (opF w).toNat = 21) : decode w = .ok (.bnel (rsF w) (rtF w) (immF w)) := by
    unfold decode
    rw [h]
    rfl
  unfold RoundTrip.Statement encode
  rw [h0 _ (by rw [opF_iType]; rfl)]
  simp only [immF_iType, rsF_iType, rtF_iType]

theorem RoundTrip.blezl (rs : BitVec 5) (offset : BitVec 16) : RoundTrip.Statement (.blezl rs offset) := by
  have h0 (w : Word) (h : (opF w).toNat = 22) : decode w = .ok (.blezl (rsF w) (immF w)) := by
    unfold decode
    rw [h]
    rfl
  unfold RoundTrip.Statement encode
  rw [h0 _ (by rw [opF_iType]; rfl)]
  simp only [immF_iType, rsF_iType]

theorem RoundTrip.bgtzl (rs : BitVec 5) (offset : BitVec 16) : RoundTrip.Statement (.bgtzl rs offset) := by
  have h0 (w : Word) (h : (opF w).toNat = 23) : decode w = .ok (.bgtzl (rsF w) (immF w)) := by
    unfold decode
    rw [h]
    rfl
  unfold RoundTrip.Statement encode
  rw [h0 _ (by rw [opF_iType]; rfl)]
  simp only [immF_iType, rsF_iType]

theorem RoundTrip.addi (rs rt : BitVec 5) (imm : BitVec 16) : RoundTrip.Statement (.addi rs rt imm) := by
  have h0 (w : Word) (h : (opF w).toNat = 8) : decode w = .ok (.addi (rsF w) (rtF w) (immF w)) := by
    unfold decode
    rw [h]
    rfl
  unfold RoundTrip.Statement encode
  rw [h0 _ (by rw [opF_iType]; rfl)]
  simp only [immF_iType, rsF_iType, rtF_iType]

theorem RoundTrip.addiu (rs rt : BitVec 5) (imm : BitVec 16) : RoundTrip.Statement (.addiu rs rt imm) := by
  have h0 (w : Word) (h : (opF w).toNat = 9) : decode w = .ok (.addiu (rsF w) (rtF w) (immF w)) := by
    unfold decode
    rw [h]
    rfl
  unfold RoundTrip.Statement encode
  rw [h0 _ (by rw [opF_iType]; rfl)]
  simp only [immF_iType, rsF_iType, rtF_iType]

theorem RoundTrip.slti (rs rt : BitVec 5) (imm : BitVec 16) : RoundTrip.Statement (.slti rs rt imm) := by
  have h0 (w : Word) (h : (opF w).toNat = 10) : decode w = .ok (.slti (rsF w) (rtF w) (immF w)) := by
    unfold decode
    rw [h]
    rfl
  unfold RoundTrip.Statement encode
  rw [h0 _ (by rw [opF_iType]; rfl)]
  simp only [immF_iType, rsF_iType, rtF_iType]

theorem RoundTrip.sltiu (rs rt : BitVec 5) (imm : BitVec 16) : RoundTrip.Statement (.sltiu rs rt imm) := by
  have h0 (w : Word) (h : (opF w).toNat = 11) : decode w = .ok (.sltiu (rsF w) (rtF w) (immF w)) := by
    unfold decode
    rw [h]
    rfl
  unfold RoundTrip.Statement encode
  rw [h0 _ (by rw [opF_iType]; rfl)]
  simp only [immF_iType, rsF_iType, rtF_iType]

theorem RoundTrip.andi (rs rt : BitVec 5) (imm : BitVec 16) : RoundTrip.Statement (.andi rs rt imm) := by
  have h0 (w : Word) (h : (opF w).toNat = 12) : decode w = .ok (.andi (rsF w) (rtF w) (immF w)) := by
    unfold decode
    rw [h]
    rfl
  unfold RoundTrip.Statement encode
  rw [h0 _ (by rw [opF_iType]; rfl)]
  simp only [immF_iType, rsF_iType, rtF_iType]

theorem RoundTrip.ori (rs rt : BitVec 5) (imm : BitVec 16) : RoundTrip.Statement (.ori rs rt imm) := by
  have h0 (w : Word) (h : (opF w).toNat = 13) : decode w = .ok (.ori (rsF w) (rtF w) (immF w)) := by
    unfold decode
    rw [h]
    rfl
  unfold RoundTrip.Statement encode
  rw [h0 _ (by rw [opF_iType]; rfl)]
  simp only [immF_iType, rsF_iType, rtF_iType]

theorem RoundTrip.xori (rs rt : BitVec 5) (imm : BitVec 16) : RoundTrip.Statement (.xori rs rt imm) := by
  have h0 (w : Word) (h : (opF w).toNat = 14) : decode w = .ok (.xori (rsF w) (rtF w) (immF w)) := by
    unfold decode
    rw [h]
    rfl
  unfold RoundTrip.Statement encode
  rw [h0 _ (by rw [opF_iType]; rfl)]
  simp only [immF_iType, rsF_iType, rtF_iType]

theorem RoundTrip.daddi (rs rt : BitVec 5) (imm : BitVec 16) : RoundTrip.Statement (.daddi rs rt imm) := by
  have h0 (w : Word) (h : (opF w).toNat = 24) : decode w = .ok (.daddi (rsF w) (rtF w) (immF w)) := by
    unfold decode
    rw [h]
    rfl
  unfold RoundTrip.Statement encode
  rw [h0 _ (by rw [opF_iType]; rfl)]
  simp only [immF_iType, rsF_iType, rtF_iType]

theorem RoundTrip.daddiu (rs rt : BitVec 5) (imm : BitVec 16) : RoundTrip.Statement (.daddiu rs rt imm) := by
  have h0 (w : Word) (h : (opF w).toNat = 25) : decode w = .ok (.daddiu (rsF w) (rtF w) (immF w)) := by
    unfold decode
    rw [h]
    rfl
  unfold RoundTrip.Statement encode
  rw [h0 _ (by rw [opF_iType]; rfl)]
  simp only [immF_iType, rsF_iType, rtF_iType]

theorem RoundTrip.lui (rt : BitVec 5) (imm : BitVec 16) : RoundTrip.Statement (.lui rt imm) := by
  have h0 (w : Word) (h : (opF w).toNat = 15) : decode w = .ok (.lui (rtF w) (immF w)) := by
    unfold decode
    rw [h]
    rfl
  unfold RoundTrip.Statement encode
  rw [h0 _ (by rw [opF_iType]; rfl)]
  simp only [immF_iType, rtF_iType]

theorem RoundTrip.lb (base rt : BitVec 5) (offset : BitVec 16) : RoundTrip.Statement (.lb base rt offset) := by
  have h0 (w : Word) (h : (opF w).toNat = 32) : decode w = .ok (.lb (rsF w) (rtF w) (immF w)) := by
    unfold decode
    rw [h]
    rfl
  unfold RoundTrip.Statement encode
  rw [h0 _ (by rw [opF_iType]; rfl)]
  simp only [immF_iType, rsF_iType, rtF_iType]

theorem RoundTrip.lbu (base rt : BitVec 5) (offset : BitVec 16) : RoundTrip.Statement (.lbu base rt offset) := by
  have h0 (w : Word) (h : (opF w).toNat = 36) : decode w = .ok (.lbu (rsF w) (rtF w) (immF w)) := by
    unfold decode
    rw [h]
    rfl
  unfold RoundTrip.Statement encode
  rw [h0 _ (by rw [opF_iType]; rfl)]
  simp only [immF_iType, rsF_iType, rtF_iType]

theorem RoundTrip.lh (base rt : BitVec 5) (offset : BitVec 16) : RoundTrip.Statement (.lh base rt offset) := by
  have h0 (w : Word) (h : (opF w).toNat = 33) : decode w = .ok (.lh (rsF w) (rtF w) (immF w)) := by
    unfold decode
    rw [h]
    rfl
  unfold RoundTrip.Statement encode
  rw [h0 _ (by rw [opF_iType]; rfl)]
  simp only [immF_iType, rsF_iType, rtF_iType]

theorem RoundTrip.lhu (base rt : BitVec 5) (offset : BitVec 16) : RoundTrip.Statement (.lhu base rt offset) := by
  have h0 (w : Word) (h : (opF w).toNat = 37) : decode w = .ok (.lhu (rsF w) (rtF w) (immF w)) := by
    unfold decode
    rw [h]
    rfl
  unfold RoundTrip.Statement encode
  rw [h0 _ (by rw [opF_iType]; rfl)]
  simp only [immF_iType, rsF_iType, rtF_iType]

theorem RoundTrip.lw (base rt : BitVec 5) (offset : BitVec 16) : RoundTrip.Statement (.lw base rt offset) := by
  have h0 (w : Word) (h : (opF w).toNat = 35) : decode w = .ok (.lw (rsF w) (rtF w) (immF w)) := by
    unfold decode
    rw [h]
    rfl
  unfold RoundTrip.Statement encode
  rw [h0 _ (by rw [opF_iType]; rfl)]
  simp only [immF_iType, rsF_iType, rtF_iType]

theorem RoundTrip.lwu (base rt : BitVec 5) (offset : BitVec 16) : RoundTrip.Statement (.lwu base rt offset) := by
  have h0 (w : Word) (h : (opF w).toNat = 39) : decode w = .ok (.lwu (rsF w) (rtF w) (immF w)) := by
    unfold decode
    rw [h]
    rfl
  unfold RoundTrip.Statement encode
  rw [h0 _ (by rw [opF_iType]; rfl)]
  simp only [immF_iType, rsF_iType, rtF_iType]

theorem RoundTrip.ld (base rt : BitVec 5) (offset : BitVec 16) : RoundTrip.Statement (.ld base rt offset) := by
  have h0 (w : Word) (h : (opF w).toNat = 55) : decode w = .ok (.ld (rsF w) (rtF w) (immF w)) := by
    unfold decode
    rw [h]
    rfl
  unfold RoundTrip.Statement encode
  rw [h0 _ (by rw [opF_iType]; rfl)]
  simp only [immF_iType, rsF_iType, rtF_iType]

theorem RoundTrip.sb (base rt : BitVec 5) (offset : BitVec 16) : RoundTrip.Statement (.sb base rt offset) := by
  have h0 (w : Word) (h : (opF w).toNat = 40) : decode w = .ok (.sb (rsF w) (rtF w) (immF w)) := by
    unfold decode
    rw [h]
    rfl
  unfold RoundTrip.Statement encode
  rw [h0 _ (by rw [opF_iType]; rfl)]
  simp only [immF_iType, rsF_iType, rtF_iType]

theorem RoundTrip.sh (base rt : BitVec 5) (offset : BitVec 16) : RoundTrip.Statement (.sh base rt offset) := by
  have h0 (w : Word) (h : (opF w).toNat = 41) : decode w = .ok (.sh (rsF w) (rtF w) (immF w)) := by
    unfold decode
    rw [h]
    rfl
  unfold RoundTrip.Statement encode
  rw [h0 _ (by rw [opF_iType]; rfl)]
  simp only [immF_iType, rsF_iType, rtF_iType]

theorem RoundTrip.sw (base rt : BitVec 5) (offset : BitVec 16) : RoundTrip.Statement (.sw base rt offset) := by
  have h0 (w : Word) (h : (opF w).toNat = 43) : decode w = .ok (.sw (rsF w) (rtF w) (immF w)) := by
    unfold decode
    rw [h]
    rfl
  unfold RoundTrip.Statement encode
  rw [h0 _ (by rw [opF_iType]; rfl)]
  simp only [immF_iType, rsF_iType, rtF_iType]

theorem RoundTrip.sd (base rt : BitVec 5) (offset : BitVec 16) : RoundTrip.Statement (.sd base rt offset) := by
  have h0 (w : Word) (h : (opF w).toNat = 63) : decode w = .ok (.sd (rsF w) (rtF w) (immF w)) := by
    unfold decode
    rw [h]
    rfl
  unfold RoundTrip.Statement encode
  rw [h0 _ (by rw [opF_iType]; rfl)]
  simp only [immF_iType, rsF_iType, rtF_iType]

theorem RoundTrip.lwl (base rt : BitVec 5) (offset : BitVec 16) : RoundTrip.Statement (.lwl base rt offset) := by
  have h0 (w : Word) (h : (opF w).toNat = 34) : decode w = .ok (.lwl (rsF w) (rtF w) (immF w)) := by
    unfold decode
    rw [h]
    rfl
  unfold RoundTrip.Statement encode
  rw [h0 _ (by rw [opF_iType]; rfl)]
  simp only [immF_iType, rsF_iType, rtF_iType]

theorem RoundTrip.lwr (base rt : BitVec 5) (offset : BitVec 16) : RoundTrip.Statement (.lwr base rt offset) := by
  have h0 (w : Word) (h : (opF w).toNat = 38) : decode w = .ok (.lwr (rsF w) (rtF w) (immF w)) := by
    unfold decode
    rw [h]
    rfl
  unfold RoundTrip.Statement encode
  rw [h0 _ (by rw [opF_iType]; rfl)]
  simp only [immF_iType, rsF_iType, rtF_iType]

theorem RoundTrip.swl (base rt : BitVec 5) (offset : BitVec 16) : RoundTrip.Statement (.swl base rt offset) := by
  have h0 (w : Word) (h : (opF w).toNat = 42) : decode w = .ok (.swl (rsF w) (rtF w) (immF w)) := by
    unfold decode
    rw [h]
    rfl
  unfold RoundTrip.Statement encode
  rw [h0 _ (by rw [opF_iType]; rfl)]
  simp only [immF_iType, rsF_iType, rtF_iType]

theorem RoundTrip.swr (base rt : BitVec 5) (offset : BitVec 16) : RoundTrip.Statement (.swr base rt offset) := by
  have h0 (w : Word) (h : (opF w).toNat = 46) : decode w = .ok (.swr (rsF w) (rtF w) (immF w)) := by
    unfold decode
    rw [h]
    rfl
  unfold RoundTrip.Statement encode
  rw [h0 _ (by rw [opF_iType]; rfl)]
  simp only [immF_iType, rsF_iType, rtF_iType]

theorem RoundTrip.ldl (base rt : BitVec 5) (offset : BitVec 16) : RoundTrip.Statement (.ldl base rt offset) := by
  have h0 (w : Word) (h : (opF w).toNat = 26) : decode w = .ok (.ldl (rsF w) (rtF w) (immF w)) := by
    unfold decode
    rw [h]
    rfl
  unfold RoundTrip.Statement encode
  rw [h0 _ (by rw [opF_iType]; rfl)]
  simp only [immF_iType, rsF_iType, rtF_iType]

theorem RoundTrip.ldr (base rt : BitVec 5) (offset : BitVec 16) : RoundTrip.Statement (.ldr base rt offset) := by
  have h0 (w : Word) (h : (opF w).toNat = 27) : decode w = .ok (.ldr (rsF w) (rtF w) (immF w)) := by
    unfold decode
    rw [h]
    rfl
  unfold RoundTrip.Statement encode
  rw [h0 _ (by rw [opF_iType]; rfl)]
  simp only [immF_iType, rsF_iType, rtF_iType]

theorem RoundTrip.sdl (base rt : BitVec 5) (offset : BitVec 16) : RoundTrip.Statement (.sdl base rt offset) := by
  have h0 (w : Word) (h : (opF w).toNat = 44) : decode w = .ok (.sdl (rsF w) (rtF w) (immF w)) := by
    unfold decode
    rw [h]
    rfl
  unfold RoundTrip.Statement encode
  rw [h0 _ (by rw [opF_iType]; rfl)]
  simp only [immF_iType, rsF_iType, rtF_iType]

theorem RoundTrip.sdr (base rt : BitVec 5) (offset : BitVec 16) : RoundTrip.Statement (.sdr base rt offset) := by
  have h0 (w : Word) (h : (opF w).toNat = 45) : decode w = .ok (.sdr (rsF w) (rtF w) (immF w)) := by
    unfold decode
    rw [h]
    rfl
  unfold RoundTrip.Statement encode
  rw [h0 _ (by rw [opF_iType]; rfl)]
  simp only [immF_iType, rsF_iType, rtF_iType]

theorem RoundTrip.ll (base rt : BitVec 5) (offset : BitVec 16) : RoundTrip.Statement (.ll base rt offset) := by
  have h0 (w : Word) (h : (opF w).toNat = 48) : decode w = .ok (.ll (rsF w) (rtF w) (immF w)) := by
    unfold decode
    rw [h]
    rfl
  unfold RoundTrip.Statement encode
  rw [h0 _ (by rw [opF_iType]; rfl)]
  simp only [immF_iType, rsF_iType, rtF_iType]

theorem RoundTrip.lld (base rt : BitVec 5) (offset : BitVec 16) : RoundTrip.Statement (.lld base rt offset) := by
  have h0 (w : Word) (h : (opF w).toNat = 52) : decode w = .ok (.lld (rsF w) (rtF w) (immF w)) := by
    unfold decode
    rw [h]
    rfl
  unfold RoundTrip.Statement encode
  rw [h0 _ (by rw [opF_iType]; rfl)]
  simp only [immF_iType, rsF_iType, rtF_iType]

theorem RoundTrip.sc (base rt : BitVec 5) (offset : BitVec 16) : RoundTrip.Statement (.sc base rt offset) := by
  have h0 (w : Word) (h : (opF w).toNat = 56) : decode w = .ok (.sc (rsF w) (rtF w) (immF w)) := by
    unfold decode
    rw [h]
    rfl
  unfold RoundTrip.Statement encode
  rw [h0 _ (by rw [opF_iType]; rfl)]
  simp only [immF_iType, rsF_iType, rtF_iType]

theorem RoundTrip.scd (base rt : BitVec 5) (offset : BitVec 16) : RoundTrip.Statement (.scd base rt offset) := by
  have h0 (w : Word) (h : (opF w).toNat = 60) : decode w = .ok (.scd (rsF w) (rtF w) (immF w)) := by
    unfold decode
    rw [h]
    rfl
  unfold RoundTrip.Statement encode
  rw [h0 _ (by rw [opF_iType]; rfl)]
  simp only [immF_iType, rsF_iType, rtF_iType]

theorem RoundTrip.cacheIndexInvalidateI (base : BitVec 5) (offset : BitVec 16) : RoundTrip.Statement (.cacheIndexInvalidateI base offset) := by
  have h1 (w : Word) (h : (rtF w).toNat = 0) : decodeCache w = .cacheIndexInvalidateI (rsF w) (immF w) := by
    unfold decodeCache
    rw [h]
    rfl
  unfold RoundTrip.Statement encode
  rw [decode_at47 _ (by rw [opF_iType]; rfl), h1 _ (by rw [rtF_iType]; rfl)]
  simp only [immF_iType, rsF_iType]

theorem RoundTrip.cacheIndexWritebackInvalidateD (base : BitVec 5) (offset : BitVec 16) : RoundTrip.Statement (.cacheIndexWritebackInvalidateD base offset) := by
  have h1 (w : Word) (h : (rtF w).toNat = 1) : decodeCache w = .cacheIndexWritebackInvalidateD (rsF w) (immF w) := by
    unfold decodeCache
    rw [h]
    rfl
  unfold RoundTrip.Statement encode
  rw [decode_at47 _ (by rw [opF_iType]; rfl), h1 _ (by rw [rtF_iType]; rfl)]
  simp only [immF_iType, rsF_iType]

theorem RoundTrip.cacheFlashInvalidateT (base : BitVec 5) (offset : BitVec 16) : RoundTrip.Statement (.cacheFlashInvalidateT base offset) := by
  have h1 (w : Word) (h : (rtF w).toNat = 2) : decodeCache w = .cacheFlashInvalidateT (rsF w) (immF w) := by
    unfold decodeCache
    rw [h]
    rfl
  unfold RoundTrip.Statement encode
  rw [decode_at47 _ (by rw [opF_iType]; rfl), h1 _ (by rw [rtF_iType]; rfl)]
  simp only [immF_iType, rsF_iType]

theorem RoundTrip.cacheIndexWritebackInvalidateS (base : BitVec 5) (offset : BitVec 16) : RoundTrip.Statement (.cacheIndexWritebackInvalidateS base offset) := by
  have h1 (w : Word) (h : (rtF w).toNat = 3) : decodeCache w = .cacheIndexWritebackInvalidateS (rsF w) (immF w) := by
    unfold decodeCache
    rw [h]
    rfl
  unfold RoundTrip.Statement encode
  rw [decode_at47 _ (by rw [opF_iType]; rfl), h1 _ (by rw [rtF_iType]; rfl)]
  simp only [immF_iType, rsF_iType]

theorem RoundTrip.cacheIndexLoadTagI (base : BitVec 5) (offset : BitVec 16) : RoundTrip.Statement (.cacheIndexLoadTagI base offset) := by
  have h1 (w : Word) (h : (rtF w).toNat = 4) : decodeCache w = .cacheIndexLoadTagI (rsF w) (immF w) := by
    unfold decodeCache
    rw [h]
    rfl
  unfold RoundTrip.Statement encode
  rw [decode_at47 _ (by rw [opF_iType]; rfl), h1 _ (by rw [rtF_iType]; rfl)]
  simp only [immF_iType, rsF_iType]

theorem RoundTrip.cacheIndexLoadTagD (base : BitVec 5) (offset : BitVec 16) : RoundTrip.Statement (.cacheIndexLoadTagD base offset) := by
  have h1 (w : Word) (h : (rtF w).toNat = 5) : decodeCache w = .cacheIndexLoadTagD (rsF w) (immF w) := by
    unfold decodeCache
    rw [h]
    rfl
  unfold RoundTrip.Statement encode
  rw [decode_at47 _ (by rw [opF_iType]; rfl), h1 _ (by rw [rtF_iType]; rfl)]
  simp only [immF_iType, rsF_iType]

theorem RoundTrip.cacheIndexLoadTagT (base : BitVec 5) (offset : BitVec 16) : RoundTrip.Statement (.cacheIndexLoadTagT base offset) := by
  have h1 (w : Word) (h : (rtF w).toNat = 6) : decodeCache w = .cacheIndexLoadTagT (rsF w) (immF w) := by
    unfold decodeCache
    rw [h]
    rfl
  unfold RoundTrip.Statement encode
  rw [decode_at47 _ (by rw [opF_iType]; rfl), h1 _ (by rw [rtF_iType]; rfl)]
  simp only [immF_iType, rsF_iType]

theorem RoundTrip.cacheIndexLoadTagS (base : BitVec 5) (offset : BitVec 16) : RoundTrip.Statement (.cacheIndexLoadTagS base offset) := by
  have h1 (w : Word) (h : (rtF w).toNat = 7) : decodeCache w = .cacheIndexLoadTagS (rsF w) (immF w) := by
    unfold decodeCache
    rw [h]
    rfl
  unfold RoundTrip.Statement encode
  rw [decode_at47 _ (by rw [opF_iType]; rfl), h1 _ (by rw [rtF_iType]; rfl)]
  simp only [immF_iType, rsF_iType]

theorem RoundTrip.cacheIndexStoreTagI (base : BitVec 5) (offset : BitVec 16) : RoundTrip.Statement (.cacheIndexStoreTagI base offset) := by
  have h1 (w : Word) (h : (rtF w).toNat = 8) : decodeCache w = .cacheIndexStoreTagI (rsF w) (immF w) := by
    unfold decodeCache
    rw [h]
    rfl
  unfold RoundTrip.Statement encode
  rw [decode_at47 _ (by rw [opF_iType]; rfl), h1 _ (by rw [rtF_iType]; rfl)]
  simp only [immF_iType, rsF_iType]

theorem RoundTrip.cacheIndexStoreTagD (base : BitVec 5) (offset : BitVec 16) : RoundTrip.Statement (.cacheIndexStoreTagD base offset) := by
  have h1 (w : Word) (h : (rtF w).toNat = 9) : decodeCache w = .cacheIndexStoreTagD (rsF w) (immF w) := by
    unfold decodeCache
    rw [h]
    rfl
  unfold RoundTrip.Statement encode
  rw [decode_at47 _ (by rw [opF_iType]; rfl), h1 _ (by rw [rtF_iType]; rfl)]
  simp only [immF_iType, rsF_iType]

theorem RoundTrip.cacheIndexStoreTagT (base : BitVec 5) (offset : BitVec 16) : RoundTrip.Statement (.cacheIndexStoreTagT base offset) := by
  have h1 (w : Word) (h : (rtF w).toNat = 10) : decodeCache w = .cacheIndexStoreTagT (rsF w) (immF w) := by
    unfold decodeCache
    rw [h]
    rfl
  unfold RoundTrip.Statement encode
  rw [decode_at47 _ (by rw [opF_iType]; rfl), h1 _ (by rw [rtF_iType]; rfl)]
  simp only [immF_iType, rsF_iType]

theorem RoundTrip.cacheIndexStoreTagS (base : BitVec 5) (offset : BitVec 16) : RoundTrip.Statement (.cacheIndexStoreTagS base offset) := by
  have h1 (w : Word) (h : (rtF w).toNat = 11) : decodeCache w = .cacheIndexStoreTagS (rsF w) (immF w) := by
    unfold decodeCache
    rw [h]
    rfl
  unfold RoundTrip.Statement encode
  rw [decode_at47 _ (by rw [opF_iType]; rfl), h1 _ (by rw [rtF_iType]; rfl)]
  simp only [immF_iType, rsF_iType]

theorem RoundTrip.cacheCreateDirtyExclusiveD (base : BitVec 5) (offset : BitVec 16) : RoundTrip.Statement (.cacheCreateDirtyExclusiveD base offset) := by
  have h1 (w : Word) (h : (rtF w).toNat = 13) : decodeCache w = .cacheCreateDirtyExclusiveD (rsF w) (immF w) := by
    unfold decodeCache
    rw [h]
    rfl
  unfold RoundTrip.Statement encode
  rw [decode_at47 _ (by rw [opF_iType]; rfl), h1 _ (by rw [rtF_iType]; rfl)]
  simp only [immF_iType, rsF_iType]

theorem RoundTrip.cacheHitInvalidateI (base : BitVec 5) (offset : BitVec 16) : RoundTrip.Statement (.cacheHitInvalidateI base offset) := by
  have h1 (w : Word) (h : (rtF w).toNat = 16) : decodeCache w = .cacheHitInvalidateI (rsF w) (immF w) := by
    unfold decodeCache
    rw [h]
    rfl
  unfold RoundTrip.Statement encode
  rw [decode_at47 _ (by rw [opF_iType]; rfl), h1 _ (by rw [rtF_iType]; rfl)]
  simp only [immF_iType, rsF_iType]

theorem RoundTrip.cacheHitInvalidateD (base : BitVec 5) (offset : BitVec 16) : RoundTrip.Statement (.cacheHitInvalidateD base offset) := by
  have h1 (w : Word) (h : (rtF w).toNat = 17) : decodeCache w = .cacheHitInvalidateD (rsF w) (immF w) := by
    unfold decodeCache
    rw [h]
    rfl
  unfold RoundTrip.Statement encode
  rw [decode_at47 _ (by rw [opF_iType]; rfl), h1 _ (by rw [rtF_iType]; rfl)]
  simp only [immF_iType, rsF_iType]

theorem RoundTrip.cacheHitInvalidateS (base : BitVec 5) (offset : BitVec 16) : RoundTrip.Statement (.cacheHitInvalidateS base offset) := by
  have h1 (w : Word) (h : (rtF w).toNat = 19) : decodeCache w = .cacheHitInvalidateS (rsF w) (immF w) := by
    unfold decodeCache
    rw [h]
    rfl
  unfold RoundTrip.Statement encode
  rw [decode_at47 _ (by rw [opF_iType]; rfl), h1 _ (by rw [rtF_iType]; rfl)]
  simp only [immF_iType, rsF_iType]

theorem RoundTrip.cacheFillI (base : BitVec 5) (offset : BitVec 16) : RoundTrip.Statement (.cacheFillI base offset) := by
  have h1 (w : Word) (h : (rtF w).toNat = 20) : decodeCache w = .cacheFillI (rsF w) (immF w) := by
    unfold decodeCache
    rw [h]
    rfl
  unfold RoundTrip.Statement encode
  rw [decode_at47 _ (by rw [opF_iType]; rfl), h1 _ (by rw [rtF_iType]; rfl)]
  simp only [immF_iType, rsF_iType]

theorem RoundTrip.cacheHitWritebackInvalidateD (base : BitVec 5) (offset : BitVec 16) : RoundTrip.Statement (.cacheHitWritebackInvalidateD base offset) := by
  have h1 (w : Word) (h : (rtF w).toNat = 21) : decodeCache w = .cacheHitWritebackInvalidateD (rsF w) (immF w) := by
    unfold decodeCache
    rw [h]
    rfl
  unfold RoundTrip.Statement encode
  rw [decode_at47 _ (by rw [opF_iType]; rfl), h1 _ (by rw [rtF_iType]; rfl)]
  simp only [immF_iType, rsF_iType]

theorem RoundTrip.cachePageInvalidateT (base : BitVec 5) (offset : BitVec 16) : RoundTrip.Statement (.cachePageInvalidateT base offset) := by
  have h1 (w : Word) (h : (rtF w).toNat = 22) : decodeCache w = .cachePageInvalidateT (rsF w) (immF w) := by
    unfold decodeCache
    rw [h]
    rfl
  unfold RoundTrip.Statement encode
  rw [decode_at47 _ (by rw [opF_iType]; rfl), h1 _ (by rw [rtF_iType]; rfl)]
  simp only [immF_iType, rsF_iType]

theorem RoundTrip.cacheHitWritebackInvalidateS (base : BitVec 5) (offset : BitVec 16) : RoundTrip.Statement (.cacheHitWritebackInvalidateS base offset) := by
  have h1 (w : Word) (h : (rtF w).toNat = 23) : decodeCache w = .cacheHitWritebackInvalidateS (rsF w) (immF w) := by
    unfold decodeCache
    rw [h]
    rfl
  unfold RoundTrip.Statement encode
  rw [decode_at47 _ (by rw [opF_iType]; rfl), h1 _ (by rw [rtF_iType]; rfl)]
  simp only [immF_iType, rsF_iType]

theorem RoundTrip.cacheHitWritebackI (base : BitVec 5) (offset : BitVec 16) : RoundTrip.Statement (.cacheHitWritebackI base offset) := by
  have h1 (w : Word) (h : (rtF w).toNat = 24) : decodeCache w = .cacheHitWritebackI (rsF w) (immF w) := by
    unfold decodeCache
    rw [h]
    rfl
  unfold RoundTrip.Statement encode
  rw [decode_at47 _ (by rw [opF_iType]; rfl), h1 _ (by rw [rtF_iType]; rfl)]
  simp only [immF_iType, rsF_iType]

theorem RoundTrip.cacheHitWritebackD (base : BitVec 5) (offset : BitVec 16) : RoundTrip.Statement (.cacheHitWritebackD base offset) := by
  have h1 (w : Word) (h : (rtF w).toNat = 25) : decodeCache w = .cacheHitWritebackD (rsF w) (immF w) := by
    unfold decodeCache
    rw [h]
    rfl
  unfold RoundTrip.Statement encode
  rw [decode_at47 _ (by rw [opF_iType]; rfl), h1 _ (by rw [rtF_iType]; rfl)]
  simp only [immF_iType, rsF_iType]

theorem RoundTrip.cacheHitWritebackS (base : BitVec 5) (offset : BitVec 16) : RoundTrip.Statement (.cacheHitWritebackS base offset) := by
  have h1 (w : Word) (h : (rtF w).toNat = 27) : decodeCache w = .cacheHitWritebackS (rsF w) (immF w) := by
    unfold decodeCache
    rw [h]
    rfl
  unfold RoundTrip.Statement encode
  rw [decode_at47 _ (by rw [opF_iType]; rfl), h1 _ (by rw [rtF_iType]; rfl)]
  simp only [immF_iType, rsF_iType]

theorem RoundTrip.cacheOp0C (base : BitVec 5) (offset : BitVec 16) : RoundTrip.Statement (.cacheOp0C base offset) := by
  have h1 (w : Word) (h : (rtF w).toNat = 12) : decodeCache w = .cacheOp0C (rsF w) (immF w) := by
    unfold decodeCache
    rw [h]
    rfl
  unfold RoundTrip.Statement encode
  rw [decode_at47 _ (by rw [opF_iType]; rfl), h1 _ (by rw [rtF_iType]; rfl)]
  simp only [immF_iType, rsF_iType]

theorem RoundTrip.cacheOp0E (base : BitVec 5) (offset : BitVec 16) : RoundTrip.Statement (.cacheOp0E base offset) := by
  have h1 (w : Word) (h : (rtF w).toNat = 14) : decodeCache w = .cacheOp0E (rsF w) (immF w) := by
    unfold decodeCache
    rw [h]
    rfl
  unfold RoundTrip.Statement encode
  rw [decode_at47 _ (by rw [opF_iType]; rfl), h1 _ (by rw [rtF_iType]; rfl)]
  simp only [immF_iType, rsF_iType]

theorem RoundTrip.cacheOp0F (base : BitVec 5) (offset : BitVec 16) : RoundTrip.Statement (.cacheOp0F base offset) := by
  have h1 (w : Word) (h : (rtF w).toNat = 15) : decodeCache w = .cacheOp0F (rsF w) (immF w) := by
    unfold decodeCache
    rw [h]
    rfl
  unfold RoundTrip.Statement encode
  rw [decode_at47 _ (by rw [opF_iType]; rfl), h1 _ (by rw [rtF_iType]; rfl)]
  simp only [immF_iType, rsF_iType]

theorem RoundTrip.cacheOp12 (base : BitVec 5) (offset : BitVec 16) : RoundTrip.Statement (.cacheOp12 base offset) := by
  have h1 (w : Word) (h : (rtF w).toNat = 18) : decodeCache w = .cacheOp12 (rsF w) (immF w) := by
    unfold decodeCache
    rw [h]
    rfl
  unfold RoundTrip.Statement encode
  rw [decode_at47 _ (by rw [opF_iType]; rfl), h1 _ (by rw [rtF_iType]; rfl)]
  simp only [immF_iType, rsF_iType]

theorem RoundTrip.cacheOp1A (base : BitVec 5) (offset : BitVec 16) : RoundTrip.Statement (.cacheOp1A base offset) := by
  have h1 (w : Word) (h : (rtF w).toNat = 26) : decodeCache w = .cacheOp1A (rsF w) (immF w) := by
    unfold decodeCache
    rw [h]
    rfl
  unfold RoundTrip.Statement encode
  rw [decode_at47 _ (by rw [opF_iType]; rfl), h1 _ (by rw [rtF_iType]; rfl)]
  simp only [immF_iType, rsF_iType]

theorem RoundTrip.cacheOp1C (base : BitVec 5) (offset : BitVec 16) : RoundTrip.Statement (.cacheOp1C base offset) := by
  have h1 (w : Word) (h : (rtF w).toNat = 28) : decodeCache w = .cacheOp1C (rsF w) (immF w) := by
    unfold decodeCache
    rw [h]
    rfl
  unfold RoundTrip.Statement encode
  rw [decode_at47 _ (by rw [opF_iType]; rfl), h1 _ (by rw [rtF_iType]; rfl)]
  simp only [immF_iType, rsF_iType]

theorem RoundTrip.cacheOp1D (base : BitVec 5) (offset : BitVec 16) : RoundTrip.Statement (.cacheOp1D base offset) := by
  have h1 (w : Word) (h : (rtF w).toNat = 29) : decodeCache w = .cacheOp1D (rsF w) (immF w) := by
    unfold decodeCache
    rw [h]
    rfl
  unfold RoundTrip.Statement encode
  rw [decode_at47 _ (by rw [opF_iType]; rfl), h1 _ (by rw [rtF_iType]; rfl)]
  simp only [immF_iType, rsF_iType]

theorem RoundTrip.cacheOp1E (base : BitVec 5) (offset : BitVec 16) : RoundTrip.Statement (.cacheOp1E base offset) := by
  have h1 (w : Word) (h : (rtF w).toNat = 30) : decodeCache w = .cacheOp1E (rsF w) (immF w) := by
    unfold decodeCache
    rw [h]
    rfl
  unfold RoundTrip.Statement encode
  rw [decode_at47 _ (by rw [opF_iType]; rfl), h1 _ (by rw [rtF_iType]; rfl)]
  simp only [immF_iType, rsF_iType]

theorem RoundTrip.cacheOp1F (base : BitVec 5) (offset : BitVec 16) : RoundTrip.Statement (.cacheOp1F base offset) := by
  simp [RoundTrip.Statement, encode, decode, decodeCache]

theorem RoundTrip.pref (base hint : BitVec 5) (offset : BitVec 16) : RoundTrip.Statement (.pref base hint offset) := by
  have h0 (w : Word) (h : (opF w).toNat = 51) : decode w = .ok (.pref (rsF w) (rtF w) (immF w)) := by
    unfold decode
    rw [h]
    rfl
  unfold RoundTrip.Statement encode
  rw [h0 _ (by rw [opF_iType]; rfl)]
  simp only [immF_iType, rsF_iType, rtF_iType]

theorem RoundTrip.lwc2 (base rt : BitVec 5) (offset : BitVec 16) : RoundTrip.Statement (.lwc2 base rt offset) := by
  have h0 (w : Word) (h : (opF w).toNat = 50) : decode w = .ok (.lwc2 (rsF w) (rtF w) (immF w)) := by
    unfold decode
    rw [h]
    rfl
  unfold RoundTrip.Statement encode
  rw [h0 _ (by rw [opF_iType]; rfl)]
  simp only [immF_iType, rsF_iType, rtF_iType]

theorem RoundTrip.ldc2 (base rt : BitVec 5) (offset : BitVec 16) : RoundTrip.Statement (.ldc2 base rt offset) := by
  have h0 (w : Word) (h : (opF w).toNat = 54) : decode w = .ok (.ldc2 (rsF w) (rtF w) (immF w)) := by
    unfold decode
    rw [h]
    rfl
  unfold RoundTrip.Statement encode
  rw [h0 _ (by rw [opF_iType]; rfl)]
  simp only [immF_iType, rsF_iType, rtF_iType]

theorem RoundTrip.swc2 (base rt : BitVec 5) (offset : BitVec 16) : RoundTrip.Statement (.swc2 base rt offset) := by
  have h0 (w : Word) (h : (opF w).toNat = 58) : decode w = .ok (.swc2 (rsF w) (rtF w) (immF w)) := by
    unfold decode
    rw [h]
    rfl
  unfold RoundTrip.Statement encode
  rw [h0 _ (by rw [opF_iType]; rfl)]
  simp only [immF_iType, rsF_iType, rtF_iType]

theorem RoundTrip.sdc2 (base rt : BitVec 5) (offset : BitVec 16) : RoundTrip.Statement (.sdc2 base rt offset) := by
  have h0 (w : Word) (h : (opF w).toNat = 62) : decode w = .ok (.sdc2 (rsF w) (rtF w) (immF w)) := by
    unfold decode
    rw [h]
    rfl
  unfold RoundTrip.Statement encode
  rw [h0 _ (by rw [opF_iType]; rfl)]
  simp only [immF_iType, rsF_iType, rtF_iType]

theorem RoundTrip.cop2 (cofun : BitVec 26) : RoundTrip.Statement (.cop2 cofun) := by
  have h0 (w : Word) (h : (opF w).toNat = 18) : decode w = .ok (.cop2 (targetF w)) := by
    unfold decode
    rw [h]
    rfl
  unfold RoundTrip.Statement encode
  rw [h0 _ (by rw [opF_jType]; rfl)]
  simp only [targetF_jType]

theorem RoundTrip.mad (rs rt : BitVec 5) : RoundTrip.Statement (.mad rs rt) := by
  have h1 (w : Word) (h : (functF w).toNat = 0) : decodeRm7000 w = .ok (.mad (rsF w) (rtF w)) := by
    unfold decodeRm7000
    rw [h]
    rfl
  unfold RoundTrip.Statement encode
  rw [decode_at28 _ (by rw [opF_rType]; rfl), h1 _ (by rw [functF_rType]; rfl)]
  simp only [rsF_rType, rtF_rType]

theorem RoundTrip.madu (rs rt : BitVec 5) : RoundTrip.Statement (.madu rs rt) := by
  have h1 (w : Word) (h : (functF w).toNat = 1) : decodeRm7000 w = .ok (.madu (rsF w) (rtF w)) := by
    unfold decodeRm7000
    rw [h]
    rfl
  unfold RoundTrip.Statement encode
  rw [decode_at28 _ (by rw [opF_rType]; rfl), h1 _ (by rw [functF_rType]; rfl)]
  simp only [rsF_rType, rtF_rType]

theorem RoundTrip.mul (rs rt rd : BitVec 5) : RoundTrip.Statement (.mul rs rt rd) := by
  have h1 (w : Word) (h : (functF w).toNat = 2) : decodeRm7000 w = .ok (.mul (rsF w) (rtF w) (rdF w)) := by
    unfold decodeRm7000
    rw [h]
    rfl
  unfold RoundTrip.Statement encode
  rw [decode_at28 _ (by rw [opF_rType]; rfl), h1 _ (by rw [functF_rType]; rfl)]
  simp only [rdF_rType, rsF_rType, rtF_rType]

theorem RoundTrip.mfc0 (rt rd : BitVec 5) : RoundTrip.Statement (.mfc0 rt rd) := by
  simp [RoundTrip.Statement, encode, decode, decodeCop0]

theorem RoundTrip.dmfc0 (rt rd : BitVec 5) : RoundTrip.Statement (.dmfc0 rt rd) := by
  simp [RoundTrip.Statement, encode, decode, decodeCop0]

theorem RoundTrip.cfc0 (rt rd : BitVec 5) : RoundTrip.Statement (.cfc0 rt rd) := by
  simp [RoundTrip.Statement, encode, decode, decodeCop0]

theorem RoundTrip.mtc0 (rt rd : BitVec 5) : RoundTrip.Statement (.mtc0 rt rd) := by
  simp [RoundTrip.Statement, encode, decode, decodeCop0]

theorem RoundTrip.dmtc0 (rt rd : BitVec 5) : RoundTrip.Statement (.dmtc0 rt rd) := by
  simp [RoundTrip.Statement, encode, decode, decodeCop0]

theorem RoundTrip.ctc0 (rt rd : BitVec 5) : RoundTrip.Statement (.ctc0 rt rd) := by
  simp [RoundTrip.Statement, encode, decode, decodeCop0]

theorem RoundTrip.tlbr : RoundTrip.Statement (.tlbr) := by
  simp [RoundTrip.Statement, encode, decode, decodeCop0]

theorem RoundTrip.tlbwi : RoundTrip.Statement (.tlbwi) := by
  simp [RoundTrip.Statement, encode, decode, decodeCop0]

theorem RoundTrip.tlbwr : RoundTrip.Statement (.tlbwr) := by
  simp [RoundTrip.Statement, encode, decode, decodeCop0]

theorem RoundTrip.tlbp : RoundTrip.Statement (.tlbp) := by
  simp [RoundTrip.Statement, encode, decode, decodeCop0]

theorem RoundTrip.eret : RoundTrip.Statement (.eret) := by
  simp [RoundTrip.Statement, encode, decode, decodeCop0]

theorem RoundTrip.wait : RoundTrip.Statement (.wait) := by
  simp [RoundTrip.Statement, encode, decode, decodeCop0]

theorem RoundTrip.mfc1 (rt fs : BitVec 5) : RoundTrip.Statement (.mfc1 rt fs) := by
  have h1 (w : Word) (h : (rsF w).toNat = 0) : decodeCop1 w = .ok (.mfc1 (rtF w) (rdF w)) := by
    unfold decodeCop1
    rw [h]
    rfl
  unfold RoundTrip.Statement encode
  rw [decode_at17 _ (by rw [opF_rType]; rfl), h1 _ (by rw [rsF_rType]; rfl)]
  simp only [rdF_rType, rtF_rType]

theorem RoundTrip.dmfc1 (rt fs : BitVec 5) : RoundTrip.Statement (.dmfc1 rt fs) := by
  have h1 (w : Word) (h : (rsF w).toNat = 1) : decodeCop1 w = .ok (.dmfc1 (rtF w) (rdF w)) := by
    unfold decodeCop1
    rw [h]
    rfl
  unfold RoundTrip.Statement encode
  rw [decode_at17 _ (by rw [opF_rType]; rfl), h1 _ (by rw [rsF_rType]; rfl)]
  simp only [rdF_rType, rtF_rType]

theorem RoundTrip.cfc1 (rt fs : BitVec 5) : RoundTrip.Statement (.cfc1 rt fs) := by
  have h1 (w : Word) (h : (rsF w).toNat = 2) : decodeCop1 w = .ok (.cfc1 (rtF w) (rdF w)) := by
    unfold decodeCop1
    rw [h]
    rfl
  unfold RoundTrip.Statement encode
  rw [decode_at17 _ (by rw [opF_rType]; rfl), h1 _ (by rw [rsF_rType]; rfl)]
  simp only [rdF_rType, rtF_rType]

theorem RoundTrip.mtc1 (rt fs : BitVec 5) : RoundTrip.Statement (.mtc1 rt fs) := by
  have h1 (w : Word) (h : (rsF w).toNat = 4) : decodeCop1 w = .ok (.mtc1 (rtF w) (rdF w)) := by
    unfold decodeCop1
    rw [h]
    rfl
  unfold RoundTrip.Statement encode
  rw [decode_at17 _ (by rw [opF_rType]; rfl), h1 _ (by rw [rsF_rType]; rfl)]
  simp only [rdF_rType, rtF_rType]

theorem RoundTrip.dmtc1 (rt fs : BitVec 5) : RoundTrip.Statement (.dmtc1 rt fs) := by
  have h1 (w : Word) (h : (rsF w).toNat = 5) : decodeCop1 w = .ok (.dmtc1 (rtF w) (rdF w)) := by
    unfold decodeCop1
    rw [h]
    rfl
  unfold RoundTrip.Statement encode
  rw [decode_at17 _ (by rw [opF_rType]; rfl), h1 _ (by rw [rsF_rType]; rfl)]
  simp only [rdF_rType, rtF_rType]

theorem RoundTrip.ctc1 (rt fs : BitVec 5) : RoundTrip.Statement (.ctc1 rt fs) := by
  have h1 (w : Word) (h : (rsF w).toNat = 6) : decodeCop1 w = .ok (.ctc1 (rtF w) (rdF w)) := by
    unfold decodeCop1
    rw [h]
    rfl
  unfold RoundTrip.Statement encode
  rw [decode_at17 _ (by rw [opF_rType]; rfl), h1 _ (by rw [rsF_rType]; rfl)]
  simp only [rdF_rType, rtF_rType]

theorem RoundTrip.bc1f (cc : BitVec 3) (offset : BitVec 16) : RoundTrip.Statement (.bc1f cc offset) := by
  simp [RoundTrip.Statement, encode, decode, decodeCop1, decodeBc1, tfF, ccHiF]

theorem RoundTrip.bc1t (cc : BitVec 3) (offset : BitVec 16) : RoundTrip.Statement (.bc1t cc offset) := by
  simp [RoundTrip.Statement, encode, decode, decodeCop1, decodeBc1, tfF, ccHiF]

theorem RoundTrip.bc1fl (cc : BitVec 3) (offset : BitVec 16) : RoundTrip.Statement (.bc1fl cc offset) := by
  simp [RoundTrip.Statement, encode, decode, decodeCop1, decodeBc1, tfF, ccHiF]

theorem RoundTrip.bc1tl (cc : BitVec 3) (offset : BitVec 16) : RoundTrip.Statement (.bc1tl cc offset) := by
  simp [RoundTrip.Statement, encode, decode, decodeCop1, decodeBc1, tfF, ccHiF]

theorem RoundTrip.lwc1 (base ft : BitVec 5) (offset : BitVec 16) : RoundTrip.Statement (.lwc1 base ft offset) := by
  have h0 (w : Word) (h : (opF w).toNat = 49) : decode w = .ok (.lwc1 (rsF w) (rtF w) (immF w)) := by
    unfold decode
    rw [h]
    rfl
  unfold RoundTrip.Statement encode
  rw [h0 _ (by rw [opF_iType]; rfl)]
  simp only [immF_iType, rsF_iType, rtF_iType]

theorem RoundTrip.ldc1 (base ft : BitVec 5) (offset : BitVec 16) : RoundTrip.Statement (.ldc1 base ft offset) := by
  have h0 (w : Word) (h : (opF w).toNat = 53) : decode w = .ok (.ldc1 (rsF w) (rtF w) (immF w)) := by
    unfold decode
    rw [h]
    rfl
  unfold RoundTrip.Statement encode
  rw [h0 _ (by rw [opF_iType]; rfl)]
  simp only [immF_iType, rsF_iType, rtF_iType]

theorem RoundTrip.swc1 (base ft : BitVec 5) (offset : BitVec 16) : RoundTrip.Statement (.swc1 base ft offset) := by
  have h0 (w : Word) (h : (opF w).toNat = 57) : decode w = .ok (.swc1 (rsF w) (rtF w) (immF w)) := by
    unfold decode
    rw [h]
    rfl
  unfold RoundTrip.Statement encode
  rw [h0 _ (by rw [opF_iType]; rfl)]
  simp only [immF_iType, rsF_iType, rtF_iType]

theorem RoundTrip.sdc1 (base ft : BitVec 5) (offset : BitVec 16) : RoundTrip.Statement (.sdc1 base ft offset) := by
  have h0 (w : Word) (h : (opF w).toNat = 61) : decode w = .ok (.sdc1 (rsF w) (rtF w) (immF w)) := by
    unfold decode
    rw [h]
    rfl
  unfold RoundTrip.Statement encode
  rw [h0 _ (by rw [opF_iType]; rfl)]
  simp only [immF_iType, rsF_iType, rtF_iType]

theorem RoundTrip.addS (ft fs fd : BitVec 5) : RoundTrip.Statement (.addS ft fs fd) := by
  have h2 (w : Word) (h : (functF w).toNat = 0) : decodeFmtS w = .ok (.addS (rtF w) (rdF w) (saF w)) := by
    unfold decodeFmtS
    rw [h]
    rfl
  unfold RoundTrip.Statement encode
  rw [decode_at17 _ (by rw [opF_rType]; rfl), decodeCop1_at16 _ (by rw [rsF_rType]; rfl), h2 _ (by rw [functF_rType]; rfl)]
  simp only [rdF_rType, rtF_rType, saF_rType]

theorem RoundTrip.addD (ft fs fd : BitVec 5) : RoundTrip.Statement (.addD ft fs fd) := by
  have h2 (w : Word) (h : (functF w).toNat = 0) : decodeFmtD w = .ok (.addD (rtF w) (rdF w) (saF w)) := by
    unfold decodeFmtD
    rw [h]
    rfl
  unfold RoundTrip.Statement encode
  rw [decode_at17 _ (by rw [opF_rType]; rfl), decodeCop1_at17 _ (by rw [rsF_rType]; rfl), h2 _ (by rw [functF_rType]; rfl)]
  simp only [rdF_rType, rtF_rType, saF_rType]

theorem RoundTrip.subS (ft fs fd : BitVec 5) : RoundTrip.Statement (.subS ft fs fd) := by
  have h2 (w : Word) (h : (functF w).toNat = 1) : decodeFmtS w = .ok (.subS (rtF w) (rdF w) (saF w)) := by
    unfold decodeFmtS
    rw [h]
    rfl
  unfold RoundTrip.Statement encode
  rw [decode_at17 _ (by rw [opF_rType]; rfl), decodeCop1_at16 _ (by rw [rsF_rType]; rfl), h2 _ (by rw [functF_rType]; rfl)]
  simp only [rdF_rType, rtF_rType, saF_rType]

theorem RoundTrip.subD (ft fs fd : BitVec 5) : RoundTrip.Statement (.subD ft fs fd) := by
  have h2 (w : Word) (h : (functF w).toNat = 1) : decodeFmtD w = .ok (.subD (rtF w) (rdF w) (saF w)) := by
    unfold decodeFmtD
    rw [h]
    rfl
  unfold RoundTrip.Statement encode
  rw [decode_at17 _ (by rw [opF_rType]; rfl), decodeCop1_at17 _ (by rw [rsF_rType]; rfl), h2 _ (by rw [functF_rType]; rfl)]
  simp only [rdF_rType, rtF_rType, saF_rType]

theorem RoundTrip.mulS (ft fs fd : BitVec 5) : RoundTrip.Statement (.mulS ft fs fd) := by
  have h2 (w : Word) (h : (functF w).toNat = 2) : decodeFmtS w = .ok (.mulS (rtF w) (rdF w) (saF w)) := by
    unfold decodeFmtS
    rw [h]
    rfl
  unfold RoundTrip.Statement encode
  rw [decode_at17 _ (by rw [opF_rType]; rfl), decodeCop1_at16 _ (by rw [rsF_rType]; rfl), h2 _ (by rw [functF_rType]; rfl)]
  simp only [rdF_rType, rtF_rType, saF_rType]

theorem RoundTrip.mulD (ft fs fd : BitVec 5) : RoundTrip.Statement (.mulD ft fs fd) := by
  have h2 (w : Word) (h : (functF w).toNat = 2) : decodeFmtD w = .ok (.mulD (rtF w) (rdF w) (saF w)) := by
    unfold decodeFmtD
    rw [h]
    rfl
  unfold RoundTrip.Statement encode
  rw [decode_at17 _ (by rw [opF_rType]; rfl), decodeCop1_at17 _ (by rw [rsF_rType]; rfl), h2 _ (by rw [functF_rType]; rfl)]
  simp only [rdF_rType, rtF_rType, saF_rType]

theorem RoundTrip.divS (ft fs fd : BitVec 5) : RoundTrip.Statement (.divS ft fs fd) := by
  have h2 (w : Word) (h : (functF w).toNat = 3) : decodeFmtS w = .ok (.divS (rtF w) (rdF w) (saF w)) := by
    unfold decodeFmtS
    rw [h]
    rfl
  unfold RoundTrip.Statement encode
  rw [decode_at17 _ (by rw [opF_rType]; rfl), decodeCop1_at16 _ (by rw [rsF_rType]; rfl), h2 _ (by rw [functF_rType]; rfl)]
  simp only [rdF_rType, rtF_rType, saF_rType]

theorem RoundTrip.divD (ft fs fd : BitVec 5) : RoundTrip.Statement (.divD ft fs fd) := by
  have h2 (w : Word) (h : (functF w).toNat = 3) : decodeFmtD w = .ok (.divD (rtF w) (rdF w) (saF w)) := by
    unfold decodeFmtD
    rw [h]
    rfl
  unfold RoundTrip.Statement encode
  rw [decode_at17 _ (by rw [opF_rType]; rfl), decodeCop1_at17 _ (by rw [rsF_rType]; rfl), h2 _ (by rw [functF_rType]; rfl)]
  simp only [rdF_rType, rtF_rType, saF_rType]

theorem RoundTrip.sqrtS (fs fd : BitVec 5) : RoundTrip.Statement (.sqrtS fs fd) := by
  have h2 (w : Word) (h : (functF w).toNat = 4) : decodeFmtS w = .ok (.sqrtS (rdF w) (saF w)) := by
    unfold decodeFmtS
    rw [h]
    rfl
  unfold RoundTrip.Statement encode
  rw [decode_at17 _ (by rw [opF_rType]; rfl), decodeCop1_at16 _ (by rw [rsF_rType]; rfl), h2 _ (by rw [functF_rType]; rfl)]
  simp only [rdF_rType, saF_rType]

theorem RoundTrip.sqrtD (fs fd : BitVec 5) : RoundTrip.Statement (.sqrtD fs fd) := by
  have h2 (w : Word) (h : (functF w).toNat = 4) : decodeFmtD w = .ok (.sqrtD (rdF w) (saF w)) := by
    unfold decodeFmtD
    rw [h]
    rfl
  unfold RoundTrip.Statement encode
  rw [decode_at17 _ (by rw [opF_rType]; rfl), decodeCop1_at17 _ (by rw [rsF_rType]; rfl), h2 _ (by rw [functF_rType]; rfl)]
  simp only [rdF_rType, saF_rType]

theorem RoundTrip.absS (fs fd : BitVec 5) : RoundTrip.Statement (.absS fs fd) := by
  have h2 (w : Word) (h : (functF w).toNat = 5) : decodeFmtS w = .ok (.absS (rdF w) (saF w)) := by
    unfold decodeFmtS
    rw [h]
    rfl
  unfold RoundTrip.Statement encode
  rw [decode_at17 _ (by rw [opF_rType]; rfl), decodeCop1_at16 _ (by rw [rsF_rType]; rfl), h2 _ (by rw [functF_rType]; rfl)]
  simp only [rdF_rType, saF_rType]

theorem RoundTrip.absD (fs fd : BitVec 5) : RoundTrip.Statement (.absD fs fd) := by
  have h2 (w : Word) (h : (functF w).toNat = 5) : decodeFmtD w = .ok (.absD (rdF w) (saF w)) := by
    unfold decodeFmtD
    rw [h]
    rfl
  unfold RoundTrip.Statement encode
  rw [decode_at17 _ (by rw [opF_rType]; rfl), decodeCop1_at17 _ (by rw [rsF_rType]; rfl), h2 _ (by rw [functF_rType]; rfl)]
  simp only [rdF_rType, saF_rType]

theorem RoundTrip.movS (fs fd : BitVec 5) : RoundTrip.Statement (.movS fs fd) := by
  have h2 (w : Word) (h : (functF w).toNat = 6) : decodeFmtS w = .ok (.movS (rdF w) (saF w)) := by
    unfold decodeFmtS
    rw [h]
    rfl
  unfold RoundTrip.Statement encode
  rw [decode_at17 _ (by rw [opF_rType]; rfl), decodeCop1_at16 _ (by rw [rsF_rType]; rfl), h2 _ (by rw [functF_rType]; rfl)]
  simp only [rdF_rType, saF_rType]

theorem RoundTrip.movD (fs fd : BitVec 5) : RoundTrip.Statement (.movD fs fd) := by
  have h2 (w : Word) (h : (functF w).toNat = 6) : decodeFmtD w = .ok (.movD (rdF w) (saF w)) := by
    unfold decodeFmtD
    rw [h]
    rfl
  unfold RoundTrip.Statement encode
  rw [decode_at17 _ (by rw [opF_rType]; rfl), decodeCop1_at17 _ (by rw [rsF_rType]; rfl), h2 _ (by rw [functF_rType]; rfl)]
  simp only [rdF_rType, saF_rType]

theorem RoundTrip.negS (fs fd : BitVec 5) : RoundTrip.Statement (.negS fs fd) := by
  have h2 (w : Word) (h : (functF w).toNat = 7) : decodeFmtS w = .ok (.negS (rdF w) (saF w)) := by
    unfold decodeFmtS
    rw [h]
    rfl
  unfold RoundTrip.Statement encode
  rw [decode_at17 _ (by rw [opF_rType]; rfl), decodeCop1_at16 _ (by rw [rsF_rType]; rfl), h2 _ (by rw [functF_rType]; rfl)]
  simp only [rdF_rType, saF_rType]

theorem RoundTrip.negD (fs fd : BitVec 5) : RoundTrip.Statement (.negD fs fd) := by
  have h2 (w : Word) (h : (functF w).toNat = 7) : decodeFmtD w = .ok (.negD (rdF w) (saF w)) := by
    unfold decodeFmtD
    rw [h]
    rfl
  unfold RoundTrip.Statement encode
  rw [decode_at17 _ (by rw [opF_rType]; rfl), decodeCop1_at17 _ (by rw [rsF_rType]; rfl), h2 _ (by rw [functF_rType]; rfl)]
  simp only [rdF_rType, saF_rType]

theorem RoundTrip.recipS (fs fd : BitVec 5) : RoundTrip.Statement (.recipS fs fd) := by
  have h2 (w : Word) (h : (functF w).toNat = 21) : decodeFmtS w = .ok (.recipS (rdF w) (saF w)) := by
    unfold decodeFmtS
    rw [h]
    rfl
  unfold RoundTrip.Statement encode
  rw [decode_at17 _ (by rw [opF_rType]; rfl), decodeCop1_at16 _ (by rw [rsF_rType]; rfl), h2 _ (by rw [functF_rType]; rfl)]
  simp only [rdF_rType, saF_rType]

theorem RoundTrip.recipD (fs fd : BitVec 5) : RoundTrip.Statement (.recipD fs fd) := by
  have h2 (w : Word) (h : (functF w).toNat = 21) : decodeFmtD w = .ok (.recipD (rdF w) (saF w)) := by
    unfold decodeFmtD
    rw [h]
    rfl
  unfold RoundTrip.Statement encode
  rw [decode_at17 _ (by rw [opF_rType]; rfl), decodeCop1_at17 _ (by rw [rsF_rType]; rfl), h2 _ (by rw [functF_rType]; rfl)]
  simp only [rdF_rType, saF_rType]

theorem RoundTrip.rsqrtS (fs fd : BitVec 5) : RoundTrip.Statement (.rsqrtS fs fd) := by
  have h2 (w : Word) (h : (functF w).toNat = 22) : decodeFmtS w = .ok (.rsqrtS (rdF w) (saF w)) := by
    unfold decodeFmtS
    rw [h]
    rfl
  unfold RoundTrip.Statement encode
  rw [decode_at17 _ (by rw [opF_rType]; rfl), decodeCop1_at16 _ (by rw [rsF_rType]; rfl), h2 _ (by rw [functF_rType]; rfl)]
  simp only [rdF_rType, saF_rType]

theorem RoundTrip.rsqrtD (fs fd : BitVec 5) : RoundTrip.Statement (.rsqrtD fs fd) := by
  have h2 (w : Word) (h : (functF w).toNat = 22) : decodeFmtD w = .ok (.rsqrtD (rdF w) (saF w)) := by
    unfold decodeFmtD
    rw [h]
    rfl
  unfold RoundTrip.Statement encode
  rw [decode_at17 _ (by rw [opF_rType]; rfl), decodeCop1_at17 _ (by rw [rsF_rType]; rfl), h2 _ (by rw [functF_rType]; rfl)]
  simp only [rdF_rType, saF_rType]

theorem RoundTrip.roundLS (fs fd : BitVec 5) : RoundTrip.Statement (.roundLS fs fd) := by
  have h2 (w : Word) (h : (functF w).toNat = 8) : decodeFmtS w = .ok (.roundLS (rdF w) (saF w)) := by
    unfold decodeFmtS
    rw [h]
    rfl
  unfold RoundTrip.Statement encode
  rw [decode_at17 _ (by rw [opF_rType]; rfl), decodeCop1_at16 _ (by rw [rsF_rType]; rfl), h2 _ (by rw [functF_rType]; rfl)]
  simp only [rdF_rType, saF_rType]

theorem RoundTrip.roundLD (fs fd : BitVec 5) : RoundTrip.Statement (.roundLD fs fd) := by
  have h2 (w : Word) (h : (functF w).toNat = 8) : decodeFmtD w = .ok (.roundLD (rdF w) (saF w)) := by
    unfold decodeFmtD
    rw [h]
    rfl
  unfold RoundTrip.Statement encode
  rw [decode_at17 _ (by rw [opF_rType]; rfl), decodeCop1_at17 _ (by rw [rsF_rType]; rfl), h2 _ (by rw [functF_rType]; rfl)]
  simp only [rdF_rType, saF_rType]

theorem RoundTrip.truncLS (fs fd : BitVec 5) : RoundTrip.Statement (.truncLS fs fd) := by
  have h2 (w : Word) (h : (functF w).toNat = 9) : decodeFmtS w = .ok (.truncLS (rdF w) (saF w)) := by
    unfold decodeFmtS
    rw [h]
    rfl
  unfold RoundTrip.Statement encode
  rw [decode_at17 _ (by rw [opF_rType]; rfl), decodeCop1_at16 _ (by rw [rsF_rType]; rfl), h2 _ (by rw [functF_rType]; rfl)]
  simp only [rdF_rType, saF_rType]

theorem RoundTrip.truncLD (fs fd : BitVec 5) : RoundTrip.Statement (.truncLD fs fd) := by
  have h2 (w : Word) (h : (functF w).toNat = 9) : decodeFmtD w = .ok (.truncLD (rdF w) (saF w)) := by
    unfold decodeFmtD
    rw [h]
    rfl
  unfold RoundTrip.Statement encode
  rw [decode_at17 _ (by rw [opF_rType]; rfl), decodeCop1_at17 _ (by rw [rsF_rType]; rfl), h2 _ (by rw [functF_rType]; rfl)]
  simp only [rdF_rType, saF_rType]

theorem RoundTrip.ceilLS (fs fd : BitVec 5) : RoundTrip.Statement (.ceilLS fs fd) := by
  have h2 (w : Word) (h : (functF w).toNat = 10) : decodeFmtS w = .ok (.ceilLS (rdF w) (saF w)) := by
    unfold decodeFmtS
    rw [h]
    rfl
  unfold RoundTrip.Statement encode
  rw [decode_at17 _ (by rw [opF_rType]; rfl), decodeCop1_at16 _ (by rw [rsF_rType]; rfl), h2 _ (by rw [functF_rType]; rfl)]
  simp only [rdF_rType, saF_rType]

theorem RoundTrip.ceilLD (fs fd : BitVec 5) : RoundTrip.Statement (.ceilLD fs fd) := by
  have h2 (w : Word) (h : (functF w).toNat = 10) : decodeFmtD w = .ok (.ceilLD (rdF w) (saF w)) := by
    unfold decodeFmtD
    rw [h]
    rfl
  unfold RoundTrip.Statement encode
  rw [decode_at17 _ (by rw [opF_rType]; rfl), decodeCop1_at17 _ (by rw [rsF_rType]; rfl), h2 _ (by rw [functF_rType]; rfl)]
  simp only [rdF_rType, saF_rType]

theorem RoundTrip.floorLS (fs fd : BitVec 5) : RoundTrip.Statement (.floorLS fs fd) := by
  have h2 (w : Word) (h : (functF w).toNat = 11) : decodeFmtS w = .ok (.floorLS (rdF w) (saF w)) := by
    unfold decodeFmtS
    rw [h]
    rfl
  unfold RoundTrip.Statement encode
  rw [decode_at17 _ (by rw [opF_rType]; rfl), decodeCop1_at16 _ (by rw [rsF_rType]; rfl), h2 _ (by rw [functF_rType]; rfl)]
  simp only [rdF_rType, saF_rType]

theorem RoundTrip.floorLD (fs fd : BitVec 5) : RoundTrip.Statement (.floorLD fs fd) := by
  have h2 (w : Word) (h : (functF w).toNat = 11) : decodeFmtD w = .ok (.floorLD (rdF w) (saF w)) := by
    unfold decodeFmtD
    rw [h]
    rfl
  unfold RoundTrip.Statement encode
  rw [decode_at17 _ (by rw [opF_rType]; rfl), decodeCop1_at17 _ (by rw [rsF_rType]; rfl), h2 _ (by rw [functF_rType]; rfl)]
  simp only [rdF_rType, saF_rType]

theorem RoundTrip.roundWS (fs fd : BitVec 5) : RoundTrip.Statement (.roundWS fs fd) := by
  have h2 (w : Word) (h : (functF w).toNat = 12) : decodeFmtS w = .ok (.roundWS (rdF w) (saF w)) := by
    unfold decodeFmtS
    rw [h]
    rfl
  unfold RoundTrip.Statement encode
  rw [decode_at17 _ (by rw [opF_rType]; rfl), decodeCop1_at16 _ (by rw [rsF_rType]; rfl), h2 _ (by rw [functF_rType]; rfl)]
  simp only [rdF_rType, saF_rType]

theorem RoundTrip.roundWD (fs fd : BitVec 5) : RoundTrip.Statement (.roundWD fs fd) := by
  have h2 (w : Word) (h : (functF w).toNat = 12) : decodeFmtD w = .ok (.roundWD (rdF w) (saF w)) := by
    unfold decodeFmtD
    rw [h]
    rfl
  unfold RoundTrip.Statement encode
  rw [decode_at17 _ (by rw [opF_rType]; rfl), decodeCop1_at17 _ (by rw [rsF_rType]; rfl), h2 _ (by rw [functF_rType]; rfl)]
  simp only [rdF_rType, saF_rType]

theorem RoundTrip.truncWS (fs fd : BitVec 5) : RoundTrip.Statement (.truncWS fs fd) := by
  have h2 (w : Word) (h : (functF w).toNat = 13) : decodeFmtS w = .ok (.truncWS (rdF w) (saF w)) := by
    unfold decodeFmtS
    rw [h]
    rfl
  unfold RoundTrip.Statement encode
  rw [decode_at17 _ (by rw [opF_rType]; rfl), decodeCop1_at16 _ (by rw [rsF_rType]; rfl), h2 _ (by rw [functF_rType]; rfl)]
  simp only [rdF_rType, saF_rType]

theorem RoundTrip.truncWD (fs fd : BitVec 5) : RoundTrip.Statement (.truncWD fs fd) := by
  have h2 (w : Word) (h : (functF w).toNat = 13) : decodeFmtD w = .ok (.truncWD (rdF w) (saF w)) := by
    unfold decodeFmtD
    rw [h]
    rfl
  unfold RoundTrip.Statement encode
  rw [decode_at17 _ (by rw [opF_rType]; rfl), decodeCop1_at17 _ (by rw [rsF_rType]; rfl), h2 _ (by rw [functF_rType]; rfl)]
  simp only [rdF_rType, saF_rType]

theorem RoundTrip.ceilWS (fs fd : BitVec 5) : RoundTrip.Statement (.ceilWS fs fd) := by
  have h2 (w : Word) (h : (functF w).toNat = 14) : decodeFmtS w = .ok (.ceilWS (rdF w) (saF w)) := by
    unfold decodeFmtS
    rw [h]
    rfl
  unfold RoundTrip.Statement encode
  rw [decode_at17 _ (by rw [opF_rType]; rfl), decodeCop1_at16 _ (by rw [rsF_rType]; rfl), h2 _ (by rw [functF_rType]; rfl)]
  simp only [rdF_rType, saF_rType]

theorem RoundTrip.ceilWD (fs fd : BitVec 5) : RoundTrip.Statement (.ceilWD fs fd) := by
  have h2 (w : Word) (h : (functF w).toNat = 14) : decodeFmtD w = .ok (.ceilWD (rdF w) (saF w)) := by
    unfold decodeFmtD
    rw [h]
    rfl
  unfold RoundTrip.Statement encode
  rw [decode_at17 _ (by rw [opF_rType]; rfl), decodeCop1_at17 _ (by rw [rsF_rType]; rfl), h2 _ (by rw [functF_rType]; rfl)]
  simp only [rdF_rType, saF_rType]

theorem RoundTrip.floorWS (fs fd : BitVec 5) : RoundTrip.Statement (.floorWS fs fd) := by
  have h2 (w : Word) (h : (functF w).toNat = 15) : decodeFmtS w = .ok (.floorWS (rdF w) (saF w)) := by
    unfold decodeFmtS
    rw [h]
    rfl
  unfold RoundTrip.Statement encode
  rw [decode_at17 _ (by rw [opF_rType]; rfl), decodeCop1_at16 _ (by rw [rsF_rType]; rfl), h2 _ (by rw [functF_rType]; rfl)]
  simp only [rdF_rType, saF_rType]

theorem RoundTrip.floorWD (fs fd : BitVec 5) : RoundTrip.Statement (.floorWD fs fd) := by
  have h2 (w : Word) (h : (functF w).toNat = 15) : decodeFmtD w = .ok (.floorWD (rdF w) (saF w)) := by
    unfold decodeFmtD
    rw [h]
    rfl
  unfold RoundTrip.Statement encode
  rw [decode_at17 _ (by rw [opF_rType]; rfl), decodeCop1_at17 _ (by rw [rsF_rType]; rfl), h2 _ (by rw [functF_rType]; rfl)]
  simp only [rdF_rType, saF_rType]

theorem RoundTrip.cvtWS (fs fd : BitVec 5) : RoundTrip.Statement (.cvtWS fs fd) := by
  have h2 (w : Word) (h : (functF w).toNat = 36) : decodeFmtS w = .ok (.cvtWS (rdF w) (saF w)) := by
    unfold decodeFmtS
    rw [h]
    rfl
  unfold RoundTrip.Statement encode
  rw [decode_at17 _ (by rw [opF_rType]; rfl), decodeCop1_at16 _ (by rw [rsF_rType]; rfl), h2 _ (by rw [functF_rType]; rfl)]
  simp only [rdF_rType, saF_rType]

theorem RoundTrip.cvtWD (fs fd : BitVec 5) : RoundTrip.Statement (.cvtWD fs fd) := by
  have h2 (w : Word) (h : (functF w).toNat = 36) : decodeFmtD w = .ok (.cvtWD (rdF w) (saF w)) := by
    unfold decodeFmtD
    rw [h]
    rfl
  unfold RoundTrip.Statement encode
  rw [decode_at17 _ (by rw [opF_rType]; rfl), decodeCop1_at17 _ (by rw [rsF_rType]; rfl), h2 _ (by rw [functF_rType]; rfl)]
  simp only [rdF_rType, saF_rType]

theorem RoundTrip.cvtLS (fs fd : BitVec 5) : RoundTrip.Statement (.cvtLS fs fd) := by
  have h2 (w : Word) (h : (functF w).toNat = 37) : decodeFmtS w = .ok (.cvtLS (rdF w) (saF w)) := by
    unfold decodeFmtS
    rw [h]
    rfl
  unfold RoundTrip.Statement encode
  rw [decode_at17 _ (by rw [opF_rType]; rfl), decodeCop1_at16 _ (by rw [rsF_rType]; rfl), h2 _ (by rw [functF_rType]; rfl)]
  simp only [rdF_rType, saF_rType]

theorem RoundTrip.cvtLD (fs fd : BitVec 5) : RoundTrip.Statement (.cvtLD fs fd) := by
  have h2 (w : Word) (h : (functF w).toNat = 37) : decodeFmtD w = .ok (.cvtLD (rdF w) (saF w)) := by
    unfold decodeFmtD
    rw [h]
    rfl
  unfold RoundTrip.Statement encode
  rw [decode_at17 _ (by rw [opF_rType]; rfl), decodeCop1_at17 _ (by rw [rsF_rType]; rfl), h2 _ (by rw [functF_rType]; rfl)]
  simp only [rdF_rType, saF_rType]

theorem RoundTrip.cvtSD (fs fd : BitVec 5) : RoundTrip.Statement (.cvtSD fs fd) := by
  have h2 (w : Word) (h : (functF w).toNat = 32) : decodeFmtD w = .ok (.cvtSD (rdF w) (saF w)) := by
    unfold decodeFmtD
    rw [h]
    rfl
  unfold RoundTrip.Statement encode
  rw [decode_at17 _ (by rw [opF_rType]; rfl), decodeCop1_at17 _ (by rw [rsF_rType]; rfl), h2 _ (by rw [functF_rType]; rfl)]
  simp only [rdF_rType, saF_rType]

theorem RoundTrip.cvtSW (fs fd : BitVec 5) : RoundTrip.Statement (.cvtSW fs fd) := by
  have h1 (w : Word) (h : (rsF w).toNat = 20) : decodeCop1 w = decodeFmtW w := by
    unfold decodeCop1
    rw [h]
    rfl
  have h2 (w : Word) (h : (functF w).toNat = 32) : decodeFmtW w = .ok (.cvtSW (rdF w) (saF w)) := by
    unfold decodeFmtW
    rw [h]
    rfl
  unfold RoundTrip.Statement encode
  rw [decode_at17 _ (by rw [opF_rType]; rfl), h1 _ (by rw [rsF_rType]; rfl), h2 _ (by rw [functF_rType]; rfl)]
  simp only [rdF_rType, saF_rType]

theorem RoundTrip.cvtSL (fs fd : BitVec 5) : RoundTrip.Statement (.cvtSL fs fd) := by
  have h2 (w : Word) (h : (functF w).toNat = 32) : decodeFmtL w = .ok (.cvtSL (rdF w) (saF w)) := by
    unfold decodeFmtL
    rw [h]
    rfl
  unfold RoundTrip.Statement encode
  rw [decode_at17 _ (by rw [opF_rType]; rfl), decodeCop1_at21 _ (by rw [rsF_rType]; rfl), h2 _ (by rw [functF_rType]; rfl)]
  simp only [rdF_rType, saF_rType]

theorem RoundTrip.cvtDS (fs fd : BitVec 5) : RoundTrip.Statement (.cvtDS fs fd) := by
  have h2 (w : Word) (h : (functF w).toNat = 33) : decodeFmtS w = .ok (.cvtDS (rdF w) (saF w)) := by
    unfold decodeFmtS
    rw [h]
    rfl
  unfold RoundTrip.Statement encode
  rw [decode_at17 _ (by rw [opF_rType]; rfl), decodeCop1_at16 _ (by rw [rsF_rType]; rfl), h2 _ (by rw [functF_rType]; rfl)]
  simp only [rdF_rType, saF_rType]

theorem RoundTrip.cvtDW (fs fd : BitVec 5) : RoundTrip.Statement (.cvtDW fs fd) := by
  have h1 (w : Word) (h : (rsF w).toNat = 20) : decodeCop1 w = decodeFmtW w := by
    unfold decodeCop1
    rw [h]
    rfl
  have h2 (w : Word) (h : (functF w).toNat = 33) : decodeFmtW w = .ok (.cvtDW (rdF w) (saF w)) := by
    unfold decodeFmtW
    rw [h]
    rfl
  unfold RoundTrip.Statement encode
  rw [decode_at17 _ (by rw [opF_rType]; rfl), h1 _ (by rw [rsF_rType]; rfl), h2 _ (by rw [functF_rType]; rfl)]
  simp only [rdF_rType, saF_rType]

theorem RoundTrip.cvtDL (fs fd : BitVec 5) : RoundTrip.Statement (.cvtDL fs fd) := by
  have h2 (w : Word) (h : (functF w).toNat = 33) : decodeFmtL w = .ok (.cvtDL (rdF w) (saF w)) := by
    unfold decodeFmtL
    rw [h]
    rfl
  unfold RoundTrip.Statement encode
  rw [decode_at17 _ (by rw [opF_rType]; rfl), decodeCop1_at21 _ (by rw [rsF_rType]; rfl), h2 _ (by rw [functF_rType]; rfl)]
  simp only [rdF_rType, saF_rType]

theorem RoundTrip.movfS (cc : BitVec 3) (fs fd : BitVec 5) : RoundTrip.Statement (.movfS cc fs fd) := by
  simp [RoundTrip.Statement, encode, decode, decodeCop1, decodeFmtS, tfF, ccHiF]

theorem RoundTrip.movtS (cc : BitVec 3) (fs fd : BitVec 5) : RoundTrip.Statement (.movtS cc fs fd) := by
  simp [RoundTrip.Statement, encode, decode, decodeCop1, decodeFmtS, tfF, ccHiF]

theorem RoundTrip.movzS (rt fs fd : BitVec 5) : RoundTrip.Statement (.movzS rt fs fd) := by
  have h2 (w : Word) (h : (functF w).toNat = 18) : decodeFmtS w = .ok (.movzS (rtF w) (rdF w) (saF w)) := by
    unfold decodeFmtS
    rw [h]
    rfl
  unfold RoundTrip.Statement encode
  rw [decode_at17 _ (by rw [opF_rType]; rfl), decodeCop1_at16 _ (by rw [rsF_rType]; rfl), h2 _ (by rw [functF_rType]; rfl)]
  simp only [rdF_rType, rtF_rType, saF_rType]

theorem RoundTrip.movnS (rt fs fd : BitVec 5) : RoundTrip.Statement (.movnS rt fs fd) := by
  have h2 (w : Word) (h : (functF w).toNat = 19) : decodeFmtS w = .ok (.movnS (rtF w) (rdF w) (saF w)) := by
    unfold decodeFmtS
    rw [h]
    rfl
  unfold RoundTrip.Statement encode
  rw [decode_at17 _ (by rw [opF_rType]; rfl), decodeCop1_at16 _ (by rw [rsF_rType]; rfl), h2 _ (by rw [functF_rType]; rfl)]
  simp only [rdF_rType, rtF_rType, saF_rType]

theorem RoundTrip.movfD (cc : BitVec 3) (fs fd : BitVec 5) : RoundTrip.Statement (.movfD cc fs fd) := by
  simp [RoundTrip.Statement, encode, decode, decodeCop1, decodeFmtD, tfF, ccHiF]

theorem RoundTrip.movtD (cc : BitVec 3) (fs fd : BitVec 5) : RoundTrip.Statement (.movtD cc fs fd) := by
  simp [RoundTrip.Statement, encode, decode, decodeCop1, decodeFmtD, tfF, ccHiF]

theorem RoundTrip.movzD (rt fs fd : BitVec 5) : RoundTrip.Statement (.movzD rt fs fd) := by
  have h2 (w : Word) (h : (functF w).toNat = 18) : decodeFmtD w = .ok (.movzD (rtF w) (rdF w) (saF w)) := by
    unfold decodeFmtD
    rw [h]
    rfl
  unfold RoundTrip.Statement encode
  rw [decode_at17 _ (by rw [opF_rType]; rfl), decodeCop1_at17 _ (by rw [rsF_rType]; rfl), h2 _ (by rw [functF_rType]; rfl)]
  simp only [rdF_rType, rtF_rType, saF_rType]

theorem RoundTrip.movnD (rt fs fd : BitVec 5) : RoundTrip.Statement (.movnD rt fs fd) := by
  have h2 (w : Word) (h : (functF w).toNat = 19) : decodeFmtD w = .ok (.movnD (rtF w) (rdF w) (saF w)) := by
    unfold decodeFmtD
    rw [h]
    rfl
  unfold RoundTrip.Statement encode
  rw [decode_at17 _ (by rw [opF_rType]; rfl), decodeCop1_at17 _ (by rw [rsF_rType]; rfl), h2 _ (by rw [functF_rType]; rfl)]
  simp only [rdF_rType, rtF_rType, saF_rType]

theorem RoundTrip.cFS (ft fs : BitVec 5) (cc : BitVec 3) : RoundTrip.Statement (.cFS ft fs cc) := by
  have h2 (w : Word) (h : (functF w).toNat = 48) : decodeFmtS w = .ok (.cFS (rtF w) (rdF w) (ccLoF w)) := by
    unfold decodeFmtS
    rw [h]
    rfl
  unfold RoundTrip.Statement encode
  rw [decode_at17 _ (by rw [opF_rType]; rfl), decodeCop1_at16 _ (by rw [rsF_rType]; rfl), h2 _ (by rw [functF_rType]; rfl)]
  simp only [rdF_rType, rtF_rType, ccLoF, saF_rType, ccSlot_hi]

theorem RoundTrip.cUnS (ft fs : BitVec 5) (cc : BitVec 3) : RoundTrip.Statement (.cUnS ft fs cc) := by
  have h2 (w : Word) (h : (functF w).toNat = 49) : decodeFmtS w = .ok (.cUnS (rtF w) (rdF w) (ccLoF w)) := by
    unfold decodeFmtS
    rw [h]
    rfl
  unfold RoundTrip.Statement encode
  rw [decode_at17 _ (by rw [opF_rType]; rfl), decodeCop1_at16 _ (by rw [rsF_rType]; rfl), h2 _ (by rw [functF_rType]; rfl)]
  simp only [rdF_rType, rtF_rType, ccLoF, saF_rType, ccSlot_hi]

theorem RoundTrip.cEqS (ft fs : BitVec 5) (cc : BitVec 3) : RoundTrip.Statement (.cEqS ft fs cc) := by
  have h2 (w : Word) (h : (functF w).toNat = 50) : decodeFmtS w = .ok (.cEqS (rtF w) (rdF w) (ccLoF w)) := by
    unfold decodeFmtS
    rw [h]
    rfl
  unfold RoundTrip.Statement encode
  rw [decode_at17 _ (by rw [opF_rType]; rfl), decodeCop1_at16 _ (by rw [rsF_rType]; rfl), h2 _ (by rw [functF_rType]; rfl)]
  simp only [rdF_rType, rtF_rType, ccLoF, saF_rType, ccSlot_hi]

theorem RoundTrip.cUeqS (ft fs : BitVec 5) (cc : BitVec 3) : RoundTrip.Statement (.cUeqS ft fs cc) := by
  have h2 (w : Word) (h : (functF w).toNat = 51) : decodeFmtS w = .ok (.cUeqS (rtF w) (rdF w) (ccLoF w)) := by
    unfold decodeFmtS
    rw [h]
    rfl
  unfold RoundTrip.Statement encode
  rw [decode_at17 _ (by rw [opF_rType]; rfl), decodeCop1_at16 _ (by rw [rsF_rType]; rfl), h2 _ (by rw [functF_rType]; rfl)]
  simp only [rdF_rType, rtF_rType, ccLoF, saF_rType, ccSlot_hi]

theorem RoundTrip.cOltS (ft fs : BitVec 5) (cc : BitVec 3) : RoundTrip.Statement (.cOltS ft fs cc) := by
  have h2 (w : Word) (h : (functF w).toNat = 52) : decodeFmtS w = .ok (.cOltS (rtF w) (rdF w) (ccLoF w)) := by
    unfold decodeFmtS
    rw [h]
    rfl
  unfold RoundTrip.Statement encode
  rw [decode_at17 _ (by rw [opF_rType]; rfl), decodeCop1_at16 _ (by rw [rsF_rType]; rfl), h2 _ (by rw [functF_rType]; rfl)]
  simp only [rdF_rType, rtF_rType, ccLoF, saF_rType, ccSlot_hi]

theorem RoundTrip.cUltS (ft fs : BitVec 5) (cc : BitVec 3) : RoundTrip.Statement (.cUltS ft fs cc) := by
  have h2 (w : Word) (h : (functF w).toNat = 53) : decodeFmtS w = .ok (.cUltS (rtF w) (rdF w) (ccLoF w)) := by
    unfold decodeFmtS
    rw [h]
    rfl
  unfold RoundTrip.Statement encode
  rw [decode_at17 _ (by rw [opF_rType]; rfl), decodeCop1_at16 _ (by rw [rsF_rType]; rfl), h2 _ (by rw [functF_rType]; rfl)]
  simp only [rdF_rType, rtF_rType, ccLoF, saF_rType, ccSlot_hi]

theorem RoundTrip.cOleS (ft fs : BitVec 5) (cc : BitVec 3) : RoundTrip.Statement (.cOleS ft fs cc) := by
  have h2 (w : Word) (h : (functF w).toNat = 54) : decodeFmtS w = .ok (.cOleS (rtF w) (rdF w) (ccLoF w)) := by
    unfold decodeFmtS
    rw [h]
    rfl
  unfold RoundTrip.Statement encode
  rw [decode_at17 _ (by rw [opF_rType]; rfl), decodeCop1_at16 _ (by rw [rsF_rType]; rfl), h2 _ (by rw [functF_rType]; rfl)]
  simp only [rdF_rType, rtF_rType, ccLoF, saF_rType, ccSlot_hi]

theorem RoundTrip.cUleS (ft fs : BitVec 5) (cc : BitVec 3) : RoundTrip.Statement (.cUleS ft fs cc) := by
  have h2 (w : Word) (h : (functF w).toNat = 55) : decodeFmtS w = .ok (.cUleS (rtF w) (rdF w) (ccLoF w)) := by
    unfold decodeFmtS
    rw [h]
    rfl
  unfold RoundTrip.Statement encode
  rw [decode_at17 _ (by rw [opF_rType]; rfl), decodeCop1_at16 _ (by rw [rsF_rType]; rfl), h2 _ (by rw [functF_rType]; rfl)]
  simp only [rdF_rType, rtF_rType, ccLoF, saF_rType, ccSlot_hi]

theorem RoundTrip.cSfS (ft fs : BitVec 5) (cc : BitVec 3) : RoundTrip.Statement (.cSfS ft fs cc) := by
  have h2 (w : Word) (h : (functF w).toNat = 56) : decodeFmtS w = .ok (.cSfS (rtF w) (rdF w) (ccLoF w)) := by
    unfold decodeFmtS
    rw [h]
    rfl
  unfold RoundTrip.Statement encode
  rw [decode_at17 _ (by rw [opF_rType]; rfl), decodeCop1_at16 _ (by rw [rsF_rType]; rfl), h2 _ (by rw [functF_rType]; rfl)]
  simp only [rdF_rType, rtF_rType, ccLoF, saF_rType, ccSlot_hi]

theorem RoundTrip.cNgleS (ft fs : BitVec 5) (cc : BitVec 3) : RoundTrip.Statement (.cNgleS ft fs cc) := by
  have h2 (w : Word) (h : (functF w).toNat = 57) : decodeFmtS w = .ok (.cNgleS (rtF w) (rdF w) (ccLoF w)) := by
    unfold decodeFmtS
    rw [h]
    rfl
  unfold RoundTrip.Statement encode
  rw [decode_at17 _ (by rw [opF_rType]; rfl), decodeCop1_at16 _ (by rw [rsF_rType]; rfl), h2 _ (by rw [functF_rType]; rfl)]
  simp only [rdF_rType, rtF_rType, ccLoF, saF_rType, ccSlot_hi]

theorem RoundTrip.cSeqS (ft fs : BitVec 5) (cc : BitVec 3) : RoundTrip.Statement (.cSeqS ft fs cc) := by
  have h2 (w : Word) (h : (functF w).toNat = 58) : decodeFmtS w = .ok (.cSeqS (rtF w) (rdF w) (ccLoF w)) := by
    unfold decodeFmtS
    rw [h]
    rfl
  unfold RoundTrip.Statement encode
  rw [decode_at17 _ (by rw [opF_rType]; rfl), decodeCop1_at16 _ (by rw [rsF_rType]; rfl), h2 _ (by rw [functF_rType]; rfl)]
  simp only [rdF_rType, rtF_rType, ccLoF, saF_rType, ccSlot_hi]

theorem RoundTrip.cNglS (ft fs : BitVec 5) (cc : BitVec 3) : RoundTrip.Statement (.cNglS ft fs cc) := by
  have h2 (w : Word) (h : (functF w).toNat = 59) : decodeFmtS w = .ok (.cNglS (rtF w) (rdF w) (ccLoF w)) := by
    unfold decodeFmtS
    rw [h]
    rfl
  unfold RoundTrip.Statement encode
  rw [decode_at17 _ (by rw [opF_rType]; rfl), decodeCop1_at16 _ (by rw [rsF_rType]; rfl), h2 _ (by rw [functF_rType]; rfl)]
  simp only [rdF_rType, rtF_rType, ccLoF, saF_rType, ccSlot_hi]

theorem RoundTrip.cLtS (ft fs : BitVec 5) (cc : BitVec 3) : RoundTrip.Statement (.cLtS ft fs cc) := by
  have h2 (w : Word) (h : (functF w).toNat = 60) : decodeFmtS w = .ok (.cLtS (rtF w) (rdF w) (ccLoF w)) := by
    unfold decodeFmtS
    rw [h]
    rfl
  unfold RoundTrip.Statement encode
  rw [decode_at17 _ (by rw [opF_rType]; rfl), decodeCop1_at16 _ (by rw [rsF_rType]; rfl), h2 _ (by rw [functF_rType]; rfl)]
  simp only [rdF_rType, rtF_rType, ccLoF, saF_rType, ccSlot_hi]

theorem RoundTrip.cNgeS (ft fs : BitVec 5) (cc : BitVec 3) : RoundTrip.Statement (.cNgeS ft fs cc) := by
  have h2 (w : Word) (h : (functF w).toNat = 61) : decodeFmtS w = .ok (.cNgeS (rtF w) (rdF w) (ccLoF w)) := by
    unfold decodeFmtS
    rw [h]
    rfl
  unfold RoundTrip.Statement encode
  rw [decode_at17 _ (by rw [opF_rType]; rfl), decodeCop1_at16 _ (by rw [rsF_rType]; rfl), h2 _ (by rw [functF_rType]; rfl)]
  simp only [rdF_rType, rtF_rType, ccLoF, saF_rType, ccSlot_hi]

theorem RoundTrip.cLeS (ft fs : BitVec 5) (cc : BitVec 3) : RoundTrip.Statement (.cLeS ft fs cc) := by
  have h2 (w : Word) (h : (functF w).toNat = 62) : decodeFmtS w = .ok (.cLeS (rtF w) (rdF w) (ccLoF w)) := by
    unfold decodeFmtS
    rw [h]
    rfl
  unfold RoundTrip.Statement encode
  rw [decode_at17 _ (by rw [opF_rType]; rfl), decodeCop1_at16 _ (by rw [rsF_rType]; rfl), h2 _ (by rw [functF_rType]; rfl)]
  simp only [rdF_rType, rtF_rType, ccLoF, saF_rType, ccSlot_hi]

theorem RoundTrip.cNgtS (ft fs : BitVec 5) (cc : BitVec 3) : RoundTrip.Statement (.cNgtS ft fs cc) := by
  have h2 (w : Word) (h : (functF w).toNat = 63) : decodeFmtS w = .ok (.cNgtS (rtF w) (rdF w) (ccLoF w)) := by
    unfold decodeFmtS
    rw [h]
    rfl
  unfold RoundTrip.Statement encode
  rw [decode_at17 _ (by rw [opF_rType]; rfl), decodeCop1_at16 _ (by rw [rsF_rType]; rfl), h2 _ (by rw [functF_rType]; rfl)]
  simp only [rdF_rType, rtF_rType, ccLoF, saF_rType, ccSlot_hi]

theorem RoundTrip.cFD (ft fs : BitVec 5) (cc : BitVec 3) : RoundTrip.Statement (.cFD ft fs cc) := by
  have h2 (w : Word) (h : (functF w).toNat = 48) : decodeFmtD w = .ok (.cFD (rtF w) (rdF w) (ccLoF w)) := by
    unfold decodeFmtD
    rw [h]
    rfl
  unfold RoundTrip.Statement encode
  rw [decode_at17 _ (by rw [opF_rType]; rfl), decodeCop1_at17 _ (by rw [rsF_rType]; rfl), h2 _ (by rw [functF_rType]; rfl)]
  simp only [rdF_rType, rtF_rType, ccLoF, saF_rType, ccSlot_hi]

theorem RoundTrip.cUnD (ft fs : BitVec 5) (cc : BitVec 3) : RoundTrip.Statement (.cUnD ft fs cc) := by
  have h2 (w : Word) (h : (functF w).toNat = 49) : decodeFmtD w = .ok (.cUnD (rtF w) (rdF w) (ccLoF w)) := by
    unfold decodeFmtD
    rw [h]
    rfl
  unfold RoundTrip.Statement encode
  rw [decode_at17 _ (by rw [opF_rType]; rfl), decodeCop1_at17 _ (by rw [rsF_rType]; rfl), h2 _ (by rw [functF_rType]; rfl)]
  simp only [rdF_rType, rtF_rType, ccLoF, saF_rType, ccSlot_hi]

theorem RoundTrip.cEqD (ft fs : BitVec 5) (cc : BitVec 3) : RoundTrip.Statement (.cEqD ft fs cc) := by
  have h2 (w : Word) (h : (functF w).toNat = 50) : decodeFmtD w = .ok (.cEqD (rtF w) (rdF w) (ccLoF w)) := by
    unfold decodeFmtD
    rw [h]
    rfl
  unfold RoundTrip.Statement encode
  rw [decode_at17 _ (by rw [opF_rType]; rfl), decodeCop1_at17 _ (by rw [rsF_rType]; rfl), h2 _ (by rw [functF_rType]; rfl)]
  simp only [rdF_rType, rtF_rType, ccLoF, saF_rType, ccSlot_hi]

theorem RoundTrip.cUeqD (ft fs : BitVec 5) (cc : BitVec 3) : RoundTrip.Statement (.cUeqD ft fs cc) := by
  have h2 (w : Word) (h : (functF w).toNat = 51) : decodeFmtD w = .ok (.cUeqD (rtF w) (rdF w) (ccLoF w)) := by
    unfold decodeFmtD
    rw [h]
    rfl
  unfold RoundTrip.Statement encode
  rw [decode_at17 _ (by rw [opF_rType]; rfl), decodeCop1_at17 _ (by rw [rsF_rType]; rfl), h2 _ (by rw [functF_rType]; rfl)]
  simp only [rdF_rType, rtF_rType, ccLoF, saF_rType, ccSlot_hi]

theorem RoundTrip.cOltD (ft fs : BitVec 5) (cc : BitVec 3) : RoundTrip.Statement (.cOltD ft fs cc) := by
  have h2 (w : Word) (h : (functF w).toNat = 52) : decodeFmtD w = .ok (.cOltD (rtF w) (rdF w) (ccLoF w)) := by
    unfold decodeFmtD
    rw [h]
    rfl
  unfold RoundTrip.Statement encode
  rw [decode_at17 _ (by rw [opF_rType]; rfl), decodeCop1_at17 _ (by rw [rsF_rType]; rfl), h2 _ (by rw [functF_rType]; rfl)]
  simp only [rdF_rType, rtF_rType, ccLoF, saF_rType, ccSlot_hi]

theorem RoundTrip.cUltD (ft fs : BitVec 5) (cc : BitVec 3) : RoundTrip.Statement (.cUltD ft fs cc) := by
  have h2 (w : Word) (h : (functF w).toNat = 53) : decodeFmtD w = .ok (.cUltD (rtF w) (rdF w) (ccLoF w)) := by
    unfold decodeFmtD
    rw [h]
    rfl
  unfold RoundTrip.Statement encode
  rw [decode_at17 _ (by rw [opF_rType]; rfl), decodeCop1_at17 _ (by rw [rsF_rType]; rfl), h2 _ (by rw [functF_rType]; rfl)]
  simp only [rdF_rType, rtF_rType, ccLoF, saF_rType, ccSlot_hi]

theorem RoundTrip.cOleD (ft fs : BitVec 5) (cc : BitVec 3) : RoundTrip.Statement (.cOleD ft fs cc) := by
  have h2 (w : Word) (h : (functF w).toNat = 54) : decodeFmtD w = .ok (.cOleD (rtF w) (rdF w) (ccLoF w)) := by
    unfold decodeFmtD
    rw [h]
    rfl
  unfold RoundTrip.Statement encode
  rw [decode_at17 _ (by rw [opF_rType]; rfl), decodeCop1_at17 _ (by rw [rsF_rType]; rfl), h2 _ (by rw [functF_rType]; rfl)]
  simp only [rdF_rType, rtF_rType, ccLoF, saF_rType, ccSlot_hi]

theorem RoundTrip.cUleD (ft fs : BitVec 5) (cc : BitVec 3) : RoundTrip.Statement (.cUleD ft fs cc) := by
  have h2 (w : Word) (h : (functF w).toNat = 55) : decodeFmtD w = .ok (.cUleD (rtF w) (rdF w) (ccLoF w)) := by
    unfold decodeFmtD
    rw [h]
    rfl
  unfold RoundTrip.Statement encode
  rw [decode_at17 _ (by rw [opF_rType]; rfl), decodeCop1_at17 _ (by rw [rsF_rType]; rfl), h2 _ (by rw [functF_rType]; rfl)]
  simp only [rdF_rType, rtF_rType, ccLoF, saF_rType, ccSlot_hi]

theorem RoundTrip.cSfD (ft fs : BitVec 5) (cc : BitVec 3) : RoundTrip.Statement (.cSfD ft fs cc) := by
  have h2 (w : Word) (h : (functF w).toNat = 56) : decodeFmtD w = .ok (.cSfD (rtF w) (rdF w) (ccLoF w)) := by
    unfold decodeFmtD
    rw [h]
    rfl
  unfold RoundTrip.Statement encode
  rw [decode_at17 _ (by rw [opF_rType]; rfl), decodeCop1_at17 _ (by rw [rsF_rType]; rfl), h2 _ (by rw [functF_rType]; rfl)]
  simp only [rdF_rType, rtF_rType, ccLoF, saF_rType, ccSlot_hi]

theorem RoundTrip.cNgleD (ft fs : BitVec 5) (cc : BitVec 3) : RoundTrip.Statement (.cNgleD ft fs cc) := by
  have h2 (w : Word) (h : (functF w).toNat = 57) : decodeFmtD w = .ok (.cNgleD (rtF w) (rdF w) (ccLoF w)) := by
    unfold decodeFmtD
    rw [h]
    rfl
  unfold RoundTrip.Statement encode
  rw [decode_at17 _ (by rw [opF_rType]; rfl), decodeCop1_at17 _ (by rw [rsF_rType]; rfl), h2 _ (by rw [functF_rType]; rfl)]
  simp only [rdF_rType, rtF_rType, ccLoF, saF_rType, ccSlot_hi]

theorem RoundTrip.cSeqD (ft fs : BitVec 5) (cc : BitVec 3) : RoundTrip.Statement (.cSeqD ft fs cc) := by
  have h2 (w : Word) (h : (functF w).toNat = 58) : decodeFmtD w = .ok (.cSeqD (rtF w) (rdF w) (ccLoF w)) := by
    unfold decodeFmtD
    rw [h]
    rfl
  unfold RoundTrip.Statement encode
  rw [decode_at17 _ (by rw [opF_rType]; rfl), decodeCop1_at17 _ (by rw [rsF_rType]; rfl), h2 _ (by rw [functF_rType]; rfl)]
  simp only [rdF_rType, rtF_rType, ccLoF, saF_rType, ccSlot_hi]

theorem RoundTrip.cNglD (ft fs : BitVec 5) (cc : BitVec 3) : RoundTrip.Statement (.cNglD ft fs cc) := by
  have h2 (w : Word) (h : (functF w).toNat = 59) : decodeFmtD w = .ok (.cNglD (rtF w) (rdF w) (ccLoF w)) := by
    unfold decodeFmtD
    rw [h]
    rfl
  unfold RoundTrip.Statement encode
  rw [decode_at17 _ (by rw [opF_rType]; rfl), decodeCop1_at17 _ (by rw [rsF_rType]; rfl), h2 _ (by rw [functF_rType]; rfl)]
  simp only [rdF_rType, rtF_rType, ccLoF, saF_rType, ccSlot_hi]

theorem RoundTrip.cLtD (ft fs : BitVec 5) (cc : BitVec 3) : RoundTrip.Statement (.cLtD ft fs cc) := by
  have h2 (w : Word) (h : (functF w).toNat = 60) : decodeFmtD w = .ok (.cLtD (rtF w) (rdF w) (ccLoF w)) := by
    unfold decodeFmtD
    rw [h]
    rfl
  unfold RoundTrip.Statement encode
  rw [decode_at17 _ (by rw [opF_rType]; rfl), decodeCop1_at17 _ (by rw [rsF_rType]; rfl), h2 _ (by rw [functF_rType]; rfl)]
  simp only [rdF_rType, rtF_rType, ccLoF, saF_rType, ccSlot_hi]

theorem RoundTrip.cNgeD (ft fs : BitVec 5) (cc : BitVec 3) : RoundTrip.Statement (.cNgeD ft fs cc) := by
  have h2 (w : Word) (h : (functF w).toNat = 61) : decodeFmtD w = .ok (.cNgeD (rtF w) (rdF w) (ccLoF w)) := by
    unfold decodeFmtD
    rw [h]
    rfl
  unfold RoundTrip.Statement encode
  rw [decode_at17 _ (by rw [opF_rType]; rfl), decodeCop1_at17 _ (by rw [rsF_rType]; rfl), h2 _ (by rw [functF_rType]; rfl)]
  simp only [rdF_rType, rtF_rType, ccLoF, saF_rType, ccSlot_hi]

theorem RoundTrip.cLeD (ft fs : BitVec 5) (cc : BitVec 3) : RoundTrip.Statement (.cLeD ft fs cc) := by
  have h2 (w : Word) (h : (functF w).toNat = 62) : decodeFmtD w = .ok (.cLeD (rtF w) (rdF w) (ccLoF w)) := by
    unfold decodeFmtD
    rw [h]
    rfl
  unfold RoundTrip.Statement encode
  rw [decode_at17 _ (by rw [opF_rType]; rfl), decodeCop1_at17 _ (by rw [rsF_rType]; rfl), h2 _ (by rw [functF_rType]; rfl)]
  simp only [rdF_rType, rtF_rType, ccLoF, saF_rType, ccSlot_hi]

theorem RoundTrip.cNgtD (ft fs : BitVec 5) (cc : BitVec 3) : RoundTrip.Statement (.cNgtD ft fs cc) := by
  have h2 (w : Word) (h : (functF w).toNat = 63) : decodeFmtD w = .ok (.cNgtD (rtF w) (rdF w) (ccLoF w)) := by
    unfold decodeFmtD
    rw [h]
    rfl
  unfold RoundTrip.Statement encode
  rw [decode_at17 _ (by rw [opF_rType]; rfl), decodeCop1_at17 _ (by rw [rsF_rType]; rfl), h2 _ (by rw [functF_rType]; rfl)]
  simp only [rdF_rType, rtF_rType, ccLoF, saF_rType, ccSlot_hi]

theorem RoundTrip.lwxc1 (base index fd : BitVec 5) : RoundTrip.Statement (.lwxc1 base index fd) := by
  have h1 (w : Word) (h : (functF w).toNat = 0) : decodeCop1x w = .ok (.lwxc1 (rsF w) (rtF w) (saF w)) := by
    unfold decodeCop1x
    rw [h]
    rfl
  unfold RoundTrip.Statement encode
  rw [decode_at19 _ (by rw [opF_rType]; rfl), h1 _ (by rw [functF_rType]; rfl)]
  simp only [rsF_rType, rtF_rType, saF_rType]

theorem RoundTrip.ldxc1 (base index fd : BitVec 5) : RoundTrip.Statement (.ldxc1 base index fd) := by
  have h1 (w : Word) (h : (functF w).toNat = 1) : decodeCop1x w = .ok (.ldxc1 (rsF w) (rtF w) (saF w)) := by
    unfold decodeCop1x
    rw [h]
    rfl
  unfold RoundTrip.Statement encode
  rw [decode_at19 _ (by rw [opF_rType]; rfl), h1 _ (by rw [functF_rType]; rfl)]
  simp only [rsF_rType, rtF_rType, saF_rType]

theorem RoundTrip.swxc1 (base index fs : BitVec 5) : RoundTrip.Statement (.swxc1 base index fs) := by
  have h1 (w : Word) (h : (functF w).toNat = 8) : decodeCop1x w = .ok (.swxc1 (rsF w) (rtF w) (rdF w)) := by
    unfold decodeCop1x
    rw [h]
    rfl
  unfold RoundTrip.Statement encode
  rw [decode_at19 _ (by rw [opF_rType]; rfl), h1 _ (by rw [functF_rType]; rfl)]
  simp only [rdF_rType, rsF_rType, rtF_rType]

theorem RoundTrip.sdxc1 (base index fs : BitVec 5) : RoundTrip.Statement (.sdxc1 base index fs) := by
  have h1 (w : Word) (h : (functF w).toNat = 9) : decodeCop1x w = .ok (.sdxc1 (rsF w) (rtF w) (rdF w)) := by
    unfold decodeCop1x
    rw [h]
    rfl
  unfold RoundTrip.Statement encode
  rw [decode_at19 _ (by rw [opF_rType]; rfl), h1 _ (by rw [functF_rType]; rfl)]
  simp only [rdF_rType, rsF_rType, rtF_rType]

theorem RoundTrip.prefx (base index hint : BitVec 5) : RoundTrip.Statement (.prefx base index hint) := by
  have h1 (w : Word) (h : (functF w).toNat = 15) : decodeCop1x w = .ok (.prefx (rsF w) (rtF w) (rdF w)) := by
    unfold decodeCop1x
    rw [h]
    rfl
  unfold RoundTrip.Statement encode
  rw [decode_at19 _ (by rw [opF_rType]; rfl), h1 _ (by rw [functF_rType]; rfl)]
  simp only [rdF_rType, rsF_rType, rtF_rType]

theorem RoundTrip.maddS (fr ft fs fd : BitVec 5) : RoundTrip.Statement (.maddS fr ft fs fd) := by
  have h1 (w : Word) (h : (functF w).toNat = 32) : decodeCop1x w = .ok (.maddS (rsF w) (rtF w) (rdF w) (saF w)) := by
    unfold decodeCop1x
    rw [h]
    rfl
  unfold RoundTrip.Statement encode
  rw [decode_at19 _ (by rw [opF_rType]; rfl), h1 _ (by rw [functF_rType]; rfl)]
  simp only [rdF_rType, rsF_rType, rtF_rType, saF_rType]

theorem RoundTrip.maddD (fr ft fs fd : BitVec 5) : RoundTrip.Statement (.maddD fr ft fs fd) := by
  have h1 (w : Word) (h : (functF w).toNat = 33) : decodeCop1x w = .ok (.maddD (rsF w) (rtF w) (rdF w) (saF w)) := by
    unfold decodeCop1x
    rw [h]
    rfl
  unfold RoundTrip.Statement encode
  rw [decode_at19 _ (by rw [opF_rType]; rfl), h1 _ (by rw [functF_rType]; rfl)]
  simp only [rdF_rType, rsF_rType, rtF_rType, saF_rType]

theorem RoundTrip.msubS (fr ft fs fd : BitVec 5) : RoundTrip.Statement (.msubS fr ft fs fd) := by
  have h1 (w : Word) (h : (functF w).toNat = 40) : decodeCop1x w = .ok (.msubS (rsF w) (rtF w) (rdF w) (saF w)) := by
    unfold decodeCop1x
    rw [h]
    rfl
  unfold RoundTrip.Statement encode
  rw [decode_at19 _ (by rw [opF_rType]; rfl), h1 _ (by rw [functF_rType]; rfl)]
  simp only [rdF_rType, rsF_rType, rtF_rType, saF_rType]

theorem RoundTrip.msubD (fr ft fs fd : BitVec 5) : RoundTrip.Statement (.msubD fr ft fs fd) := by
  have h1 (w : Word) (h : (functF w).toNat = 41) : decodeCop1x w = .ok (.msubD (rsF w) (rtF w) (rdF w) (saF w)) := by
    unfold decodeCop1x
    rw [h]
    rfl
  unfold RoundTrip.Statement encode
  rw [decode_at19 _ (by rw [opF_rType]; rfl), h1 _ (by rw [functF_rType]; rfl)]
  simp only [rdF_rType, rsF_rType, rtF_rType, saF_rType]

theorem RoundTrip.nmaddS (fr ft fs fd : BitVec 5) : RoundTrip.Statement (.nmaddS fr ft fs fd) := by
  have h1 (w : Word) (h : (functF w).toNat = 48) : decodeCop1x w = .ok (.nmaddS (rsF w) (rtF w) (rdF w) (saF w)) := by
    unfold decodeCop1x
    rw [h]
    rfl
  unfold RoundTrip.Statement encode
  rw [decode_at19 _ (by rw [opF_rType]; rfl), h1 _ (by rw [functF_rType]; rfl)]
  simp only [rdF_rType, rsF_rType, rtF_rType, saF_rType]

theorem RoundTrip.nmaddD (fr ft fs fd : BitVec 5) : RoundTrip.Statement (.nmaddD fr ft fs fd) := by
  have h1 (w : Word) (h : (functF w).toNat = 49) : decodeCop1x w = .ok (.nmaddD (rsF w) (rtF w) (rdF w) (saF w)) := by
    unfold decodeCop1x
    rw [h]
    rfl
  unfold RoundTrip.Statement encode
  rw [decode_at19 _ (by rw [opF_rType]; rfl), h1 _ (by rw [functF_rType]; rfl)]
  simp only [rdF_rType, rsF_rType, rtF_rType, saF_rType]

theorem RoundTrip.nmsubS (fr ft fs fd : BitVec 5) : RoundTrip.Statement (.nmsubS fr ft fs fd) := by
  have h1 (w : Word) (h : (functF w).toNat = 56) : decodeCop1x w = .ok (.nmsubS (rsF w) (rtF w) (rdF w) (saF w)) := by
    unfold decodeCop1x
    rw [h]
    rfl
  unfold RoundTrip.Statement encode
  rw [decode_at19 _ (by rw [opF_rType]; rfl), h1 _ (by rw [functF_rType]; rfl)]
  simp only [rdF_rType, rsF_rType, rtF_rType, saF_rType]

theorem RoundTrip.nmsubD (fr ft fs fd : BitVec 5) : RoundTrip.Statement (.nmsubD fr ft fs fd) := by
  have h1 (w : Word) (h : (functF w).toNat = 57) : decodeCop1x w = .ok (.nmsubD (rsF w) (rtF w) (rdF w) (saF w)) := by
    unfold decodeCop1x
    rw [h]
    rfl
  unfold RoundTrip.Statement encode
  rw [decode_at19 _ (by rw [opF_rType]; rfl), h1 _ (by rw [functF_rType]; rfl)]
  simp only [rdF_rType, rsF_rType, rtF_rType, saF_rType]

end Sys2Proof.Laws
end

