-- ==== Sys2Proof/Tests/Slice0.lean ====
section
/-! SUPPORT. Tests: words written out from the spec's encodings, the spec's own vectors (95_test_vectors.md), the checks
of `WellFormed`, and for every statement with hypotheses a state that meets them. -/

set_option maxRecDepth 8000

namespace Sys2Proof.Tests

open Sys2Proof.Machine Sys2Proof.Safety

/-! ## Helpers -/

/-- The start state of 95_test_vectors.md: Kernel mode, `Status` = 0, `Config.K0` = 3. -/
def start : State :=
  { State.reset with
    pc := 0xFFFFFFFF80001000
    cp0 := { State.reset.cp0 with
      status := Status.ofWord 0
      config := { State.reset.cp0.config with k0 := 3 } } }

/-- Set general registers. -/
def regs (l : List (RegNum × Dword)) (s : State) : State := l.foldl (fun s p => writeGpr s p.1 p.2) s
/-- Set `Status`. -/
def withStatus (w : Word) (s : State) : State := { s with cp0 := { s.cp0 with status := Status.ofWord w } }
/-- Set floating-point registers. -/
def fprs (l : List (RegNum × Dword)) (s : State) : State := l.foldl (fun s p => writeFgr p.1 p.2 s) s
/-- Set `FCR31`. -/
def withFcr31 (w : Word) (s : State) : State := { s with fpu := { s.fpu with fcr31 := Fcr31.ofWord w } }
/-- Store bytes from an address up. -/
def bytes (a : Nat) (l : List Byte) (s : State) : State :=
  { s with mem := (l.zipIdx a).foldl (fun m p => Memory.write m p.2 p.1) s.mem }
/-- The other byte order. -/
def little (s : State) : State := { s with params := { s.params with bigEndian := false } }
/-- Set one JTLB entry. -/
def tlbSet (i : Fin 64) (e : TlbEntry) (s : State) : State := { s with tlb := s.tlb.set i.val e i.isLt }

/-- Run the instruction a word decodes to. -/
noncomputable def run (w : Word) (s : State) : Out :=
  match decode w with
  | .ok i => exec i s
  | .error r => reservedEncoding r s

/-- What a next state shows. -/
def view {α : Type} (f : State → α) : Out → Option α
  | .next t => some (f t)
  | _ => none
/-- A general register of the next state. -/
def gpr (r : RegNum) (o : Out) : Option Dword := view (readGpr · r) o
/-- The exception taken: its code where `EXL` was set. -/
def exc (o : Out) : Option (BitVec 5) := view (fun t => if t.cp0.status.exl then t.cp0.cause.excCode else 31) o
/-- Bytes of memory of the next state. -/
def memAt (a n : Nat) (o : Out) : Option (List Byte) := view (fun t => (List.range n).map (fun k => Memory.read t.mem (a + k))) o
/-- `HI`, `LO`. -/
def hiLo (o : Out) : Option (Dword × Dword) := view (fun t => (t.hi, t.lo)) o
/-- `pc`, slot, target. -/
def flow (o : Out) : Option (Dword × Bool × Dword) := view (fun t => (t.pc, t.inDelaySlot, t.branchTarget)) o
/-- The low word of a floating-point register and `FCR31`. -/
def fpS (r : RegNum) (o : Out) : Option (Word × Word) := view (fun t => (readFprWord t r, t.fpu.fcr31.toWord)) o
/-- A doubleword of the floating-point unit and `FCR31`. -/
def fpD (r : RegNum) (o : Out) : Option (Dword × Word) := view (fun t => (readFprDword t r, t.fpu.fcr31.toWord)) o
/-- The fault an answer names. -/
def fault : Out → Option Fault
  | .fault f => some f
  | _ => none
/-- The refusal an answer names. -/
def refusal : Out → Option Refusal
  | .refused r => some r
  | _ => none
/-- Words that decode to the instructions beside them. -/
noncomputable def readsAs (l : List (Nat × Instr)) : Bool :=
  l.all (fun p => decide (decodeTableWord 32 p.1 = some p.2))
/-- The address and attribute a translation gives. -/
def okOf (x : Except Stop (PAddr × BitVec 3)) : Option (PAddr × BitVec 3) :=
  match x with
  | .ok p => some p
  | _ => none
/-- The exception a translation gives. -/
def whyOf (x : Except Stop (PAddr × BitVec 3)) : Option Exc :=
  match x with
  | .error (.exc e _) => some e
  | _ => none

/-! ## Decoding: the word of every instruction, its operand fields filled, from the encodings of 30_encoding.md -/

/-- Words of the `SPECIAL` functions (rule R305). -/
theorem test_decode_special_1 :
    readsAs [(0x02aa9820, .add 0x15 0xa 0x13), (0x02aa9821, .addu 0x15 0xa 0x13), (0x02aa9822, .sub 0x15 0xa 0x13),
      (0x02aa9823, .subu 0x15 0xa 0x13), (0x02aa982c, .dadd 0x15 0xa 0x13), (0x02aa982d, .daddu 0x15 0xa 0x13),
      (0x02aa982e, .dsub 0x15 0xa 0x13), (0x02aa982f, .dsubu 0x15 0xa 0x13), (0x02aa982a, .slt 0x15 0xa 0x13),
      (0x02aa982b, .sltu 0x15 0xa 0x13), (0x02aa9824, .and 0x15 0xa 0x13), (0x02aa9825, .or 0x15 0xa 0x13),
      (0x02aa9826, .xor 0x15 0xa 0x13), (0x02aa9827, .nor 0x15 0xa 0x13), (0x02aa9804, .sllv 0x15 0xa 0x13),
      (0x02aa9806, .srlv 0x15 0xa 0x13), (0x02aa9807, .srav 0x15 0xa 0x13), (0x02aa9814, .dsllv 0x15 0xa 0x13),
      (0x02aa9816, .dsrlv 0x15 0xa 0x13), (0x02aa9817, .dsrav 0x15 0xa 0x13),
      (0x02aa980b, .movn 0x15 0xa 0x13), (0x02aa980a, .movz 0x15 0xa 0x13), (0x001554c0, .sll 0x15 0xa 0x13),
      (0x001554c2, .srl 0x15 0xa 0x13)] = true := by decide

/-- Words of the `SPECIAL` functions (rule R305). -/
theorem test_decode_special_2 :
    readsAs [(0x001554c3, .sra 0x15 0xa 0x13), (0x001554f8, .dsll 0x15 0xa 0x13), (0x001554fa, .dsrl 0x15 0xa 0x13),
      (0x001554fb, .dsra 0x15 0xa 0x13), (0x001554fc, .dsll32 0x15 0xa 0x13),
      (0x001554fe, .dsrl32 0x15 0xa 0x13), (0x001554ff, .dsra32 0x15 0xa 0x13), (0x02aa0018, .mult 0x15 0xa),
      (0x02aa0019, .multu 0x15 0xa), (0x02aa001a, .div 0x15 0xa), (0x02aa001b, .divu 0x15 0xa),
      (0x02aa001c, .dmult 0x15 0xa), (0x02aa001d, .dmultu 0x15 0xa), (0x02aa001e, .ddiv 0x15 0xa),
      (0x02aa001f, .ddivu 0x15 0xa), (0x0000a810, .mfhi 0x15), (0x02a00011, .mthi 0x15),
      (0x0000a812, .mflo 0x15), (0x02a00013, .mtlo 0x15), (0x02a00008, .jr 0x15), (0x02a05009, .jalr 0x15 0xa),
      (0x02b49801, .movf 0x15 0x5 0x13), (0x02b59801, .movt 0x15 0x5 0x13), (0x02fbbd4c, .syscall 0xbeef5)] = true := by decide

/-- Words of the `SPECIAL` functions (rule R305). -/
theorem test_decode_special_3 :
    readsAs [(0x02fbbd4d, .brk 0xbeef5), (0x0000054f, .sync 0x15), (0x02aaa970, .tge 0x15 0xa 0x2a5),
      (0x02aaa971, .tgeu 0x15 0xa 0x2a5), (0x02aaa972, .tlt 0x15 0xa 0x2a5),
      (0x02aaa973, .tltu 0x15 0xa 0x2a5), (0x02aaa974, .teq 0x15 0xa 0x2a5), (0x02aaa976, .tne 0x15 0xa 0x2a5)] = true := by decide

/-- Words of the `REGIMM` sub-opcodes (rule R306). -/
theorem test_decode_regimm :
    readsAs [(0x06a09234, .bltz 0x15 0x9234), (0x06a19234, .bgez 0x15 0x9234), (0x06a29234, .bltzl 0x15 0x9234),
      (0x06a39234, .bgezl 0x15 0x9234), (0x06b09234, .bltzal 0x15 0x9234), (0x06b19234, .bgezal 0x15 0x9234),
      (0x06b29234, .bltzall 0x15 0x9234), (0x06b39234, .bgezall 0x15 0x9234), (0x06a89234, .tgei 0x15 0x9234),
      (0x06a99234, .tgeiu 0x15 0x9234), (0x06aa9234, .tlti 0x15 0x9234), (0x06ab9234, .tltiu 0x15 0x9234),
      (0x06ac9234, .teqi 0x15 0x9234), (0x06ae9234, .tnei 0x15 0x9234)] = true := by decide

/-- Words of the major opcodes (rule R304). -/
theorem test_decode_major_1 :
    readsAs [(0x0aabcdef, .j 0x2abcdef), (0x0eabcdef, .jal 0x2abcdef), (0x12aa9234, .beq 0x15 0xa 0x9234),
      (0x16aa9234, .bne 0x15 0xa 0x9234), (0x1aa09234, .blez 0x15 0x9234), (0x1ea09234, .bgtz 0x15 0x9234),
      (0x52aa9234, .beql 0x15 0xa 0x9234), (0x56aa9234, .bnel 0x15 0xa 0x9234),
      (0x5aa09234, .blezl 0x15 0x9234), (0x5ea09234, .bgtzl 0x15 0x9234), (0x22aa9234, .addi 0x15 0xa 0x9234),
      (0x26aa9234, .addiu 0x15 0xa 0x9234), (0x2aaa9234, .slti 0x15 0xa 0x9234),
      (0x2eaa9234, .sltiu 0x15 0xa 0x9234), (0x32aa9234, .andi 0x15 0xa 0x9234),
      (0x36aa9234, .ori 0x15 0xa 0x9234), (0x3aaa9234, .xori 0x15 0xa 0x9234),
      (0x62aa9234, .daddi 0x15 0xa 0x9234), (0x66aa9234, .daddiu 0x15 0xa 0x9234),
      (0x3c159234, .lui 0x15 0x9234), (0x82aa9234, .lb 0x15 0xa 0x9234), (0x92aa9234, .lbu 0x15 0xa 0x9234),
      (0x86aa9234, .lh 0x15 0xa 0x9234), (0x96aa9234, .lhu 0x15 0xa 0x9234)] = true := by decide

/-- Words of the major opcodes (rule R304). -/
theorem test_decode_major_2 :
    readsAs [(0x8eaa9234, .lw 0x15 0xa 0x9234), (0x9eaa9234, .lwu 0x15 0xa 0x9234), (0xdeaa9234, .ld 0x15 0xa 0x9234),
      (0xa2aa9234, .sb 0x15 0xa 0x9234), (0xa6aa9234, .sh 0x15 0xa 0x9234), (0xaeaa9234, .sw 0x15 0xa 0x9234),
      (0xfeaa9234, .sd 0x15 0xa 0x9234), (0x8aaa9234, .lwl 0x15 0xa 0x9234),
      (0x9aaa9234, .lwr 0x15 0xa 0x9234), (0xaaaa9234, .swl 0x15 0xa 0x9234),
      (0xbaaa9234, .swr 0x15 0xa 0x9234), (0x6aaa9234, .ldl 0x15 0xa 0x9234),
      (0x6eaa9234, .ldr 0x15 0xa 0x9234), (0xb2aa9234, .sdl 0x15 0xa 0x9234),
      (0xb6aa9234, .sdr 0x15 0xa 0x9234), (0xc2aa9234, .ll 0x15 0xa 0x9234),
      (0xd2aa9234, .lld 0x15 0xa 0x9234), (0xe2aa9234, .sc 0x15 0xa 0x9234),
      (0xf2aa9234, .scd 0x15 0xa 0x9234), (0xceaa9234, .pref 0x15 0xa 0x9234),
      (0xcaaa9234, .lwc2 0x15 0xa 0x9234), (0xdaaa9234, .ldc2 0x15 0xa 0x9234),
      (0xeaaa9234, .swc2 0x15 0xa 0x9234), (0xfaaa9234, .sdc2 0x15 0xa 0x9234)] = true := by decide

/-- Words of the major opcodes (rule R304). -/
theorem test_decode_major_3 :
    readsAs [(0x4aabcdef, .cop2 0x2abcdef), (0xc6aa9234, .lwc1 0x15 0xa 0x9234), (0xd6aa9234, .ldc1 0x15 0xa 0x9234),
      (0xe6aa9234, .swc1 0x15 0xa 0x9234), (0xf6aa9234, .sdc1 0x15 0xa 0x9234)] = true := by decide

/-- Words of `CACHE` (rule R382). -/
theorem test_decode_cache_1 :
    readsAs [(0xbea09234, .cacheIndexInvalidateI 0x15 0x9234),
      (0xbea19234, .cacheIndexWritebackInvalidateD 0x15 0x9234),
      (0xbea29234, .cacheFlashInvalidateT 0x15 0x9234),
      (0xbea39234, .cacheIndexWritebackInvalidateS 0x15 0x9234), (0xbea49234, .cacheIndexLoadTagI 0x15 0x9234),
      (0xbea59234, .cacheIndexLoadTagD 0x15 0x9234), (0xbea69234, .cacheIndexLoadTagT 0x15 0x9234),
      (0xbea79234, .cacheIndexLoadTagS 0x15 0x9234), (0xbea89234, .cacheIndexStoreTagI 0x15 0x9234),
      (0xbea99234, .cacheIndexStoreTagD 0x15 0x9234), (0xbeaa9234, .cacheIndexStoreTagT 0x15 0x9234),
      (0xbeab9234, .cacheIndexStoreTagS 0x15 0x9234), (0xbead9234, .cacheCreateDirtyExclusiveD 0x15 0x9234),
      (0xbeb09234, .cacheHitInvalidateI 0x15 0x9234), (0xbeb19234, .cacheHitInvalidateD 0x15 0x9234),
      (0xbeb39234, .cacheHitInvalidateS 0x15 0x9234), (0xbeb49234, .cacheFillI 0x15 0x9234),
      (0xbeb59234, .cacheHitWritebackInvalidateD 0x15 0x9234), (0xbeb69234, .cachePageInvalidateT 0x15 0x9234),
      (0xbeb79234, .cacheHitWritebackInvalidateS 0x15 0x9234), (0xbeb89234, .cacheHitWritebackI 0x15 0x9234),
      (0xbeb99234, .cacheHitWritebackD 0x15 0x9234), (0xbebb9234, .cacheHitWritebackS 0x15 0x9234),
      (0xbeac9234, .cacheOp0C 0x15 0x9234)] = true := by decide

/-- Words of `CACHE` (rule R382). -/
theorem test_decode_cache_2 :
    readsAs [(0xbeae9234, .cacheOp0E 0x15 0x9234), (0xbeaf9234, .cacheOp0F 0x15 0x9234),
      (0xbeb29234, .cacheOp12 0x15 0x9234), (0xbeba9234, .cacheOp1A 0x15 0x9234),
      (0xbebc9234, .cacheOp1C 0x15 0x9234), (0xbebd9234, .cacheOp1D 0x15 0x9234),
      (0xbebe9234, .cacheOp1E 0x15 0x9234), (0xbebf9234, .cacheOp1F 0x15 0x9234)] = true := by decide

/-- Words of opcode 28 (rule R311). -/
theorem test_decode_rm7000 :
    readsAs [(0x72aa0000, .mad 0x15 0xa), (0x72aa0001, .madu 0x15 0xa), (0x72aa9802, .mul 0x15 0xa 0x13)] = true := by decide

/-- Words of coprocessor 0 (rule R307). -/
theorem test_decode_cop0 :
    readsAs [(0x40155000, .mfc0 0x15 0xa), (0x40355000, .dmfc0 0x15 0xa), (0x40555000, .cfc0 0x15 0xa),
      (0x40955000, .mtc0 0x15 0xa), (0x40b55000, .dmtc0 0x15 0xa), (0x40d55000, .ctc0 0x15 0xa),
      (0x42000001, .tlbr), (0x42000002, .tlbwi), (0x42000006, .tlbwr), (0x42000008, .tlbp),
      (0x42000018, .eret), (0x42000020, .wait)] = true := by decide

/-- Words of coprocessor 1, moves, branches, fixed-point formats (rules R308, R309). -/
theorem test_decode_cop1_other :
    readsAs [(0x44155000, .mfc1 0x15 0xa), (0x44355000, .dmfc1 0x15 0xa), (0x44555000, .cfc1 0x15 0xa),
      (0x44955000, .mtc1 0x15 0xa), (0x44b55000, .dmtc1 0x15 0xa), (0x44d55000, .ctc1 0x15 0xa),
      (0x45149234, .bc1f 0x5 0x9234), (0x45159234, .bc1t 0x5 0x9234), (0x45169234, .bc1fl 0x5 0x9234),
      (0x45179234, .bc1tl 0x5 0x9234), (0x4680aaa0, .cvtSW 0x15 0xa), (0x46a0aaa0, .cvtSL 0x15 0xa),
      (0x4680aaa1, .cvtDW 0x15 0xa), (0x46a0aaa1, .cvtDL 0x15 0xa)] = true := by decide

/-- Words of coprocessor 1, format S (rule R309). -/
theorem test_decode_cop1_single_1 :
    readsAs [(0x461554c0, .addS 0x15 0xa 0x13), (0x461554c1, .subS 0x15 0xa 0x13), (0x461554c2, .mulS 0x15 0xa 0x13),
      (0x461554c3, .divS 0x15 0xa 0x13), (0x4600aa84, .sqrtS 0x15 0xa), (0x4600aa85, .absS 0x15 0xa),
      (0x4600aa86, .movS 0x15 0xa), (0x4600aa87, .negS 0x15 0xa), (0x4600aa95, .recipS 0x15 0xa),
      (0x4600aa96, .rsqrtS 0x15 0xa), (0x4600aa88, .roundLS 0x15 0xa), (0x4600aa89, .truncLS 0x15 0xa),
      (0x4600aa8a, .ceilLS 0x15 0xa), (0x4600aa8b, .floorLS 0x15 0xa), (0x4600aa8c, .roundWS 0x15 0xa),
      (0x4600aa8d, .truncWS 0x15 0xa), (0x4600aa8e, .ceilWS 0x15 0xa), (0x4600aa8f, .floorWS 0x15 0xa),
      (0x4600aaa4, .cvtWS 0x15 0xa), (0x4600aaa5, .cvtLS 0x15 0xa), (0x4600aaa1, .cvtDS 0x15 0xa),
      (0x461454d1, .movfS 0x5 0xa 0x13), (0x461554d1, .movtS 0x5 0xa 0x13), (0x461554d2, .movzS 0x15 0xa 0x13)] = true := by decide

/-- Words of coprocessor 1, format S (rule R309). -/
theorem test_decode_cop1_single_2 :
    readsAs [(0x461554d3, .movnS 0x15 0xa 0x13), (0x46155530, .cFS 0x15 0xa 0x5), (0x46155531, .cUnS 0x15 0xa 0x5),
      (0x46155532, .cEqS 0x15 0xa 0x5), (0x46155533, .cUeqS 0x15 0xa 0x5), (0x46155534, .cOltS 0x15 0xa 0x5),
      (0x46155535, .cUltS 0x15 0xa 0x5), (0x46155536, .cOleS 0x15 0xa 0x5), (0x46155537, .cUleS 0x15 0xa 0x5),
      (0x46155538, .cSfS 0x15 0xa 0x5), (0x46155539, .cNgleS 0x15 0xa 0x5), (0x4615553a, .cSeqS 0x15 0xa 0x5),
      (0x4615553b, .cNglS 0x15 0xa 0x5), (0x4615553c, .cLtS 0x15 0xa 0x5), (0x4615553d, .cNgeS 0x15 0xa 0x5),
      (0x4615553e, .cLeS 0x15 0xa 0x5), (0x4615553f, .cNgtS 0x15 0xa 0x5)] = true := by decide

/-- Words of coprocessor 1, format D (rule R309). -/
theorem test_decode_cop1_double_1 :
    readsAs [(0x463554c0, .addD 0x15 0xa 0x13), (0x463554c1, .subD 0x15 0xa 0x13), (0x463554c2, .mulD 0x15 0xa 0x13),
      (0x463554c3, .divD 0x15 0xa 0x13), (0x4620aa84, .sqrtD 0x15 0xa), (0x4620aa85, .absD 0x15 0xa),
      (0x4620aa86, .movD 0x15 0xa), (0x4620aa87, .negD 0x15 0xa), (0x4620aa95, .recipD 0x15 0xa),
      (0x4620aa96, .rsqrtD 0x15 0xa), (0x4620aa88, .roundLD 0x15 0xa), (0x4620aa89, .truncLD 0x15 0xa),
      (0x4620aa8a, .ceilLD 0x15 0xa), (0x4620aa8b, .floorLD 0x15 0xa), (0x4620aa8c, .roundWD 0x15 0xa),
      (0x4620aa8d, .truncWD 0x15 0xa), (0x4620aa8e, .ceilWD 0x15 0xa), (0x4620aa8f, .floorWD 0x15 0xa),
      (0x4620aaa4, .cvtWD 0x15 0xa), (0x4620aaa5, .cvtLD 0x15 0xa), (0x4620aaa0, .cvtSD 0x15 0xa),
      (0x463454d1, .movfD 0x5 0xa 0x13), (0x463554d1, .movtD 0x5 0xa 0x13), (0x463554d2, .movzD 0x15 0xa 0x13)] = true := by decide

/-- Words of coprocessor 1, format D (rule R309). -/
theorem test_decode_cop1_double_2 :
    readsAs [(0x463554d3, .movnD 0x15 0xa 0x13), (0x46355530, .cFD 0x15 0xa 0x5), (0x46355531, .cUnD 0x15 0xa 0x5),
      (0x46355532, .cEqD 0x15 0xa 0x5), (0x46355533, .cUeqD 0x15 0xa 0x5), (0x46355534, .cOltD 0x15 0xa 0x5),
      (0x46355535, .cUltD 0x15 0xa 0x5), (0x46355536, .cOleD 0x15 0xa 0x5), (0x46355537, .cUleD 0x15 0xa 0x5),
      (0x46355538, .cSfD 0x15 0xa 0x5), (0x46355539, .cNgleD 0x15 0xa 0x5), (0x4635553a, .cSeqD 0x15 0xa 0x5),
      (0x4635553b, .cNglD 0x15 0xa 0x5), (0x4635553c, .cLtD 0x15 0xa 0x5), (0x4635553d, .cNgeD 0x15 0xa 0x5),
      (0x4635553e, .cLeD 0x15 0xa 0x5), (0x4635553f, .cNgtD 0x15 0xa 0x5)] = true := by decide

/-- Words of `COP1X` (rule R310). -/
theorem test_decode_cop1x :
    readsAs [(0x4eaa04c0, .lwxc1 0x15 0xa 0x13), (0x4eaa04c1, .ldxc1 0x15 0xa 0x13),
      (0x4eaa9808, .swxc1 0x15 0xa 0x13), (0x4eaa9809, .sdxc1 0x15 0xa 0x13),
      (0x4eaa980f, .prefx 0x15 0xa 0x13), (0x4eaa9f20, .maddS 0x15 0xa 0x13 0x1c),
      (0x4eaa9f21, .maddD 0x15 0xa 0x13 0x1c), (0x4eaa9f28, .msubS 0x15 0xa 0x13 0x1c),
      (0x4eaa9f29, .msubD 0x15 0xa 0x13 0x1c), (0x4eaa9f30, .nmaddS 0x15 0xa 0x13 0x1c),
      (0x4eaa9f31, .nmaddD 0x15 0xa 0x13 0x1c), (0x4eaa9f38, .nmsubS 0x15 0xa 0x13 0x1c),
      (0x4eaa9f39, .nmsubD 0x15 0xa 0x13 0x1c)] = true := by decide
/-- `ADD`, bit by bit: opcode, `rs`, `rt`, `rd`, zero, function (30_encoding.md rules R302, R305). -/
theorem test_decode_add_fields :
    decodeTableWord 32 (0b000000#6 ++ 0b00001#5 ++ 0b00010#5 ++ 0b00011#5 ++ 0b00000#5 ++ 0b100000#6).toNat =
      some (.add 1 2 3) := by decide
/-- `LW`, bit by bit: opcode, `base`, `rt`, offset (rules R302, R304). -/
theorem test_decode_lw_fields :
    decodeTableWord 32 (0b100011#6 ++ 0b00001#5 ++ 0b00010#5 ++ 0b1111111111111100#16).toNat =
      some (.lw 1 2 0xFFFC) := by decide
/-- The bytes of a word in the two byte orders (20_memory.md rule R252). -/
theorem test_decode_bytes :
    (decodeBytes true [0x24, 0x02, 0x00, 0x01]).toOption = some (.addiu 0 2 1) ∧
      (decodeBytes false [0x01, 0x00, 0x02, 0x24]).toOption = some (.addiu 0 2 1) := by decide

/-! ## `WellFormed`: each check refuses an ill-formed instruction -/

/-- `JALR` with one register as target and link (45_jump_branch.md rule R573). -/
theorem test_wellFormed_jalr_same : (Instr.jalr 4 4).WellFormed = false := by decide
/-- `BGEZAL` on the link register (rule R580). -/
theorem test_wellFormed_bgezal_link : (Instr.bgezal 31 3).WellFormed = false := by decide
/-- A `CACHE` code without an operation (41_cache_instruction.md rule R382). -/
theorem test_wellFormed_cache_code : (Instr.cacheOp0C 1 0).WellFormed = false := by decide
/-- `SYNC` with a type (46_special_trap.md rule R603). -/
theorem test_wellFormed_sync_type : (Instr.sync 1).WellFormed = false := by decide
/-- An ordinary instruction passes. -/
theorem test_wellFormed_jalr : (Instr.jalr 4 31).WellFormed = true := by decide

/-! ## Add, subtract (95_test_vectors.md T1) -/

theorem test_addu_wraps :
    gpr 3 (run 0x221821 (regs [(1, 0x7fffffff), (2, 0x1)] start)) = some 0xffffffff80000000 := by decide
theorem test_add_overflow_traps : exc (run 0x221820 (regs [(1, 0x7fffffff), (2, 0x1)] start)) = some 12 := by decide
theorem test_subu_wraps :
    gpr 3 (run 0x221823 (regs [(1, 0xffffffff80000000), (2, 0x1)] start)) = some 0x7fffffff := by decide
theorem test_sub_negative :
    gpr 3 (run 0x221822 (regs [(1, 0x3), (2, 0x5)] start)) = some 0xfffffffffffffffe := by decide
theorem test_addi : gpr 2 (run 0x20220001 (regs [(1, 0x4)] start)) = some 0x5 := by decide
theorem test_addiu_wraps : gpr 2 (run 0x2422ffff (regs [(1, 0xffffffff80000000)] start)) = some 0x7fffffff := by decide
theorem test_daddu_wraps :
    gpr 3 (run 0x22182d (regs [(1, 0x7fffffffffffffff), (2, 0x1)] start)) = some 0x8000000000000000 := by decide
theorem test_dadd :
    gpr 3 (run 0x22182c (regs [(1, 0x7fffffffffffffff), (2, 0xffffffffffffffff)] start)) = some 0x7ffffffffffffffe := by decide
theorem test_dsub : gpr 3 (run 0x22182e (regs [(1, 0x3), (2, 0x5)] start)) = some 0xfffffffffffffffe := by decide
theorem test_dsubu_wraps :
    gpr 3 (run 0x22182f (regs [(1, 0x8000000000000000), (2, 0x1)] start)) = some 0x7fffffffffffffff := by decide
theorem test_daddi : gpr 2 (run 0x60220001 (regs [(1, 0xffffffffffffffff)] start)) = some 0x0 := by decide
theorem test_daddiu_wraps :
    gpr 2 (run 0x6422ffff (regs [(1, 0x8000000000000000)] start)) = some 0x7fffffffffffffff := by decide
theorem test_addu_to_register_zero : gpr 0 (run 0x220021 (regs [(1, 0x5), (2, 0x6)] start)) = some 0x0 := by decide

/-! ## Set on less than, logic (T2, T3) -/

theorem test_slt_signed_64 :
    gpr 3 (run 0x22182a (regs [(1, 0x8000000000000000), (2, 0x7fffffffffffffff)] start)) = some 0x1 := by decide
theorem test_sltu_unsigned_64 :
    gpr 3 (run 0x22182b (regs [(1, 0x8000000000000000), (2, 0x7fffffffffffffff)] start)) = some 0x0 := by decide
theorem test_sltiu_immediate_sign_extended : gpr 2 (run 0x2c22ffff (regs [(1, 0x0)] start)) = some 0x1 := by decide
theorem test_and :
    gpr 3 (run 0x221824 (regs [(1, 0xff00ff00ff00ff00), (2, 0xff00ff00ff00ff0)] start)) = some 0xf000f000f000f00 := by decide
theorem test_xor :
    gpr 3 (run 0x221826 (regs [(1, 0xff00ff00ff00ff00), (2, 0xff00ff00ff00ff0)] start)) = some 0xf0f0f0f0f0f0f0f0 := by decide
theorem test_nor :
    gpr 3 (run 0x221827 (regs [(1, 0xff00ff00ff00ff00), (2, 0xff00ff00ff00ff0)] start)) = some 0xf000f000f000f := by decide
theorem test_andi_zero_extends :
    gpr 2 (run 0x3022ffff (regs [(1, 0xffffffffffff0f0f)] start)) = some 0xf0f := by decide
theorem test_lui_sign_extends :
    gpr 2 (run 0x3c028000 (regs [(1, 0xffffffffffff0f0f)] start)) = some 0xffffffff80000000 := by decide

/-! ## Shifts (T4) -/

theorem test_sll_sign_extends :
    gpr 2 (run 0x11040 (regs [(1, 0x40000000)] start)) = some 0xffffffff80000000 := by decide
theorem test_srl : gpr 2 (run 0x11042 (regs [(1, 0xffffffff80000000)] start)) = some 0x40000000 := by decide
theorem test_sra : gpr 2 (run 0x11043 (regs [(1, 0xffffffff80000000)] start)) = some 0xffffffffc0000000 := by decide
theorem test_sllv_uses_five_bits :
    gpr 3 (run 0x411804 (regs [(1, 0x1), (2, 0x3f)] start)) = some 0xffffffff80000000 := by decide
theorem test_srlv_amount_32_is_0 :
    gpr 3 (run 0x411806 (regs [(1, 0xffffffff80000000), (2, 0x20)] start)) = some 0xffffffff80000000 := by decide
theorem test_srav :
    gpr 3 (run 0x411807 (regs [(1, 0xffffffff80000000), (2, 0x1f)] start)) = some 0xffffffffffffffff := by decide
theorem test_dsll : gpr 2 (run 0x11138 (regs [(1, 0x123456789abcdef)] start)) = some 0x123456789abcdef0 := by decide
theorem test_dsra : gpr 2 (run 0x1113b (regs [(1, 0x8000000000000000)] start)) = some 0xf800000000000000 := by decide
theorem test_dsll32 : gpr 2 (run 0x1103c (regs [(1, 0x1)] start)) = some 0x100000000 := by decide
theorem test_dsrl32 : gpr 2 (run 0x1103e (regs [(1, 0x8000000000000000)] start)) = some 0x80000000 := by decide
theorem test_dsra32_by_63 :
    gpr 2 (run 0x117ff (regs [(1, 0x8000000000000000)] start)) = some 0xffffffffffffffff := by decide
theorem test_dsllv_uses_six_bits :
    gpr 3 (run 0x411814 (regs [(1, 0x1), (2, 0x7f)] start)) = some 0x8000000000000000 := by decide

/-! ## Multiply, divide, `HI`, `LO` (T5) -/

theorem test_mult_most_negative :
    hiLo (run 0x220018 (regs [(1, 0xffffffff80000000), (2, 0xffffffff80000000)] start)) = some (0x40000000, 0x0) := by decide
theorem test_multu :
    hiLo (run 0x220019 (regs [(1, 0xffffffffffffffff), (2, 0xffffffffffffffff)] start)) = some (0xfffffffffffffffe, 0x1) := by decide
theorem test_div_truncates_toward_zero :
    hiLo (run 0x22001a (regs [(1, 0xfffffffffffffff9), (2, 0x2)] start)) = some (0xffffffffffffffff, 0xfffffffffffffffd) := by decide
theorem test_divu :
    hiLo (run 0x22001b (regs [(1, 0xffffffffffffffff), (2, 0x2)] start)) = some (0x1, 0x7fffffff) := by decide
theorem test_dmultu :
    hiLo (run 0x22001d (regs [(1, 0xffffffffffffffff), (2, 0xffffffffffffffff)] start)) = some (0xfffffffffffffffe, 0x1) := by decide
theorem test_mad_subtracts :
    hiLo (run 0x70220000 { (regs [(1, 0xfffffffffffffffb), (2, 0x6)] start) with hi := 0, lo := 0xC }) = some (0xffffffffffffffff, 0xffffffffffffffee) := by decide
theorem test_mad_ignores_upper_halves :
    hiLo (run 0x70220000 { (regs [(1, 0x1), (2, 0x1)] start) with hi := 0x1234567800000000, lo := 0x1234567800000005 }) = some (0x0, 0x6) := by decide
theorem test_madu :
    hiLo (run 0x70220001 (regs [(1, 0xffffffffffffffff), (2, 0xffffffffffffffff)] start)) = some (0xfffffffffffffffe, 0x1) := by decide
theorem test_mul_low_word : gpr 3 (run 0x70221802 (regs [(1, 0x10000), (2, 0x10000)] start)) = some 0x0 := by decide
theorem test_mfhi : gpr 3 (run 0x1810 { start with hi := 0x8000000000000007 }) = some 0x8000000000000007 := by decide
theorem test_div_by_zero_completes :
    view (fun t => t.pc) (run 0x0022001A (regs [(1, 0x5), (2, 0x0)] start)) = some 0xFFFFFFFF80001004 := by decide

/-! ## Loads and stores (T6) -/

theorem test_lb :
    gpr 2 (run 0x80220000 (bytes 0x1000 [0x80, 0x91, 0xA2, 0xB3, 0xC4, 0xD5, 0xE6, 0xF7] (regs [(1, 0xFFFFFFFF80001000)] start))) = some 0xffffffffffffff80 := by decide
theorem test_lh_big :
    gpr 2 (run 0x84220000 (bytes 0x1000 [0x80, 0x91, 0xA2, 0xB3, 0xC4, 0xD5, 0xE6, 0xF7] (regs [(1, 0xFFFFFFFF80001000)] start))) = some 0xffffffffffff8091 := by decide
theorem test_lhu_big :
    gpr 2 (run 0x94220000 (bytes 0x1000 [0x80, 0x91, 0xA2, 0xB3, 0xC4, 0xD5, 0xE6, 0xF7] (regs [(1, 0xFFFFFFFF80001000)] start))) = some 0x8091 := by decide
theorem test_lw_big :
    gpr 2 (run 0x8c220000 (bytes 0x1000 [0x80, 0x91, 0xA2, 0xB3, 0xC4, 0xD5, 0xE6, 0xF7] (regs [(1, 0xFFFFFFFF80001000)] start))) = some 0xffffffff8091a2b3 := by decide
theorem test_lw_little :
    gpr 2 (run 0x8c220000 (little (bytes 0x1000 [0x80, 0x91, 0xA2, 0xB3, 0xC4, 0xD5, 0xE6, 0xF7] (regs [(1, 0xFFFFFFFF80001000)] start)))) = some 0xffffffffb3a29180 := by decide
theorem test_lwu :
    gpr 2 (run 0x9c220000 (bytes 0x1000 [0x80, 0x91, 0xA2, 0xB3, 0xC4, 0xD5, 0xE6, 0xF7] (regs [(1, 0xFFFFFFFF80001000)] start))) = some 0x8091a2b3 := by decide
theorem test_ld_big :
    gpr 2 (run 0xdc220000 (bytes 0x1000 [0x80, 0x91, 0xA2, 0xB3, 0xC4, 0xD5, 0xE6, 0xF7] (regs [(1, 0xFFFFFFFF80001000)] start))) = some 0x8091a2b3c4d5e6f7 := by decide
theorem test_sh_big :
    memAt 0x1000 8 (run 0xa4220002 (regs [(1, 0xFFFFFFFF80001000), (2, 0x0102030405060708)] start)) = some [0x0, 0x0, 0x7, 0x8, 0x0, 0x0, 0x0, 0x0] := by decide
theorem test_sw_big :
    memAt 0x1000 8 (run 0xac220004 (regs [(1, 0xFFFFFFFF80001000), (2, 0x0102030405060708)] start)) = some [0x0, 0x0, 0x0, 0x0, 0x5, 0x6, 0x7, 0x8] := by decide
theorem test_sw_little :
    memAt 0x1000 8 (run 0xac220004 (little (regs [(1, 0xFFFFFFFF80001000), (2, 0x0102030405060708)] start))) = some [0x0, 0x0, 0x0, 0x0, 0x8, 0x7, 0x6, 0x5] := by decide
theorem test_sd_big :
    memAt 0x1000 8 (run 0xfc220000 (regs [(1, 0xFFFFFFFF80001000), (2, 0x0102030405060708)] start)) = some [0x1, 0x2, 0x3, 0x4, 0x5, 0x6, 0x7, 0x8] := by decide

/-! ## Unaligned loads and stores (T7) -/

theorem test_lwl_big_1 :
    gpr 2 (run 0x88220001 (bytes 0x1000 [0, 0x11, 0x22, 0x33] (regs [(1, 0xFFFFFFFF80001000), (2, 0xFFFFFFFFAABBCCDD)] start))) = some 0x112233dd := by decide
theorem test_lwl_little_2 :
    gpr 2 (run 0x88220002 (little (bytes 0x1000 [0, 0x11, 0x22, 0x33] (regs [(1, 0xFFFFFFFF80001000), (2, 0xFFFFFFFFAABBCCDD)] start)))) = some 0x221100dd := by decide
theorem test_lwr_big_1 :
    gpr 2 (run 0x98220001 (bytes 0x1000 [0, 0x11, 0x22, 0x33] (regs [(1, 0xFFFFFFFF80001000), (2, 0xFFFFFFFFAABBCCDD)] start))) = some 0xffffffffaabb0011 := by decide
theorem test_lwr_little_2 :
    gpr 2 (run 0x98220002 (little (bytes 0x1000 [0, 0x11, 0x22, 0x33] (regs [(1, 0xFFFFFFFF80001000), (2, 0xFFFFFFFFAABBCCDD)] start)))) = some 0xffffffffaabb3322 := by decide
theorem test_swl_big_1 :
    memAt 0x1000 4 (run 0xa8220001 (bytes 0x1000 [0, 0x11, 0x22, 0x33] (regs [(1, 0xFFFFFFFF80001000), (2, 0xFFFFFFFFAABBCCDD)] start))) = some [0x0, 0xaa, 0xbb, 0xcc] := by decide
theorem test_swl_little_2 :
    memAt 0x1000 4 (run 0xa8220002 (little (bytes 0x1000 [0, 0x11, 0x22, 0x33] (regs [(1, 0xFFFFFFFF80001000), (2, 0xFFFFFFFFAABBCCDD)] start)))) = some [0xcc, 0xbb, 0xaa, 0x33] := by decide
theorem test_swr_big_1 :
    memAt 0x1000 4 (run 0xb8220001 (bytes 0x1000 [0, 0x11, 0x22, 0x33] (regs [(1, 0xFFFFFFFF80001000), (2, 0xFFFFFFFFAABBCCDD)] start))) = some [0xcc, 0xdd, 0x22, 0x33] := by decide
theorem test_swr_little_2 :
    memAt 0x1000 4 (run 0xb8220002 (little (bytes 0x1000 [0, 0x11, 0x22, 0x33] (regs [(1, 0xFFFFFFFF80001000), (2, 0xFFFFFFFFAABBCCDD)] start)))) = some [0x0, 0x11, 0xdd, 0xcc] := by decide
theorem test_ldl_big_3 :
    gpr 2 (run 0x68220003 (bytes 0x1000 [0, 0x11, 0x22, 0x33, 0x44, 0x55, 0x66, 0x77, 0x88, 0x99, 0xAA, 0xBB, 0xCC, 0xDD, 0xEE, 0xFF] (regs [(1, 0xFFFFFFFF80001000), (2, 0)] start))) = some 0x3344556677000000 := by decide
theorem test_ldr_big_2 :
    gpr 2 (run 0x6c22000a (bytes 0x1000 [0, 0x11, 0x22, 0x33, 0x44, 0x55, 0x66, 0x77, 0x88, 0x99, 0xAA, 0xBB, 0xCC, 0xDD, 0xEE, 0xFF] (regs [(1, 0xFFFFFFFF80001000), (2, 0x3344556677000000)] start))) = some 0x33445566778899aa := by decide
theorem test_sdl_big_3 :
    memAt 0x1002 7 (run 0xb0220003 (bytes 0x1000 [0, 0x11, 0x22, 0x33, 0x44, 0x55, 0x66, 0x77, 0x88, 0x99, 0xAA, 0xBB, 0xCC, 0xDD, 0xEE, 0xFF] (regs [(1, 0xFFFFFFFF80001000), (2, 0x0102030405060708)] start))) = some [0x22, 0x1, 0x2, 0x3, 0x4, 0x5, 0x88] := by decide
theorem test_sdr_big_2 :
    memAt 0x1007 5 (run 0xb422000a (bytes 0x1000 [0, 0x11, 0x22, 0x33, 0x44, 0x55, 0x66, 0x77, 0x88, 0x99, 0xAA, 0xBB, 0xCC, 0xDD, 0xEE, 0xFF] (regs [(1, 0xFFFFFFFF80001000), (2, 0x0102030405060708)] start))) = some [0x77, 0x6, 0x7, 0x8, 0xbb] := by decide

/-! ## Load-linked, store-conditional (T8) -/

theorem test_ll_links :
    view (fun t => (readGpr t 2, t.llBit, t.cp0.llAddr)) (run 0xC0220000 (bytes 0x2340 [0, 0, 0, 7] (regs [(1, 0xFFFFFFFF80002340), (2, 9)] start))) = some (7, true, 0x234) := by decide
theorem test_sc_stores :
    view (fun t => (readGpr t 2, t.llBit, (List.range 4).map (fun k => Memory.read t.mem (0x2340 + k)))) (run 0xE0220000 { (bytes 0x2340 [0, 0, 0, 7] (regs [(1, 0xFFFFFFFF80002340), (2, 9)] start)) with llBit := true }) = some (1, true, [0, 0, 0, 9]) := by decide
theorem test_sc_without_link :
    view (fun t => (readGpr t 2, t.llBit, (List.range 4).map (fun k => Memory.read t.mem (0x2340 + k)))) (run 0xE0220000 (bytes 0x2340 [0, 0, 0, 7] (regs [(1, 0xFFFFFFFF80002340), (2, 9)] start))) = some (0, false, [0, 0, 0, 7]) := by decide
theorem test_lld :
    gpr 2 (run 0xd0220000 (bytes 0x2340 [0, 0, 0, 7] (regs [(1, 0xFFFFFFFF80002340), (2, 9)] start))) = some 0x700000000 := by decide
theorem test_scd_reserved_in_32_bit_user : exc (run 0xf0220000 (withStatus 0x10 start)) = some 10 := by decide

/-! ## Jumps and branches (T9) -/

theorem test_beq_taken :
    flow (run 0x10220003 (regs [(1, 0x4), (2, 0x4)] start)) = some (0xffffffff80001004, true, 0xffffffff80001010) := by decide
theorem test_bne_backward :
    flow (run 0x1422ffff (regs [(1, 0x4), (2, 0x5)] start)) = some (0xffffffff80001004, true, 0xffffffff80001000) := by decide
theorem test_blez_64_bit :
    flow (run 0x18200003 (regs [(1, 0x8000000000000000)] start)) = some (0xffffffff80001004, true, 0xffffffff80001010) := by decide
theorem test_bltz_tests_bit_63 :
    flow (run 0x4200003 (regs [(1, 0x80000000)] start)) = some (0xffffffff80001004, true, 0xffffffff80001008) := by decide
theorem test_bltzal_links_when_not_taken :
    gpr 31 (run 0x4300003 (regs [(1, 0x1)] start)) = some 0xffffffff80001008 := by decide
theorem test_bgezal_taken :
    flow (run 0x4110003 start) = some (0xffffffff80001004, true, 0xffffffff80001010) := by decide
theorem test_beql_skips_slot :
    view (fun t => (t.pc, t.inDelaySlot)) (run 0x50220003 (regs [(1, 0x1), (2, 0x2)] start)) = some (0xffffffff80001008, false) := by decide
theorem test_bnel :
    flow (run 0x54220003 (regs [(1, 0x1), (2, 0x2)] start)) = some (0xffffffff80001004, true, 0xffffffff80001010) := by decide
theorem test_blezl :
    view (fun t => (t.pc, t.inDelaySlot)) (run 0x58200003 (regs [(1, 0x1), (2, 0x2)] start)) = some (0xffffffff80001008, false) := by decide
theorem test_bltzall_links_and_skips :
    view (fun t => (t.pc, t.inDelaySlot, readGpr t 31)) (run 0x04320003 (regs [(1, 0x1)] start)) = some (0xffffffff80001008, false, 0xffffffff80001008) := by decide
theorem test_j :
    flow (run 0xbf00100 { start with pc := 0xFFFFFFFFBFC00000 }) = some (0xffffffffbfc00004, true, 0xffffffffbfc00400) := by decide
theorem test_j_region_of_the_slot :
    flow (run 0x8000000 { start with pc := 0xFFFFFFFF8FFFFFFC }) = some (0xffffffff90000000, true, 0xffffffff90000000) := by decide
theorem test_jal_links :
    gpr 31 (run 0xff00100 { start with pc := 0xFFFFFFFFBFC00000 }) = some 0xffffffffbfc00008 := by decide
theorem test_jr_keeps_low_bits :
    flow (run 0x800008 (regs [(4, 0xffffffff80002002)] start)) = some (0xffffffff80001004, true, 0xffffffff80002002) := by decide
theorem test_jalr_links :
    gpr 5 (run 0x802809 (regs [(4, 0xffffffff80002000)] start)) = some 0xffffffff80001008 := by decide
theorem test_branch_in_slot_stops :
    fault (run 0x10220003 { start with pc := 0xFFFFFFFF80001004, inDelaySlot := true, branchTarget := 0xFFFFFFFF80001010 }) = some .branchInDelaySlot := by decide
theorem test_slot_continues_at_target :
    view (fun t => (t.pc, t.inDelaySlot)) (run 0x00000000 { start with pc := 0xFFFFFFFF80001004, inDelaySlot := true, branchTarget := 0xFFFFFFFF80001010 }) = some (0xFFFFFFFF80001010, false) := by decide

/-! ## Traps, system calls, coprocessor 2 (T10) -/

theorem test_teq : exc (run 0x220034 (regs [(1, 0x3), (2, 0x3)] start)) = some 13 := by decide
theorem test_tgeu : exc (run 0x220031 (regs [(1, 0xffffffffffffffff), (2, 0x0)] start)) = some 13 := by decide
theorem test_tlt : exc (run 0x220032 (regs [(1, 0xffffffffffffffff), (2, 0x0)] start)) = some 13 := by decide
theorem test_tgeiu : exc (run 0x429ffff (regs [(1, 0x0), (2, 0x0)] start)) = some 31 := by decide
theorem test_tltiu : exc (run 0x42bffff (regs [(1, 0x0), (2, 0x0)] start)) = some 13 := by decide
theorem test_tnei : exc (run 0x42e0005 (regs [(1, 0x5), (2, 0x0)] start)) = some 31 := by decide
theorem test_syscall_entry :
    view (fun t => (t.cp0.epc, t.cp0.cause.excCode, t.cp0.status.toWord, t.pc)) (run 0xC (withStatus 0x11 { start with pc := 0x400100 })) = some (0x400100, 8, 0x13, 0xFFFFFFFF80000180) := by decide
theorem test_break_nested :
    view (fun t => (t.cp0.epc, t.cp0.cause.bd, t.cp0.cause.excCode, t.pc)) (run 0xD (withStatus 2 { start with cp0 := { start.cp0 with epc := 0x1234, cause := { start.cp0.cause with bd := true } } })) = some (0x1234, true, 9, 0xFFFFFFFF80000180) := by decide
theorem test_syscall_in_slot :
    view (fun t => (t.cp0.epc, t.cp0.cause.bd, t.cp0.cause.excCode, t.pc)) (run 0x0000000C { start with pc := 0xFFFFFFFF80001004, inDelaySlot := true, branchTarget := 0xFFFFFFFF80001010 }) = some (0xffffffff80001000, true, 8, 0xFFFFFFFF80000180) := by decide
theorem test_sync : exc (run 0xf start) = some 31 := by decide
theorem test_lwc2_unusable :
    view (fun t => (t.cp0.cause.excCode, t.cp0.cause.ce)) (run 0xc8220000 start) = some (11, 2) := by decide
theorem test_opcode_31_reserved : exc (run 0x7c000000 start) = some 10 := by decide

/-! ## CP0 (T11) -/

theorem test_mfc0_low_word :
    gpr 2 (run 0x40027000 { start with cp0 := { start.cp0 with epc := 0x0000000100000040 } }) = some 0x40 := by decide
theorem test_dmfc0_epc :
    gpr 2 (run 0x40227000 { start with cp0 := { start.cp0 with epc := 0xFFFFFFFF80001234 } }) = some 0xffffffff80001234 := by decide
theorem test_dmfc0_mode_test_first : exc (run 0x40227000 (withStatus 0x10000010 start)) = some 10 := by decide
theorem test_mtc0_entryhi :
    view (fun t => t.cp0.entryHi) (run 0x40825000 (regs [(2, 0x2055)] start)) = some { r := 0, vpn2 := 1, asid := 0x55 } := by decide
theorem test_mtc0_compare_clears_timer :
    view (fun t => (t.cp0.compare, t.timerPending)) (run 0x40825800 { (regs [(2, 0x1000)] start) with timerPending := true }) = some (0x1000, false) := by decide
theorem test_ctc0_intcontrol :
    view (fun t => t.cp0.intControl) (run 0x40C2A000 (regs [(2, 0xff00)] start)) = some { im := 0xFF, te := false, vs := 0 } := by decide
theorem test_eret_exl :
    view (fun t => (t.pc, t.cp0.status.toWord, t.llBit)) (run 0x42000018 { (withStatus 0x13 { start with cp0 := { start.cp0 with epc := 0x400104 } }) with llBit := true }) = some (0x400104, 0x11, false) := by decide
theorem test_eret_erl :
    view (fun t => (t.pc, t.cp0.status.toWord)) (run 0x42000018 (withStatus 0x400006 { start with cp0 := { start.cp0 with errorEpc := 0x77777778 } })) = some (0x77777778, 0x400002) := by decide
theorem test_tlbp_global :
    view (fun t => readCp0 t 0) (run 0x42000008 { (tlbSet 5 { mask := 0, r := 0, vpn2 := 1, asid := 85, g := true, even := { pfn := 0x300, c := 3, d := true, v := true }, odd := { pfn := 0x301, c := 3, d := true, v := true } } start) with cp0 := { start.cp0 with entryHi := { r := 0, vpn2 := 1, asid := 0x56 } } }) = some (some 5) := by decide
theorem test_tlbr :
    view (fun t => (t.cp0.entryHi.asid, readCp0 t 5, readCp0 t 2, readCp0 t 3)) (run 0x42000001 { (tlbSet 5 { mask := 0, r := 0, vpn2 := 1, asid := 85, g := false, even := { pfn := 0x300, c := 3, d := true, v := true }, odd := { pfn := 0x301, c := 3, d := true, v := true } } start) with cp0 := { start.cp0 with index := { p := false, index := 5 } } }) = some (0x55, some 0, some 0xC01E, some 0xC05E) := by decide
theorem test_tlbwi :
    view (fun t => t.tlb[3]) (run 0x42000002 { start with cp0 := { start.cp0 with index := { p := false, index := 3 }, entryHi := { r := 0, vpn2 := 2, asid := 0 }, entryLo0 := { pfn := 0x200, c := 2, d := true, v := true, g := true }, entryLo1 := { pfn := 0x201, c := 2, d := true, v := true, g := true } } }) = some { mask := 0, r := 0, vpn2 := 2, asid := 0, g := true, even := { pfn := 0x200, c := 2, d := true, v := true }, odd := { pfn := 0x201, c := 2, d := true, v := true } } := by decide
theorem test_wait : view (fun t => t.standby) (run 0x42000020 start) = some true := by decide

/-! ## `CACHE` (T12) -/

theorem test_cache_index_invalidate_i :
    view (fun t => t.pc) (run 0xbc200000 (regs [(1, 0xffffffff80000001), (10, 0xffffffff80000000)] start)) = some 0xFFFFFFFF80001004 := by decide
theorem test_cache_refill :
    view (fun t => (t.cp0.cause.excCode, t.cp0.badVAddr, t.pc)) (run 0xBC350000 (regs [(1, 0x4000)] start)) = some (2, 0x4000, 0xFFFFFFFF80000000) := by decide
theorem test_cache_index_needs_cp0 : exc (run 0xbc210000 (withStatus 0x8000010 start)) = some 11 := by decide
theorem test_cache_hit_open_to_user :
    exc (run 0xBC350000 (tlbSet 5 { mask := 0, r := 0, vpn2 := 2, asid := 85, g := true, even := { pfn := 0x300, c := 3, d := true, v := true }, odd := { pfn := 0x301, c := 3, d := true, v := true } } (withStatus 0x8000010 (regs [(1, 0x4000)] start)))) = some 31 := by decide
theorem test_cache_fill_i :
    view (fun t => t.pc) (run 0xbd540000 (regs [(1, 0xffffffff80000001), (10, 0xffffffff80000000)] start)) = some 0xFFFFFFFF80001004 := by decide
theorem test_cache_undefined_code :
    refusal (run 0xBC2C0000 (regs [(1, 0xffffffff80000000)] start)) = some .cacheOpUndefined := by decide

/-! ## MIPS IV additions (T13) -/

theorem test_movn_64_bit :
    gpr 3 (run 0x22180b (regs [(1, 0x7), (2, 0x100000000), (3, 0x9)] start)) = some 0x7 := by decide
theorem test_movz : gpr 3 (run 0x22180a (regs [(1, 0x7), (2, 0x0), (3, 0x9)] start)) = some 0x7 := by decide
theorem test_movt :
    gpr 3 (run 0x251801 (withFcr31 0x02000000 (withStatus 0x24000000 (regs [(1, 0x7), (3, 0x9)] start)))) = some 0x7 := by decide
theorem test_movf_not :
    gpr 3 (run 0x241801 (withFcr31 0x02000000 (withStatus 0x24000000 (regs [(1, 0x7), (3, 0x9)] start)))) = some 0x9 := by decide
theorem test_pref_unmapped : exc (run 0xcc200000 start) = some 31 := by decide
theorem test_prefx_unusable : exc (run 0x4c22000f start) = some 11 := by decide

/-! ## Floating-point arithmetic (T14) -/

theorem test_add_s_tie_to_even :
    fpS 4 (run 0x46020100 (withFcr31 0x0 (fprs [(0, 0x3f800000), (2, 0x33800000), (4, 0x55555555)] (withStatus 0x20000000 start)))) = some (0x3f800000, 0x1004) := by decide
theorem test_mul_s_overflow :
    fpS 4 (run 0x46020102 (withFcr31 0x0 (fprs [(0, 0x7f7fffff), (2, 0x40000000), (4, 0x55555555)] (withStatus 0x20000000 start)))) = some (0x7f800000, 0x5014) := by decide
theorem test_div_s_by_zero :
    fpS 4 (run 0x46020103 (withFcr31 0x0 (fprs [(0, 0x3f800000), (2, 0x0), (4, 0x55555555)] (withStatus 0x20000000 start)))) = some (0x7f800000, 0x8020) := by decide
theorem test_sqrt_s :
    fpS 4 (run 0x46000104 (withFcr31 0x0 (fprs [(0, 0x40000000), (2, 0x0), (4, 0x55555555)] (withStatus 0x20000000 start)))) = some (0x3fb504f3, 0x1004) := by decide
theorem test_recip_s_minus_zero :
    fpS 4 (run 0x46000115 (withFcr31 0x0 (fprs [(0, 0x80000000), (2, 0x0), (4, 0x55555555)] (withStatus 0x20000000 start)))) = some (0xff800000, 0x8020) := by decide
theorem test_rsqrt_s_two_roundings :
    fpS 4 (run 0x46000116 (withFcr31 0x0 (fprs [(0, 0x40000000), (2, 0x0), (4, 0x55555555)] (withStatus 0x20000000 start)))) = some (0x3f3504f3, 0x1004) := by decide
theorem test_neg_s :
    fpS 4 (run 0x46000107 (withFcr31 0x0 (fprs [(0, 0x0), (2, 0x0), (4, 0x55555555)] (withStatus 0x20000000 start)))) = some (0x80000000, 0x0) := by decide
theorem test_mov_s_writes_no_fcr31 :
    fpS 4 (run 0x46000106 (withFcr31 0x1004 (fprs [(0, 0x7fc00000), (2, 0x0), (4, 0x55555555)] (withStatus 0x20000000 start)))) = some (0x7fc00000, 0x1004) := by decide
theorem test_madd_s :
    fpS 6 (run 0x4c8201a0 (withFcr31 0x0 (fprs [(0, 0x40000000), (2, 0x40400000), (4, 0x3f800000)] (withStatus 0x20000000 start)))) = some (0x40e00000, 0x0) := by decide
theorem test_madd_s_product_overflow :
    fpS 6 (run 0x4c8201a0 (withFcr31 0x1000000 (fprs [(0, 0x71800000), (2, 0x71800000), (4, 0x3f800000)] (withStatus 0x20000000 start)))) = some (0x0, 0x1020000) := by decide
theorem test_nmsub_s :
    fpS 6 (run 0x4c8201b8 (withFcr31 0x0 (fprs [(0, 0x40000000), (2, 0x40400000), (4, 0x3f800000)] (withStatus 0x20000000 start)))) = some (0xc0a00000, 0x0) := by decide
theorem test_recip_s_without_mips4 :
    view (fun t => (t.cp0.cause.excCode, t.fpu.fcr31.toWord)) (run 0x46000115 (withStatus 0x20000010 start)) = some (15, 0x20000) := by decide
theorem test_add_d_odd_register : fault (run 0x46230100 (withStatus 0x20000000 start)) = some .oddFpr := by decide
theorem test_cvt_s_s_unimplemented :
    view (fun t => (t.cp0.cause.excCode, t.fpu.fcr31.toWord)) (run 0x46000120 (withStatus 0x20000000 start)) = some (15, 0x20000) := by decide
theorem test_madd_s_reserved_without_mips4 : exc (run 0x4c8201a0 (withStatus 0x20000010 start)) = some 10 := by decide

/-! ## Conversions (T15) -/

theorem test_cvt_s_d :
    fpS 4 (run 0x46200120 (withFcr31 0x0 (fprs [(0, 0x9999999a), (2, 0x0), (4, 0x55555555), (1, 0x3fb99999)] (withStatus 0x20000000 start)))) = some (0x3dcccccd, 0x1004) := by decide
theorem test_cvt_s_d_quiet_nan :
    fpS 4 (run 0x46200120 (withFcr31 0x0 (fprs [(0, 0x0), (2, 0x0), (4, 0x55555555), (1, 0x7ff40000)] (withStatus 0x20000000 start)))) = some (0x55555555, 0x20000) := by decide
theorem test_cvt_s_w :
    fpS 4 (run 0x46800120 (withFcr31 0x0 (fprs [(0, 0x1000001), (2, 0x0), (4, 0x55555555)] (withStatus 0x20000000 start)))) = some (0x4b800000, 0x1004) := by decide
theorem test_cvt_d_l :
    fpD 4 (run 0x46a00121 (withFcr31 0x0 (fprs [(0, 0x20000000000001), (2, 0x0), (4, 0x55555555)] (withStatus 0x24000000 start)))) = some (0x4340000000000000, 0x1004) := by decide
theorem test_cvt_w_s_tie :
    fpS 4 (run 0x46000124 (withFcr31 0x0 (fprs [(0, 0x40200000), (2, 0x0), (4, 0x55555555)] (withStatus 0x20000000 start)))) = some (0x2, 0x1004) := by decide
theorem test_cvt_w_s_out_of_range :
    fpS 4 (run 0x46000124 (withFcr31 0x0 (fprs [(0, 0x4f000000), (2, 0x0), (4, 0x55555555)] (withStatus 0x20000000 start)))) = some (0x7fffffff, 0x10040) := by decide
theorem test_round_w_s :
    fpS 4 (run 0x4600010c (withFcr31 0x0 (fprs [(0, 0x40200000), (2, 0x0), (4, 0x55555555)] (withStatus 0x20000000 start)))) = some (0x2, 0x1004) := by decide
theorem test_ceil_w_s :
    fpS 4 (run 0x4600010e (withFcr31 0x0 (fprs [(0, 0xc0200000), (2, 0x0), (4, 0x55555555)] (withStatus 0x20000000 start)))) = some (0xfffffffe, 0x1004) := by decide
theorem test_cvt_l_d_largest :
    fpD 4 (run 0x46200125 (withFcr31 0x0 (fprs [(0, 0x432ffffffffffffe), (2, 0x0), (4, 0x55555555)] (withStatus 0x24000000 start)))) = some (0xfffffffffffff, 0x0) := by decide
theorem test_cvt_l_d_2_63 :
    fpD 4 (run 0x46200125 (withFcr31 0x0 (fprs [(0, 0x43e0000000000000), (2, 0x0), (4, 0x55555555)] (withStatus 0x24000000 start)))) = some (0x55555555, 0x20000) := by decide
theorem test_cvt_l_s :
    fpD 4 (run 0x46000125 (withFcr31 0x0 (fprs [(0, 0x3fc00000), (2, 0x0), (4, 0x55555555)] (withStatus 0x24000000 start)))) = some (0x2, 0x1004) := by decide

/-! ## Compares, branches, conditional moves (T16) -/

theorem test_c_eq_s_zeros :
    view (fun t => t.fpu.fcr31.toWord) (run 0x46020032 (withFcr31 0x0 (fprs [(0, 0x0), (2, 0x80000000), (4, 0x55555555)] (withStatus 0x24000000 start)))) = some 0x800000 := by decide
theorem test_c_eq_s_signaling :
    view (fun t => t.fpu.fcr31.toWord) (run 0x46020032 (withFcr31 0x0 (fprs [(0, 0x7fc00000), (2, 0x3f800000), (4, 0x55555555)] (withStatus 0x24000000 start)))) = some 0x10040 := by decide
theorem test_c_lt_s_clears :
    view (fun t => t.fpu.fcr31.toWord) (run 0x4602003c (withFcr31 0x800000 (fprs [(0, 0x40000000), (2, 0x3f800000), (4, 0x55555555)] (withStatus 0x24000000 start)))) = some 0x0 := by decide
theorem test_c_lt_s_invalid_traps :
    view (fun t => t.fpu.fcr31.toWord) (run 0x4602003c (withFcr31 0x800800 (fprs [(0, 0x7fa00000), (2, 0x3f800000), (4, 0x55555555)] (withStatus 0x24000000 start)))) = some 0x810800 := by decide
theorem test_c_ult_s_cc2 :
    view (fun t => t.fpu.fcr31.toWord) (run 0x46020235 (withFcr31 0x0 (fprs [(0, 0x7fa00000), (2, 0x3f800000), (4, 0x55555555)] (withStatus 0x24000000 start)))) = some 0x4000000 := by decide
theorem test_c_le_d_cc1 :
    view (fun t => t.fpu.fcr31.toWord) (run 0x4622013e (withFcr31 0x0 (fprs [(0, 0x4000000000000000), (2, 0x4000000000000000), (4, 0x55555555)] (withStatus 0x24000000 start)))) = some 0x2000000 := by decide
theorem test_c_olt_s_denormal :
    view (fun t => t.fpu.fcr31.toWord) (run 0x46020034 (withFcr31 0x1000000 (fprs [(0, 0x0), (2, 0x1), (4, 0x55555555)] (withStatus 0x24000000 start)))) = some 0x1800000 := by decide
theorem test_bc1t :
    flow (run 0x45010003 (withFcr31 0x800000 (fprs [(0, 0x0), (2, 0x0), (4, 0x55555555)] (withStatus 0x24000000 start)))) = some (0xffffffff80001004, true, 0xffffffff80001010) := by decide
theorem test_bc1fl_skips :
    view (fun t => (t.pc, t.inDelaySlot)) (run 0x45020003 (withFcr31 0x800000 (fprs [(0, 0x0), (2, 0x0), (4, 0x55555555)] (withStatus 0x24000000 start)))) = some (0xffffffff80001008, false) := by decide
theorem test_bc1tl :
    flow (run 0x45070003 (withFcr31 0x2000000 (fprs [(0, 0x0), (2, 0x0), (4, 0x55555555)] (withStatus 0x24000000 start)))) = some (0xffffffff80001004, true, 0xffffffff80001010) := by decide
theorem test_movt_s :
    fpS 4 (run 0x46010111 (withFcr31 0x800000 (fprs [(0, 0x3f800000), (2, 0x0), (4, 0x55555555)] (withStatus 0x20000000 start)))) = some (0x3f800000, 0x800000) := by decide
theorem test_movt_d :
    fpD 4 (run 0x46250111 (withFcr31 0x2000000 (fprs [(0, 0x3ff0000000000000), (2, 0x0), (4, 0x55555555)] (withStatus 0x24000000 start)))) = some (0x3ff0000000000000, 0x2000000) := by decide
theorem test_movn_s_64_bit :
    fpS 4 (run 0x46020113 (regs [(2, 0x100000000)] (withFcr31 0x0 (fprs [(0, 0x3f800000), (2, 0x0), (4, 0x55555555)] (withStatus 0x20000000 start))))) = some (0x3f800000, 0) := by decide

/-! ## Floating-point loads, stores, moves (T17) -/

theorem test_mtc1 :
    view (fun t => readFprWord t 0) (run 0x44820000 (withStatus 0x20000000 (regs [(2, 0xffffffffbf800000)] start))) = some 0xBF800000 := by decide
theorem test_mfc1_sign_extends :
    gpr 2 (run 0x44020000 (fprs [(0, 0x80000000)] (withStatus 0x24000000 start))) = some 0xffffffff80000000 := by decide
theorem test_dmtc1_pair :
    view (fun t => (low32 (readFgr t 1), low32 (readFgr t 0))) (run 0x44A20000 (withStatus 0x20000000 (regs [(2, 0x3ff0000000000000)] start))) = some (0x3FF00000, 0) := by decide
theorem test_dmfc1_pair :
    gpr 2 (run 0x44220000 (fprs [(1, 0x3FF00000)] (withStatus 0x20000000 start))) = some 0x3ff0000000000000 := by decide
theorem test_ldc1_pair :
    view (fun t => (low32 (readFgr t 3), low32 (readFgr t 2))) (run 0xD4220000 (bytes 0x2000 [0x3F, 0xF0, 0, 0, 0, 0, 0, 0, 1, 2, 3, 4, 5, 6, 7, 8] (withStatus 0x20000000 (regs [(1, 0xffffffff80002000), (2, 0x8)] start)))) = some (0x3FF00000, 0) := by decide
theorem test_lwc1 :
    view (fun t => low32 (readFgr t 2)) (run 0xC4220000 (bytes 0x2000 [0x3F, 0xF0, 0, 0, 0, 0, 0, 0, 1, 2, 3, 4, 5, 6, 7, 8] (withStatus 0x20000000 (regs [(1, 0xffffffff80002000), (2, 0x8)] start)))) = some 0x3FF00000 := by decide
theorem test_sdc1_misaligned :
    exc (run 0xf4220004 (bytes 0x2000 [0x3F, 0xF0, 0, 0, 0, 0, 0, 0, 1, 2, 3, 4, 5, 6, 7, 8] (withStatus 0x20000000 (regs [(1, 0xffffffff80002000), (2, 0x8)] start)))) = some 5 := by decide
theorem test_swc1 :
    memAt 0x2000 4 (run 0xe4220000 (fprs [(2, 0x11223344)] (bytes 0x2000 [0x3F, 0xF0, 0, 0, 0, 0, 0, 0, 1, 2, 3, 4, 5, 6, 7, 8] (withStatus 0x20000000 (regs [(1, 0xffffffff80002000), (2, 0x8)] start))))) = some [0x11, 0x22, 0x33, 0x44] := by decide
theorem test_ldxc1 :
    view (fun t => readFgr t 4) (run 0x4C220101 (bytes 0x2000 [0x3F, 0xF0, 0, 0, 0, 0, 0, 0, 1, 2, 3, 4, 5, 6, 7, 8] (withStatus 0x24000000 (regs [(1, 0xffffffff80002000), (2, 0x8)] start)))) = some 0x0102030405060708 := by decide
theorem test_swxc1 :
    memAt 0x2008 5 (run 0x4c222008 (fprs [(4, 0x11223344)] (bytes 0x2000 [0x3F, 0xF0, 0, 0, 0, 0, 0, 0, 1, 2, 3, 4, 5, 6, 7, 8] (withStatus 0x24000000 (regs [(1, 0xffffffff80002000), (2, 0x8)] start))))) = some [0x11, 0x22, 0x33, 0x44, 0x5] := by decide
theorem test_cfc1_fcr31 :
    gpr 2 (run 0x4442f800 (withFcr31 0x80000000 (fprs [(0, 0x0), (2, 0x0), (4, 0x55555555)] (withStatus 0x24000000 start)))) = some 0xffffffff80000000 := by decide
theorem test_ctc1_raises :
    view (fun t => (t.fpu.fcr31.toWord, if t.cp0.status.exl then t.cp0.cause.excCode else 31)) (run 0x44C2F800 (withStatus 0x24000000 (regs [(2, 0xffffffffffffffff)] start))) = some (0xff83ffff, 15) := by decide

/-! ## Exceptions, interrupts, resets (T18, T19, T22; V2) -/

theorem test_tlb_refill_registers :
    view (fun t => (readCp0 t 8, readCp0 t 10, readCp0 t 4, t.cp0.xcontext.badVpn2, t.cp0.epc, t.cp0.status.toWord, t.pc)) (run 0x8D280004 (withStatus 0x11 { (regs [(9, 0x6000)] start) with pc := 0x400100, cp0 := { start.cp0 with entryHi := { r := 0, vpn2 := 0, asid := 5 }, context := { pteBase := 0x1FFFFFFFF00, badVpn2 := 0 } } })) = some (some 0x6004, some 0x6005, some 0xFFFFFFFF80000030, 3, 0x400100, 0x13, 0xFFFFFFFF80000000) := by decide
theorem test_address_error_in_slot :
    view (fun t => (t.cp0.epc, t.cp0.cause.bd, t.cp0.badVAddr, t.inDelaySlot)) (run 0x8C220000 (regs [(1, 2)] { start with pc := 0xFFFFFFFF80001004, inDelaySlot := true, branchTarget := 0xFFFFFFFF80001010 })) = some (0xffffffff80001000, true, 2, false) := by decide
theorem test_tlb_modified :
    view (fun t => (t.cp0.cause.excCode, t.cp0.badVAddr, t.cp0.entryHi.vpn2, t.cp0.context.badVpn2, t.pc)) (run 0xAC220000 (tlbSet 9 { mask := 0, r := 0, vpn2 := 2, asid := 0, g := true, even := { pfn := 0x200, c := 3, d := true, v := true }, odd := { pfn := 0x201, c := 3, d := false, v := true } } (regs [(1, 0x5008)] start))) = some (1, 0x5008, 2, 2, 0xFFFFFFFF80000180) := by decide
theorem test_data_watch :
    view (fun t => (t.cp0.cause.excCode, t.cp0.cause.w1, t.cp0.cause.w2, readGpr t 2)) (run 0x8C220000 { (regs [(1, 0xffffffff80001000), (2, 0x5)] start) with cp0 := { start.cp0 with watch1 := Watch.ofDword 0x4000000000001000 } }) = some (23, true, false, 5) := by decide
theorem test_interrupt_taken :
    view (fun t => (t.cp0.epc, t.cp0.cause.excCode, t.cp0.status.toWord, t.pc)) (step (withStatus 0x401 { start with pc := 0xFFFFFFFF80002000, intPin := 1 })) = some (0xFFFFFFFF80002000, 0, 0x403, 0xFFFFFFFF80000180) := by decide
theorem test_interrupt_vectored :
    view (fun t => (t.cp0.cause.iv, t.pc)) (step (withStatus 0x401 { start with intPin := 0x41, cp0 := { start.cp0 with cause := { start.cp0.cause with iv := true }, intControl := IntControl.ofWord 0x108, iplHi := 3, iplLo := 256 } })) = some (true, 0xFFFFFFFF80000300) := by decide
theorem test_interrupt_reserved_spacing :
    fault (step { (withStatus 1 (withStatus 0x401 { start with intPin := 0x41, cp0 := { start.cp0 with cause := { start.cp0.cause with iv := true }, intControl := IntControl.ofWord 0x108, iplHi := 3, iplLo := 0 } })) with intPin := 0x40, cp0 := { (withStatus 1 (withStatus 0x401 { start with intPin := 0x41, cp0 := { start.cp0 with cause := { start.cp0.cause with iv := true }, intControl := IntControl.ofWord 0x108, iplHi := 3, iplLo := 0 } })).cp0 with intControl := IntControl.ofWord 0x103 } }) = some .reservedVectorSpacing := by decide
theorem test_timer :
    view (fun t => (t.timerPending, readCp0 t 13)) (step (withStatus 0x8001 { start with cp0 := { start.cp0 with count := 0xFFF, compare := 0x1000 } })) = some (true, some 0x8000) := by decide
theorem test_external_write :
    view (fun t => (t.intReg, readCp0 t 13)) (step { start with events := [.externalWrite 0 0x00010001] }) = some (1, some 0x400) := by decide
theorem test_external_nmi :
    view (fun t => (t.pc, t.cp0.status.toWord)) (step (withStatus 2 { start with events := [.externalWrite 0 0x80008000] })) = some (0xFFFFFFFFBFC00000, 0x00500006) := by decide
theorem test_soft_reset :
    view (fun t => (t.cp0.errorEpc, t.cp0.status.toWord, t.pc)) (step (withStatus 0xFF01 { start with pc := 0xFFFFFFFF80004000, events := [.softReset] })) = some (0xFFFFFFFF80004000, 0x0050FF05, 0xFFFFFFFFBFC00000) := by decide
theorem test_fetch_parity :
    view (fun t => (t.cp0.errorEpc, t.cp0.status.toWord, t.pc, t.cp0.epc)) (step (withStatus 1 { start with pc := 0xFFFFFFFF80005000, events := [.fetchParity { ed := true, et := false, ee := false, eb := false, ei := false }] })) = some (0xFFFFFFFF80005000, 5, 0xFFFFFFFFA0000100, 0) := by decide
theorem test_first_instruction_after_reset :
    view (fun t => (readGpr t 2, t.pc)) (step (State.reset.withFetchWord 32 0x24020001)) = some (1, 0xFFFFFFFFBFC00004) := by decide

/-! ## Translation (T20) -/

theorem test_kseg0 :
    okOf (Machine.translate .load 0xffffffff80001234 (withStatus 0x0 start)) = some (0x1234, 3) := by decide
theorem test_xkphys :
    okOf (Machine.translate .load 0x9800000f00000000 (withStatus 0x80 start)) = some (0xf00000000, 3) := by decide
theorem test_low_while_erl :
    okOf (Machine.translate .load 0x1000 (withStatus 0x4 start)) = some (0x1000, 2) := by decide
theorem test_xuseg_miss :
    whyOf (Machine.translate .load 0xfffffffff8 (withStatus 0x30 start)) = some (.tlbRefill false true 0xfffffffff8) := by decide
theorem test_above_xuseg :
    whyOf (Machine.translate .load 0x10000000000 (withStatus 0x30 start)) = some (.adE false 0x10000000000) := by decide
theorem test_large_page :
    okOf (Machine.translate .load 0x27ffc (withStatus 0x0 (tlbSet 9 { mask := 3, r := 0, vpn2 := 0x10, asid := 0, g := true, even := { pfn := 0x400, c := 3, d := true, v := true }, odd := { pfn := 0x404, c := 3, d := true, v := true } } start))) = some (0x407ffc, 3) := by decide

/-! ## Witnesses: states that meet the hypotheses of the statements, clause by clause -/

/-- `start` with a word of code at its `pc`. -/
def code (w : Word) : State :=
  bytes 0x1000 [w.extractLsb' 24 8, w.extractLsb' 16 8, w.extractLsb' 8 8, w.extractLsb' 0 8] start
/-- Hazards are checked. -/
def strict (s : State) : State := { s with params := { s.params with strictHazards := true } }
/-- A page of 4 KB at 0x4000 and its odd neighbour at 0x5000. -/
def page (even odd : TlbPage) : TlbEntry :=
  { mask := 0, r := 0, vpn2 := 2, asid := 0, g := true, even := even, odd := odd }
/-- A valid, writable page. -/
def goodPage : TlbPage := { pfn := 0x200, c := 3, d := true, v := true }
/-- User mode with 64-bit operations, MIPS IV and a mapped page at 0x4000. -/
def user : State := tlbSet 5 (page goodPage goodPage) (withStatus 0xA4000030 { start with pc := 0x4000 })
/-- Kernel mode with the unit and the register file of 64 bits enabled. -/
def fpOn : State := withStatus 0x24000000 start
/-- User mode with 32-bit operations only. -/
def user32 : State := withStatus 0x20000010 start
/-- A physical map with a device, a hole and ROM. -/
def board (s : State) : State :=
  { s with params := { s.params with pmap :=
      [{ base := 0, size := 0x10000, kind := .ram }, { base := 0x10000, size := 0x1000, kind := .device },
        { base := 0x11000, size := 0x1000, kind := .rom }] } }
/-- The board's next event. -/
def withEvent (e : HostEvent) (s : State) : State := { s with events := [e] }

/-- A base register. -/
def based (x : Dword) : State := regs [(1, x)] start

/-- For `StepRunsTheDecodedInstruction`: lenient; strict without a hazard, with one of the instruction, with one of its
fetch; a reserved word, without and with a hazard; a failing fetch. -/
theorem witness_step :
    (Undisturbed (code 0x24020001) ∧ earlyHazard none (sampled (code 0x24020001)) = none ∧
      fetch none (sampled (code 0x24020001)) = .ok (0x24020001, 3, sampled (code 0x24020001)) ∧
      decode 0x24020001 = .ok (.addiu 0 2 1) ∧ (code 0x24020001).params.strictHazards = false) ∧
    (Undisturbed (strict (code 0x24020001)) ∧ earlyHazard none (sampled (strict (code 0x24020001))) = none ∧
      fetch none (sampled (strict (code 0x24020001))) = .ok (0x24020001, 3, sampled (strict (code 0x24020001))) ∧
      hazardOf (.addiu 0 2 1) (sampled (strict (code 0x24020001))) 3 = none) ∧
    (let s := { strict (code 0x42000002) with hazards := { Hazards.closed with tlbwi := 1 } }
     Undisturbed s ∧ earlyHazard none (sampled s) = none ∧ fetch none (sampled s) = .ok (0x42000002, 3, sampled s) ∧
      decode 0x42000002 = .ok .tlbwi ∧ hazardOf .tlbwi (sampled s) 3 = some .tlbwi) ∧
    (let s := { strict (code 0x24020001) with hazards := { Hazards.closed with kseg0Use := 1 } }
     Undisturbed s ∧ earlyHazard none (sampled s) = some .kseg0Use) ∧
    (Undisturbed (code 0x7C000000) ∧ earlyHazard none (sampled (code 0x7C000000)) = none ∧
      fetch none (sampled (code 0x7C000000)) = .ok (0x7C000000, 3, sampled (code 0x7C000000)) ∧
      decode 0x7C000000 = .error .majorOpcode) ∧
    (let s := { strict (withStatus 0x20000000 (code 0x4600003F)) with
                hazards := { Hazards.closed with controlInSlot := some .fcr31 } }
     Undisturbed s ∧ earlyHazard none (sampled s) = none ∧ reservedDependsOnWrite (.cop1 16 0x1F) (sampled s) = true) ∧
    (let s := { start with pc := 0xFFFFFFFF80001002 }
     Undisturbed s ∧ fetch none (sampled s) = .error (.exc (.adE false 0xFFFFFFFF80001002) (sampled s))) :=
  ⟨⟨⟨rfl, .inl rfl, rfl, rfl, by decide, by decide⟩, rfl, rfl, rfl, rfl⟩,
    ⟨⟨rfl, .inl rfl, rfl, rfl, by decide, by decide⟩, rfl, rfl, by decide⟩,
    ⟨⟨rfl, .inl rfl, rfl, rfl, by decide, by decide⟩, rfl, rfl, rfl, by decide⟩,
    ⟨⟨rfl, .inl rfl, rfl, rfl, by decide, by decide⟩, rfl⟩,
    ⟨⟨rfl, .inl rfl, rfl, rfl, by decide, by decide⟩, rfl, rfl, rfl⟩,
    ⟨⟨rfl, .inl rfl, rfl, rfl, by decide, by decide⟩, rfl, rfl⟩,
    ⟨⟨rfl, .inl rfl, rfl, rfl, by decide, by decide⟩, rfl⟩⟩

/-- Under strict hazard checking a `TLBWI` in User mode takes Coprocessor Unusable (95 T11 row 10): no hazard comes
before the permission test of R350. -/
theorem test_strictUserTlbwi :
    exc (runInstr .tlbwi 3 (strict (withStatus 0x10 { start with pc := 0x4000 }))) = some 11 := by decide

/-- R912 under strict hazard checking: after a `CTC1` in a slot an `ADD.S` or a `BC1T` depends on `FCR31`, a `LWC1` does not;
after a `MTC0` to `Config` a `CACHE` writeback at an uncached address depends on `SE` and `TE`, an index invalidation of the
instruction cache does not. -/
theorem test_slotDependants :
    let after (w : ControlWrite) (s : State) : State := strict { s with hazards := { Hazards.closed with controlInSlot := some w } }
    let s := after .fcr31 fpOn
    let u := after (.cp0 16) (regs [(1, 0xFFFFFFFFA0001000)] start)
    hazardOf (.addS 2 0 4) s 3 = some .controlInSlot ∧ hazardOf (.bc1t 0 4) s 3 = some .controlInSlot ∧
      hazardOf (.lwc1 0 2 4) s 3 = none ∧ hazardOf (.cacheHitWritebackD 1 0) u 2 = some .controlInSlot ∧
      hazardOf (.cacheIndexInvalidateI 1 0) u 2 = none := by decide

/-- R912 and R854 under strict hazard checking: after a slot write of `Watch1` a load depends on it, a prefetch, which fires
no Watch (47_mips4_additions.md rule R640), does not. -/
theorem test_slotWatch :
    let s := strict { based 0xFFFFFFFF80001000 with hazards := { Hazards.closed with controlInSlot := some (.cp0 18) } }
    hazardOf (.lw 1 2 0) s 3 = some .controlInSlot ∧ hazardOf (.pref 1 4 0) s 3 = none := by decide

/-- A move that changes nothing leaves no hazard behind: to a read-only register (40_cp0_instructions.md rule R353), or
without permission (rule R350). -/
theorem test_slotWrites :
    let slot (s : State) : State := strict { s with inDelaySlot := true }
    (nextHazards (.mtc0 1 8) (slot start)).controlInSlot = none ∧
      (nextHazards (.mtc0 1 16) (slot start)).controlInSlot = some (.cp0 16) ∧
      (nextHazards (.mtc0 1 10) (slot user)).controlInSlot = none ∧ (nextHazards (.mtc0 1 10) (slot user)).tlbwi = 0 := by decide

/-- Explicit caches, with the four lines of primary index 0, the secondary lines of index 128 and one tertiary line
known. -/
def caching (d : DLine) (i : ILine) (x : SLine) (t : TLine) (s : State) : State :=
  { s with
    params := { s.params with explicitCaches := true, tcPresent := true }
    caches := { s.caches with
      dcache := [(0, d), (128, { d with tag := 0, state := 0, w := false }), (256, { d with tag := 0, state := 0, w := false }),
        (384, { d with tag := 0, state := 0, w := false })]
      icache := [(0, i), (128, { i with tag := 0, state := 0 }), (256, { i with tag := 0, state := 0 }),
        (384, { i with tag := 0, state := 0 })]
      scache := [(128, x), (2176, { x with tag := 0, state := 0 }), (4224, { x with tag := 0, state := 0 }),
        (6272, { x with tag := 0, state := 0 })]
      tcache := [(128, t)] } }
/-- A data-cache line for the page at 0x1000. -/
def lineD (state : BitVec 2) (w b : Bool) : DLine :=
  { tag := 1, state := state, w := w, b := b, l := false, f := false, p := false, sp := false, par := 0, data := 5 }
/-- An instruction-cache line for the page at 0x1000. -/
def lineI (state : BitVec 2) : ILine :=
  { tag := 1, state := state, l := false, f := false, p := false, par := 0, preDec := none, data := 5 }
/-- A secondary line for the 64 KB at 0. -/
def lineS (state : BitVec 3) : SLine :=
  { tag := 0, state := state, l := false, f := false, p := false, sp := false, par := 0, data := 5 }
/-- A tertiary line. -/
def lineT : TLine := { tag := 0, state := 2, par := 0, data := 5 }
/-- Nothing of the page at 0x1000 is in the caches. -/
def cold (s : State) : State := caching (lineD 0 false false) (lineI 0) (lineS 0) lineT s
/-- Bypass attribute for `kseg0`. -/
def bypass (s : State) : State := { s with cp0 := { s.cp0 with config := { s.cp0.config with k0 := 7 } } }

/-- For `FetchReadsTheWordAtThePc`: the first and the last word of `kseg0`; through the instruction cache, a hit on the
last word of a line and a miss on its first. -/
theorem witness_fetch :
    (Direct start 3 ∧ FetchReaches { start with pc := 0xFFFFFFFF80000000 } 0 3) ∧
      FetchReaches { start with pc := 0xFFFFFFFF9FFFFFFC } 0x1FFFFFFC 3 ∧
    (let s := { caching (lineD 0 false false) (lineI 2) (lineS 0) lineT start with pc := 0xFFFFFFFF8000101C }
     ThroughCaches s 3 ∧ s.pc.toNat % 4 = 0 ∧ Machine.translate .fetch s.pc s = .ok (0x101C, 3) ∧
      watchMatch s .fetch 0x101C 4 = (false, false) ∧ lookupI s 0x101C = .ok (some 0) ∧ (iLine s 0).preDec = none) ∧
    (let s := cold (bypass start)
     ThroughCaches s 7 ∧ FetchReaches s 0x1000 7 ∧ lookupI s 0x1000 = .ok none) :=
  ⟨⟨.inl rfl, by decide, rfl, .inl (by decide), by decide⟩, ⟨by decide, rfl, .inl (by decide), by decide⟩,
    ⟨⟨rfl, by decide, by decide⟩, by decide, rfl, by decide, rfl, rfl⟩,
    ⟨rfl, by decide, by decide⟩, ⟨by decide, rfl, .inl (by decide), by decide⟩, rfl⟩

/-- For the exceptions in `FetchReadsTheWordAtThePc`: a misaligned `pc`, one that is misaligned by its last bit but one, an
unmapped one; a hole, a device, a watched word, transparent; a hole behind a miss and a watched word in a line, explicit; a
step that meets one (95_test_vectors.md T18). -/
theorem witness_fetchTraps :
    let fetching (pc : Dword) (s : State) : State := { s with pc := pc }
    let watching (s : State) : State := { s with cp0 := { s.cp0 with watch1 := Watch.ofDword 0x2000000000001000 } }
    (fetching 0xFFFFFFFF80001002 start).pc.toNat % 4 ≠ 0 ∧
    (let s := fetching 0x6000 start
     s.pc.toNat % 4 = 0 ∧ Machine.translate .fetch s.pc s = .error (.exc (.tlbRefill false false 0x6000) s)) ∧
    (let s := board (fetching 0xFFFFFFFF80012000 start)
     Machine.translate .fetch s.pc s = .ok (0x12000, 3) ∧ Direct s 3 ∧ regionKind s 0x12000 = .hole ∧
      regionKind s 0x10000 = .device ∧ regionKind s 0x11FFC = .rom) ∧
    (let s := watching start
     Machine.translate .fetch s.pc s = .ok (0x1000, 3) ∧ regionKind s 0x1000 = .ram ∧
      watchMatch s .fetch 0x1000 4 = (true, false) ∧ watchMatch s .load 0x1000 4 = (false, false)) ∧
    (let s := cold (bypass (board (fetching 0xFFFFFFFF80012000 start)))
     ThroughCaches s 7 ∧ lookupI s 0x12000 = .ok none ∧ regionKind s 0x12000 = .hole) ∧
    (let s := caching (lineD 0 false false) (lineI 2) (lineS 0) lineT (watching start)
     ThroughCaches s 3 ∧ lookupI s 0x1000 = .ok (some 0) ∧ (iLine s 0).preDec = none ∧
      watchMatch s .fetch 0x1000 4 = (true, false)) ∧
    (let s := fetching 0xFFFFFFFF80001002 start
     Undisturbed s ∧ earlyHazard none (sampled s) = none ∧
      fetch none (sampled s) = .error (.exc (.adE false 0xFFFFFFFF80001002) (sampled s))) :=
  ⟨by decide, ⟨by decide, rfl⟩, ⟨rfl, .inl rfl, by decide, by decide, by decide⟩, ⟨rfl, by decide, by decide, by decide⟩,
    ⟨⟨rfl, by decide, by decide⟩, rfl, by decide⟩, ⟨⟨rfl, by decide, by decide⟩, rfl, rfl, by decide⟩,
    ⟨rfl, .inl rfl, rfl, rfl, by decide, by decide⟩, rfl, rfl⟩
/-- A jump target that is no multiple of 4 raises `AdEL` at its fetch, with `EPC` and `BadVAddr` the target
(45_jump_branch.md rule R565). -/
theorem test_fetch_misaligned :
    view (fun t => (t.cp0.cause.excCode, t.cp0.epc, t.cp0.badVAddr, t.cp0.cause.bd)) (step { start with pc := 0xFFFFFFFF80001002 }) =
      some (4, 0xFFFFFFFF80001002, 0xFFFFFFFF80001002, false) := by decide
/-- A fetch from a hole is an instruction bus error: `EC` is cleared, `IDX` loaded (60_exceptions.md rule R815). -/
theorem test_fetch_bus_error :
    view (fun t => (t.cp0.cause.excCode, t.cp0.cacheErr.ec, t.cp0.cacheErr.idx, t.pc)) (step (board { start with
      pc := 0xFFFFFFFF80012008, cp0 := { start.cp0 with cacheErr := { start.cp0.cacheErr with ec := true } } })) =
      some (6, false, 0x2401, 0xFFFFFFFF80000180) := by decide

/-- For `ReservedEncodingsRaise`: CP0 usable and not, the floating-point unit usable and not, MIPS IV and 64-bit operations
enabled and not, a format W with a result L and one without. -/
theorem witness_reserved : cp0Usable start = true ∧ cp0Usable user = false ∧ start.status.cu1 = false ∧
    fpOn.status.cu1 = true ∧ isMips4 user32 = false ∧ isMips4 fpOn = true ∧ is64 user32 = false ∧ is64 fpOn = true ∧
    (37 : BitVec 6).toNat ∈ [8, 9, 10, 11, 37] ∧ (36 : BitVec 6).toNat ∉ [8, 9, 10, 11, 37] := by decide

/-- For `CountersAdvance`: each way the performance counter stands still, and the cycle count. -/
theorem witness_counters :
    let perf (ce um km : Bool) (csf : BitVec 5) (s : State) : State :=
      { s with cp0 := { s.cp0 with perfControl := { ce := ce, um := um, km := km, csf := csf } } }
    (perf false true true 1 start).cp0.perfControl.ce = false ∧
    (mode (perf true false true 1 user) = .user ∧ (perf true false true 1 user).cp0.perfControl.um = false) ∧
    (mode (perf true true false 1 start) = .kernel ∧ (perf true true false 1 start).cp0.perfControl.km = false) ∧
    (perf true true true 0x1F start).cp0.perfControl.csf = 0x1F ∧
    ((perf true false true 1 start).cp0.perfControl.ce = true ∧ mode (perf true false true 1 start) = .kernel ∧
      (perf true false true 1 start).cp0.perfControl.csf = 1) := by decide

/-- For `ColdResetEstablishesTheStatedValues`: a reserved stream; a legal one that asks for 64 entries at the revision
where they begin to exist and just below it. -/
theorem witness_coldReset :
    (withEvent (.coldReset (1 <<< 16) true) start).events = [.coldReset (1 <<< 16) true] ∧
    modeStreamOk (BitVec.ofNat 256 (2 ^ 256 - 1)) = false ∧ modeStreamOk (1 <<< 24) = true ∧
    start.params.rev.toNat = 0x20 ∧
    ({ start with params := { start.params with rev := 0x1F } } : State).params.rev.toNat < 0x20 := by decide

/-- For `SoftResetAndNmiPreserveRegisters`: a soft reset, an edge of `NMI*`, an external NMI. -/
theorem witness_softReset :
    (withEvent .softReset start).events = [.softReset] ∧
    (start.events = [] ∧ start.nmiLevel = false ∧ nmiNow { start with nmiPin := true } = true) ∧
    nmiNow { start with intReg := 0x400 } = true := by decide

/-- For `StepKeepsTheInvariant`: a state with the invariant whose step has a next state. -/
theorem witness_invariant : Inv start ∧ ∃ t, step start = .next t :=
  ⟨⟨⟨by decide, by decide⟩, ⟨by decide, by decide⟩, by unfold countRuns; decide, by unfold paramsOk; decide⟩, _, rfl⟩

/-- For `UserModeCannotChangeControlState`: a step that changes nothing of `Status`, and a system call. -/
theorem witness_userMode :
    let s := user
    let c := bytes 0x200000 [0, 0, 0, 0x0C] user
    (mode s = .user ∧ s.status.cu0 = false ∧ s.status.co = false ∧ s.events = [] ∧ nmiNow s = false ∧ s.standby = false ∧
      s.pendingErrors = [] ∧ ∃ t, step s = .next t ∧ t.cp0.status = s.cp0.status) ∧
    (mode c = .user ∧ c.status.cu0 = false ∧ c.status.co = false ∧ c.events = [] ∧ nmiNow c = false ∧ c.standby = false ∧
      c.pendingErrors = [] ∧ ∃ t, step c = .next t ∧ t.pc = vectorBase c + 0x180) :=
  ⟨⟨by decide, rfl, rfl, rfl, by decide, rfl, rfl, _, rfl, rfl⟩, by decide, rfl, rfl, rfl, by decide, rfl, rfl, _, rfl, by decide⟩

/-- For `DisabledInstructionsAreReserved`: one instruction of each class. -/
theorem witness_disabled :
    is64 user32 = false ∧ isMips3 (.dadd 1 2 3) = true ∧ (fpLongCase (.cvtLS 0 4) user32).isSome = true ∧
    isMips4 user32 = false ∧ isMips4Integer (.movn 1 2 3) = true ∧ opF (encode (.lwxc1 1 2 4)) = 19 := by decide

/-- For `UnusableCoprocessorsTrap`: a mode that allows everything but the units, and one that allows neither 64-bit operations
nor MIPS IV, for instructions that need neither. -/
theorem witness_unusable :
    (let s := withStatus 0x80000030 start
     is64 s = true ∧ isMips4 s = true ∧ cp0Usable s = false ∧ s.cp0.status.cu1 = false ∧ isCop0 (.dmfc0 1 2) = true ∧
      isCop1 (.dmfc1 1 2) = true ∧ isCop1 (.movf 1 0 2) = true) ∧
    (let s := withStatus 0x10 start
     is64 s = false ∧ isMips4 s = false ∧ cp0Usable s = false ∧ s.cp0.status.cu1 = false ∧ isCop0 .eret = true ∧
      isCop1 (.addS 2 0 4) = true ∧ (fpLongCase (.addS 2 0 4) s).isNone = true ∧ opF (encode (.addS 2 0 4)) = 17) := by decide

/-- For the registers of `ExceptionsFollowTheGeneralSequence`: both precise bus errors, a watch, and neither. -/
theorem witness_exceptionRegisters :
    (Exc.ibe 0 = .ibe 0 ∧ Exc.dbe 0xFFFFFFFFF = .dbe 0xFFFFFFFFF) ∧ (∀ pa, Exc.sys ≠ .ibe pa ∧ Exc.sys ≠ .dbe pa) ∧
    (∀ pa, Exc.iwe true false ≠ .ibe pa ∧ Exc.iwe true false ≠ .dbe pa) ∧
    (∀ w1 w2, Exc.sys ≠ .iwe w1 w2 ∧ Exc.sys ≠ .dwe w1 w2) :=
  ⟨⟨rfl, rfl⟩, fun _ => ⟨fun h => (nomatch h), fun h => (nomatch h)⟩, fun _ => ⟨fun h => (nomatch h), fun h => (nomatch h)⟩,
    fun _ _ => ⟨fun h => (nomatch h), fun h => (nomatch h)⟩⟩

/-- For `FaultAddressRegisters`: each kind of exception. -/
theorem witness_faultAddress :
    (Exc.tlbMod 0x5008 = .tlbMod 0x5008) ∧ (∃ st x, Exc.tlbRefill true false 0xFFFFFFFFFFFFFFFF = .tlbRefill st x 0xFFFFFFFFFFFFFFFF) ∧
    (∃ st, Exc.tlbInvalid false 0 = .tlbInvalid st 0) ∧ (∀ va, Exc.sys ≠ .tlbMod va) ∧
    (∀ st x va, Exc.sys ≠ .tlbRefill st x va) ∧ (∀ st va, Exc.sys ≠ .tlbInvalid st va) ∧ (∀ st va, Exc.sys ≠ .adE st va) :=
  ⟨rfl, ⟨_, _, rfl⟩, ⟨_, rfl⟩, fun _ h => (nomatch h), fun _ _ _ h => (nomatch h), fun _ _ h => (nomatch h),
    fun _ _ h => (nomatch h)⟩

/-- An imprecise error. -/
def failing (bus second : Bool) : ImpreciseError :=
  { bus := bus, bits := { ed := true, et := false, ee := false, eb := true, ei := false }, addr := 0xF12345678, second := second
    dest := .gpr 3 }
/-- An error is pending. -/
def pending (bus second : Bool) (s : State) : State := { s with pendingErrors := [failing bus second] }

/-- For `CacheErrorEntry`: a cached fetch, an uncached one and one with `DE` = 1; a pending bus error, and a parity error with
`DE` = 0 and with `DE` = 1, in either address register. -/
theorem witness_cacheError :
    (start.pc.toNat % 4 = 0 ∧ Machine.translate .fetch start.pc start = .ok (0x1000, 3) ∧ start.cp0.status.de = false ∧
      uncached 3 = false) ∧
    (let s := { start with pc := 0xFFFFFFFFA0001000 }
     s.pc.toNat % 4 = 0 ∧ Machine.translate .fetch s.pc s = .ok (0x1000, 2) ∧ s.cp0.status.de = false ∧ uncached 2 = true ∧
      uncached 6 = true) ∧ (withStatus 0x10000 start).cp0.status.de = true ∧
    (let s := pending true false start
     s.pendingErrors = [failing true false] ∧ s.events = [] ∧ nmiNow s = false ∧ s.standby = false ∧
      (failing true false).second = false ∧ (failing true false).bus = true ∧ (failing true false).dest ≠ .gpr 4) ∧
    (let s := pending false true start
     s.pendingErrors = [failing false true] ∧ s.events = [] ∧ nmiNow s = false ∧ s.standby = false ∧
      (failing false true).second = true ∧ (failing false true).bus = false ∧ s.cp0.status.de = false) ∧
    (let s := pending false true (withStatus 0x10000 start)
     s.pendingErrors = [failing false true] ∧ s.events = [] ∧ nmiNow s = false ∧ s.standby = false ∧
      s.cp0.status.de = true) :=
  ⟨⟨by decide, rfl, by decide, by decide⟩, ⟨by decide, rfl, by decide, by decide, by decide⟩, by decide, by decide, by decide,
    by decide⟩
/-- T18: an imprecise bus error is a data bus error, with the address in `DErrAddr0` (60_exceptions.md rule R812). -/
theorem test_imprecise_bus_error :
    view (fun t => (t.cp0.cause.excCode, t.cp0.dErrAddr0, t.cp0.ecc.ea0, t.cp0.cacheErr.e0, t.cp0.cacheErr.ec, t.pc))
      (step (pending true false start)) = some (7, 0x12345678, 0xF, true, true, 0xFFFFFFFF80000180) := by decide
/-- A pending parity error is taken with its fields (60_exceptions.md rules R810, R812). -/
theorem test_imprecise_parity_error :
    view (fun t => (t.cp0.dErrAddr1, t.cp0.cacheErr.e1, t.cp0.cacheErr.ed, t.cp0.cacheErr.eb, t.cp0.status.erl, t.pc))
      (step (pending false true start)) = some (0x12345678, true, true, true, true, 0xFFFFFFFFA0000100) := by decide

/-- For `EretReturns`: usable outside and inside a slot, `ERL` set and clear, not usable. -/
theorem witness_eret :
    (cp0Usable start = true ∧ start.inDelaySlot = false ∧ start.cp0.status.erl = false) ∧
    State.reset.cp0.status.erl = true ∧
    (let s := { start with inDelaySlot := true }
     cp0Usable s = true ∧ s.inDelaySlot = true) ∧ cp0Usable user = false := by decide

/-- A state with an enabled interrupt. -/
def interrupted (iv : Bool) (vs : BitVec 5) : State :=
  withStatus 0x401 { start with
    intPin := 1, cp0 := { start.cp0 with cause := { start.cp0.cause with iv := iv }, intControl := { start.cp0.intControl with vs := vs } } }

/-- For `InterruptEntry`: the common vector, the dedicated one at the least and the largest spacing, a reserved spacing. -/
theorem witness_interrupt :
    (let s := interrupted false 0
     s.events = [] ∧ nmiNow s = false ∧ s.standby = false ∧ s.pendingErrors = [] ∧ intRequest s = true ∧
      s.cp0.cause.iv = false) ∧
    (let s := interrupted true 0
     intRequest s = true ∧ s.cp0.cause.iv = true ∧ vectorSpacing s.cp0.intControl.vs = some 0) ∧
    (let s := interrupted true 0x10
     intRequest s = true ∧ vectorSpacing s.cp0.intControl.vs = some 0x200) ∧
    (let s := interrupted true 3
     intRequest s = true ∧ s.cp0.cause.iv = true ∧ vectorSpacing s.cp0.intControl.vs = none) := by decide

/-- For `StandbyEndsOnInterrupt`: nothing pending, a masked source, an enabled interrupt, an external request of each kind. -/
theorem witness_standby :
    cp0Usable start = true ∧
    (let s := { start with standby := true }
     s.events = [] ∧ nmiNow s = false ∧ s.standby = true ∧ intRequest s = false ∧
      ((List.range 14).all fun n => decide (n < 2) || !intSource s n) = true) ∧
    (let s := { start with standby := true, intPin := 1 }
     intRequest s = false ∧ intSource s 2 = true) ∧
    (let s := { interrupted false 0 with standby := true }
     intRequest s = true ∧ s.cp0.cause.iv = false) ∧
    (let s := { start with standby := true }
     (withEvent .nullRequest s).events = [.nullRequest] ∧ (withEvent .nullRequest s).standby = true ∧
      nmiNow (applyEvent .nullRequest s) = false ∧ intRequest (applyEvent .nullRequest s) = false ∧
      nmiNow (applyEvent (.externalWrite 0 0x00010001) s) = false ∧
      intRequest (applyEvent (.externalWrite 0 0x00010001) s) = false) := by decide

/-- For `UnmappedSegments`: the modes; the first and last address of each segment lies in its bounds. -/
theorem witness_unmapped :
    (mode start = .kernel ∧ (0xFFFFFFFF80000000 : Dword).toNat < 0xFFFFFFFFA0000000 ∧
      0xFFFFFFFF80000000 ≤ (0xFFFFFFFF9FFFFFFF : Dword).toNat) ∧
    (0xFFFFFFFFA0000000 ≤ (0xFFFFFFFFA0000000 : Dword).toNat ∧ (0xFFFFFFFFBFFFFFFF : Dword).toNat < 0xFFFFFFFFC0000000) ∧
    (State.reset.cp0.status.erl = true ∧ (0x7FFFFFFF : Dword).toNat < 2 ^ 31) ∧
    (let s := withStatus 0x80 start
     let va : Dword := 0x9800000FFFFFFFFF
     mode s = .kernel ∧ s.cp0.status.kx = true ∧ va.toNat / 2 ^ 62 = 2 ∧ va.toNat / 2 ^ 36 % 2 ^ 23 = 0 ∧
      va.toNat / 2 ^ 59 % 8 ≠ 4 ∧ va.toNat / 2 ^ 59 % 8 ≠ 5) ∧
    (let va : Dword := 0xA80000000FFFFFFF
     va.toNat / 2 ^ 62 = 2 ∧ va.toNat / 2 ^ 36 % 2 ^ 23 = 0 ∧ va.toNat / 2 ^ 59 % 8 = 5) := by decide

/-- For `ForbiddenSegmentsRaiseAddressError`: the first address of each forbidden range, in its mode. -/
theorem witness_forbidden :
    (mode user = .user ∧ user.cp0.status.ux = true ∧ 2 ^ 40 ≤ (0x10000000000 : Dword).toNat) ∧
    (mode user32 = .user ∧ user32.cp0.status.ux = false ∧ 2 ^ 31 ≤ (0x80000000 : Dword).toNat) ∧
    (mode (withStatus 8 start) = .supervisor ∧ 2 ^ 63 ≤ (0x8000000000000000 : Dword).toNat ∧
      (0xFFFFFFFFBFFFFFFF : Dword).toNat < 0xFFFFFFFFC0000000 ∧ 0xFFFFFFFFE0000000 ≤ (0xFFFFFFFFE0000000 : Dword).toNat) ∧
    (mode start = .kernel ∧ start.cp0.status.kx = false ∧ (0xFFFFFFFF7FFFFFFF : Dword).toNat < 0xFFFFFFFF80000000) ∧
    (2 ^ 40 ≤ (0x3FFFFFFFFFFFFFFF : Dword).toNat ∧ (0x3FFFFFFFFFFFFFFF : Dword).toNat < 2 ^ 62) ∧
    (mode (withStatus 8 start) = .supervisor ∧ (withStatus 8 start).cp0.status.sx = false ∧
      (withStatus 8 start).cp0.status.ux = false ∧ 2 ^ 62 ≤ (0x4000000000000000 : Dword).toNat ∧
      (0x7FFFFFFFFFFFFFFF : Dword).toNat < 2 ^ 63 ∧ 2 ^ 31 ≤ (0x80000000 : Dword).toNat ∧ (0x80000000 : Dword).toNat < 2 ^ 62) ∧
    2 ^ 62 + 2 ^ 40 ≤ (0x4000010000000000 : Dword).toNat ∧
    ((0x8000001000000000 : Dword).toNat / 2 ^ 62 = 2 ∧ (0x8000001000000000 : Dword).toNat / 2 ^ 36 % 2 ^ 23 ≠ 0) ∧
    (3 * 2 ^ 62 + (2 ^ 40 - 2 ^ 31) ≤ (0xC00000FF80000000 : Dword).toNat ∧
      (0xC00000FF80000000 : Dword).toNat < 0xFFFFFFFF80000000) := by decide

/-- An entry matches an address, as `MappedAddressesTranslateThroughTheJtlb` says it. -/
def Hit (s : State) (va : Dword) (i : Nat) (e : TlbEntry) : Prop :=
  i < tlbSize s ∧ s.tlb[i]? = some e ∧ e.r.toNat = va.toNat / 2 ^ 62 ∧ (e.g = true ∨ e.asid = s.cp0.entryHi.asid) ∧
    ∀ b, b < 27 → e.mask.getLsbD b = false → e.vpn2.getLsbD b = va.getLsbD (13 + b)
/-- The entries that match are among those that pass a test. -/
theorem hit_only (s : State) (va : Dword) (P : Nat → Prop)
    (h : ∀ i, i < tlbSize s → ∀ e ∈ s.tlb[i]?, (e.r.toNat = va.toNat / 2 ^ 62 ∧
      (e.g = true ∨ e.asid = s.cp0.entryHi.asid) ∧
      ∀ b, b < 27 → e.mask.getLsbD b = false → e.vpn2.getLsbD b = va.getLsbD (13 + b)) → P i)
    (i : Nat) (e : TlbEntry) (hit : Hit s va i e) : P i := h i hit.1 e hit.2.1 hit.2.2

/-- Kernel mode with an entry for the pages at 0x4000 and 0x5000. -/
def mapped (e : TlbEntry) : State := tlbSet 5 e start

/-- For `MappedAddressesTranslateThroughTheJtlb`: legal masks; the last byte of the odd page matches entry 5 only (valid and
writable); the next byte matches none. -/
theorem witness_mapped :
    let s := mapped (page goodPage goodPage)
    Machine.segment s 0x5FFF = .mapped ∧
    (∀ i, i < tlbSize s → ∀ e, s.tlb[i]? = some e → legalMask e.mask = true) ∧
    Hit s 0x5FFF 5 (page goodPage goodPage) ∧ (∀ j e, Hit s 0x5FFF j e → j = 5) ∧ (∀ j e, ¬Hit s 0x6000 j e) := by
  refine ⟨rfl, ?_, ⟨by decide, rfl, by decide, by decide, by decide⟩, hit_only _ _ _ (by decide), hit_only _ _ _ (by decide)⟩
  intro i hi e he
  have h : ∀ i, i < 48 → ∀ e ∈ (mapped (page goodPage goodPage)).tlb[i]?, legalMask e.mask = true := by decide
  exact h i hi e he

/-- For the clauses on pages that are not valid or not writable. -/
theorem witness_mapped_pages :
    let s := mapped (page { goodPage with v := false } { goodPage with d := false })
    (∀ j e, Hit s 0x4000 j e → j = 5) ∧ (∀ j e, Hit s 0x5000 j e → j = 5) ∧
    Hit s 0x4000 5 (page { goodPage with v := false } { goodPage with d := false }) := by
  refine ⟨hit_only _ _ _ (by decide), hit_only _ _ _ (by decide), ⟨by decide, rfl, by decide, by decide, by decide⟩⟩

/-- For the clause on two matching entries. -/
theorem witness_mapped_twice :
    let s := tlbSet 6 (page goodPage goodPage) (mapped (page goodPage goodPage))
    Hit s 0x4000 5 (page goodPage goodPage) ∧ Hit s 0x4000 6 (page goodPage goodPage) :=
  ⟨⟨by decide, rfl, by decide, by decide, by decide⟩, ⟨by decide, rfl, by decide, by decide, by decide⟩⟩

/-! ### Integer computation -/

/-- Two operands. -/
def ops (x y : Dword) : State := regs [(1, x), (2, y)] start

/-- For `WordAddSubtract` and the other statements on words: the least and the greatest word, and what lies outside. -/
theorem witness_words :
    IsWord (ops 0xFFFFFFFF80000000 0x7FFFFFFF) 1 ∧ IsWord (ops 0xFFFFFFFF80000000 0x7FFFFFFF) 2 ∧
    ¬IsWord (ops 0x80000000 0) 1 := by unfold IsWord; decide

/-- For `TrappingWordAddSubtract`: sums that just fit and just do not; an operand that is no word. -/
theorem witness_wordOverflow :
    (let s := ops 0x7FFFFFFE 1
     IsWord s 1 ∧ IsWord s 2 ∧ sval s 1 + sval s 2 < 2 ^ 31 ∧ -(2 ^ 31) ≤ sval s 1 + sval s 2) ∧
    (let s := ops 0x7FFFFFFF 1
     IsWord s 1 ∧ IsWord s 2 ∧ ¬(-(2 ^ 31) ≤ sval s 1 + sval s 2 ∧ sval s 1 + sval s 2 < 2 ^ 31)) ∧
    ¬(IsWord (ops 0x80000000 1) 1 ∧ IsWord (ops 0x80000000 1) 2) := by unfold IsWord; decide

/-- For `DoublewordAddSubtract`: 64-bit operations enabled and not; sums that just fit and just do not. -/
theorem witness_doublewordOverflow :
    is64 start = true ∧ is64 user32 = false ∧
    (let s := ops 0x7FFFFFFFFFFFFFFE 1
     sval s 1 + sval s 2 < 2 ^ 63 ∧ -(2 ^ 63) ≤ sval s 1 + sval s 2) ∧
    (let s := ops 0x7FFFFFFFFFFFFFFF 1
     ¬(-(2 ^ 63) ≤ sval s 1 + sval s 2 ∧ sval s 1 + sval s 2 < 2 ^ 63)) := by decide

/-- For `DoublewordShifts` and `Multiplies`: 64-bit operations enabled and not; words. -/
theorem witness_shifts : is64 (ops 1 63) = true ∧ is64 user32 = false ∧ uval (ops 1 63) 2 % 64 = 63 ∧
    IsWord (ops 1 63) 1 ∧ IsWord (ops 1 63) 2 := by unfold IsWord; decide

/-- For `Divides`: operands of each form with a defined quotient, next to the ones without. -/
theorem witness_divides :
    (let s := ops 0xFFFFFFFF80000000 1
     IsWord s 1 ∧ IsWord s 2 ∧ sval s 2 ≠ 0 ∧ ¬(sval s 1 = -(2 ^ 31) ∧ sval s 2 = -1) ∧ lowval s 2 ≠ 0) ∧
    (let s := ops 0x8000000000000000 1
     is64 s = true ∧ sval s 2 ≠ 0 ∧ ¬(sval s 1 = -(2 ^ 63) ∧ sval s 2 = -1) ∧ uval s 2 ≠ 0) := by unfold IsWord; decide

/-! ### Jumps and branches -/

/-- For `Jumps`, `ConditionalBranches`, `LikelyBranches`: outside a slot, with each outcome of each condition. -/
theorem witness_branches :
    start.inDelaySlot = false ∧ uval (ops 4 4) 1 = uval (ops 4 4) 2 ∧ uval (ops 4 5) 1 ≠ uval (ops 4 5) 2 ∧
    sval (ops 0 0) 1 ≤ 0 ∧ 0 < sval (ops 1 0) 1 ∧ sval (ops 0xFFFFFFFFFFFFFFFF 0) 1 < 0 ∧ 0 ≤ sval (ops 0 0) 1 := by decide

/-- For `BranchInDelaySlotStops`. -/
theorem witness_branchInSlot :
    let s := { fpOn with inDelaySlot := true }
    s.inDelaySlot = true ∧ s.cp0.status.cu1 = true ∧ isMips4 s = true := by decide

/-! ### Memory -/

/-- For `AlignedLoads` and `AlignedStores` through the explicit data cache: a hit and a miss on the last bytes of a line, with
a write-back and a write-through attribute. -/
theorem witness_cachedAccess :
    let through (k0 : BitVec 3) (s : State) : State := { s with cp0 := { s.cp0 with config := { s.cp0.config with k0 := k0 } } }
    (let s := caching (lineD 3 false false) (lineI 0) (lineS 0) lineT (based 0xFFFFFFFF8000101C)
     AccessCached .load 4 (effAddr s 1 0) s 0x101C 3 ∧ AccessCached .store 4 (effAddr s 1 0) s 0x101C 3 ∧
      lookupD s 0x101C = .ok (some 0)) ∧
    (let s := caching (lineD 3 false false) (lineI 0) (lineS 0) lineT (through 0 (based 0xFFFFFFFF8000101C))
     AccessCached .store 4 (effAddr s 1 0) s 0x101C 0 ∧ lookupD s 0x101C = .ok (some 0) ∧ regionKind s 0x101C ≠ .device) ∧
    (let s := cold (through 7 (based 0xFFFFFFFF80001018))
     AccessCached .load 8 (effAddr s 1 0) s 0x1018 7 ∧ AccessCached .store 8 (effAddr s 1 0) s 0x1018 7 ∧
      MissesCleanly s 0x1018 7) ∧
    (let s := cold (through 1 (based 0xFFFFFFFF80001018))
     AccessCached .store 8 (effAddr s 1 0) s 0x1018 1 ∧ MissesCleanly s 0x1018 1) ∧
    (let s := cold (through 0 (based 0xFFFFFFFF80001018))
     AccessCached .store 8 (effAddr s 1 0) s 0x1018 0 ∧ lookupD s 0x1018 = .ok none ∧ regionKind s 0x1018 = .ram) :=
  ⟨⟨⟨⟨rfl, by decide, by decide⟩, rfl, by decide⟩, ⟨⟨rfl, by decide, by decide⟩, rfl, by decide⟩, rfl⟩,
    ⟨⟨⟨rfl, by decide, by decide⟩, rfl, by decide⟩, rfl, by decide⟩,
    ⟨⟨⟨rfl, by decide, by decide⟩, rfl, by decide⟩, ⟨⟨rfl, by decide, by decide⟩, rfl, by decide⟩,
      rfl, .inr (.inr (.inl rfl)), .inl (by decide), by unfold CleanWays; decide⟩,
    ⟨⟨⟨rfl, by decide, by decide⟩, rfl, by decide⟩, rfl, .inr (.inl rfl), .inl (by decide), by unfold CleanWays; decide⟩,
    ⟨⟨rfl, by decide, by decide⟩, rfl, by decide⟩, rfl, by decide⟩

/-- For `AlignedLoads`: each width at the highest aligned address of `kseg0`. -/
theorem witness_loads :
    Direct start 3 ∧ is64 start = true ∧
    LoadReaches 1 (effAddr (based 0xFFFFFFFF9FFFFFFF) 1 0) (based 0xFFFFFFFF9FFFFFFF) 0x1FFFFFFF 3 ∧
    LoadReaches 2 (effAddr (based 0xFFFFFFFF9FFFFFFE) 1 0) (based 0xFFFFFFFF9FFFFFFE) 0x1FFFFFFE 3 ∧
    LoadReaches 4 (effAddr (based 0xFFFFFFFF9FFFFFFC) 1 0) (based 0xFFFFFFFF9FFFFFFC) 0x1FFFFFFC 3 ∧
    LoadReaches 8 (effAddr (based 0xFFFFFFFF9FFFFFF8) 1 0) (based 0xFFFFFFFF9FFFFFF8) 0x1FFFFFF8 3 :=
  ⟨.inl rfl, by decide, ⟨rfl, .inl (by decide), by decide⟩, ⟨rfl, .inl (by decide), by decide⟩,
    ⟨rfl, .inl (by decide), by decide⟩, ⟨rfl, .inl (by decide), by decide⟩⟩

/-- For `AlignedStores`: each width at the lowest address of `kseg0`; outside RAM; memory in its form. -/
theorem witness_stores :
    StoreReaches 1 (effAddr (based 0xFFFFFFFF80000000) 1 0) (based 0xFFFFFFFF80000000) 0 3 ∧
    StoreReaches 2 (effAddr (based 0xFFFFFFFF80000000) 1 0) (based 0xFFFFFFFF80000000) 0 3 ∧
    StoreReaches 4 (effAddr (based 0xFFFFFFFF80000000) 1 0) (based 0xFFFFFFFF80000000) 0 3 ∧
    StoreReaches 8 (effAddr (based 0xFFFFFFFF80000000) 1 0) (based 0xFFFFFFFF80000000) 0 3 ∧
    regionKind (based 0xFFFFFFFF80000000) 0 = .ram ∧ Memory.wf start.mem = true ∧
    (let s := board (based 0xFFFFFFFF80011000)
     StoreReaches 4 (effAddr s 1 0) s 0x11000 3 ∧ regionKind s 0x11000 ≠ .ram) :=
  ⟨⟨rfl, by decide, by decide⟩, ⟨rfl, by decide, by decide⟩, ⟨rfl, by decide, by decide⟩, ⟨rfl, by decide, by decide⟩,
    by decide, by decide, ⟨rfl, by decide, by decide⟩, by decide⟩

/-- For `UnalignedLoads` and `UnalignedStores`: the last byte of a word and of a doubleword, in both byte orders. -/
theorem witness_unaligned :
    let b := based 0xFFFFFFFF80001007
    let l := little (based 0xFFFFFFFF80001007)
    let va : Dword := 0xFFFFFFFF80001007
    effAddr b 1 0 = va ∧ bigEndianCpu b = true ∧ bigEndianCpu l = false ∧ is64 b = true ∧
    (leftFirst true 4 va 0x1007 = 0x1007 ∧ leftBytes true 4 va = 1 ∧ LoadsPart va 0x1007 1 b 0x1007 3 ∧
      StoresPart va 0x1007 1 b 0x1007 3) ∧
    (rightFirst true 8 va 0x1007 = 0x1000 ∧ rightBytes true 8 va = 8 ∧ LoadsPart va 0x1000 8 b 0x1007 3 ∧
      StoresPart va 0x1000 8 b 0x1007 3) ∧
    (leftFirst false 8 va 0x1007 = 0x1000 ∧ leftBytes false 8 va = 8 ∧ LoadsPart va 0x1000 8 l 0x1007 3 ∧
      StoresPart va 0x1000 8 l 0x1007 3) ∧
    (rightFirst false 4 va 0x1007 = 0x1007 ∧ rightBytes false 4 va = 1 ∧ LoadsPart va 0x1007 1 l 0x1007 3 ∧
      StoresPart va 0x1007 1 l 0x1007 3) :=
  ⟨rfl, by decide, by decide, by decide,
    ⟨by decide, by decide, ⟨rfl, .inl (by decide), by decide⟩, ⟨rfl, by decide, by decide⟩⟩,
    ⟨by decide, by decide, ⟨rfl, .inl (by decide), by decide⟩, ⟨rfl, by decide, by decide⟩⟩,
    ⟨by decide, by decide, ⟨rfl, .inl (by decide), by decide⟩, ⟨rfl, by decide, by decide⟩⟩,
    ⟨by decide, by decide, ⟨rfl, .inl (by decide), by decide⟩, ⟨rfl, by decide, by decide⟩⟩⟩

/-- For the explicit caches in `UnalignedLoads` and `UnalignedStores`: one byte and eight bytes of a unit, on a hit and on
a clean miss with each attribute. -/
theorem witness_unalignedCached :
    let through (k0 : BitVec 3) (s : State) : State := { s with cp0 := { s.cp0 with config := { s.cp0.config with k0 := k0 } } }
    let va : Dword := 0xFFFFFFFF80001007
    (let s := caching (lineD 3 false false) (lineI 0) (lineS 0) lineT (based va)
     lookupD s 0x1007 = .ok (some 0) ∧ lookupD s 0x1000 = .ok (some 0) ∧
      PartCached .load va 0x1007 1 s 0x1007 3 ∧ PartCached .load va 0x1000 8 s 0x1007 3 ∧
      PartCached .store va 0x1007 1 s 0x1007 3 ∧ PartCached .store va 0x1000 8 s 0x1007 3) ∧
    (let s := cold (through 7 (based va))
     PartCached .load va 0x1000 8 s 0x1007 7 ∧ PartCached .store va 0x1000 8 s 0x1007 7 ∧ MissesCleanly s 0x1000 7) ∧
    (let s := cold (through 1 (based va)); PartCached .store va 0x1007 1 s 0x1007 1 ∧ MissesCleanly s 0x1007 1) ∧
    (let s := cold (through 0 (based va))
     PartCached .store va 0x1007 1 s 0x1007 0 ∧ lookupD s 0x1007 = .ok none ∧ regionKind s 0x1007 = .ram) :=
  ⟨⟨rfl, rfl, ⟨⟨rfl, by decide, by decide⟩, rfl, by decide⟩, ⟨⟨rfl, by decide, by decide⟩, rfl, by decide⟩,
      ⟨⟨rfl, by decide, by decide⟩, rfl, by decide⟩, ⟨⟨rfl, by decide, by decide⟩, rfl, by decide⟩⟩,
    ⟨⟨⟨rfl, by decide, by decide⟩, rfl, by decide⟩, ⟨⟨rfl, by decide, by decide⟩, rfl, by decide⟩,
      rfl, .inr (.inr (.inl rfl)), .inl (by decide), by unfold CleanWays; decide⟩,
    ⟨⟨⟨rfl, by decide, by decide⟩, rfl, by decide⟩, rfl, .inr (.inl rfl), .inl (by decide), by unfold CleanWays; decide⟩,
    ⟨⟨rfl, by decide, by decide⟩, rfl, by decide⟩, rfl, by decide⟩

/-- For `LinkedLoadsAndConditionalStores`: with and without the link. -/
theorem witness_linked :
    let s := based 0xFFFFFFFF80002340
    let k := { s with llBit := true }
    LoadReaches 4 (effAddr s 1 0) s 0x2340 3 ∧ LoadReaches 8 (effAddr s 1 0) s 0x2340 3 ∧ is64 s = true ∧
    (StoreReaches 4 (effAddr k 1 0) k 0x2340 3 ∧ StoreReaches 8 (effAddr k 1 0) k 0x2340 3 ∧ k.llBit = true) ∧
    (StoreReaches 4 (effAddr s 1 0) s 0x2340 3 ∧ StoreReaches 8 (effAddr s 1 0) s 0x2340 3 ∧ s.llBit = false) :=
  ⟨⟨rfl, .inl (by decide), by decide⟩, ⟨rfl, .inl (by decide), by decide⟩, by decide,
    ⟨⟨rfl, by decide, by decide⟩, ⟨rfl, by decide, by decide⟩, rfl⟩, ⟨rfl, by decide, by decide⟩, ⟨rfl, by decide, by decide⟩, rfl⟩

/-- A Watch register that matches loads and stores at 0x1000. -/
def watched (s : State) : State :=
  { s with cp0 := { s.cp0 with watch1 := { st := true, ld := true, ifetch := false, pa := 0x400 } } }

/-- For the explicit caches in `LinkedLoadsAndConditionalStores` and `FpLoadsAndStores`: a hit and a clean miss, the link
held and broken. -/
theorem witness_linkedCached :
    let hit := caching (lineD 3 false false) (lineI 0) (lineS 0) lineT (regs [(1, 0xFFFFFFFF80001018)] fpOn)
    let miss := cold (bypass (regs [(1, 0xFFFFFFFF80001018)] fpOn))
    (lookupD hit 0x1018 = .ok (some 0) ∧ is64 hit = true ∧ hit.cp0.status.cu1 = true ∧ hit.llBit = false ∧
      AccessCached .load 4 (effAddr hit 1 0) hit 0x1018 3 ∧ AccessCached .load 8 (effAddr hit 1 0) hit 0x1018 3 ∧
      AccessCached .store 4 (effAddr hit 1 0) hit 0x1018 3 ∧ AccessCached .store 8 (effAddr hit 1 0) hit 0x1018 3) ∧
    (let s := { hit with llBit := true }
     lookupD s 0x1018 = .ok (some 0) ∧ s.llBit = true ∧ AccessCached .store 4 (effAddr s 1 0) s 0x1018 3) ∧
    (MissesCleanly miss 0x1018 7 ∧ miss.cp0.status.cu1 = true ∧ EvenRegs miss [31] ∧
      AccessCached .load 4 (effAddr miss 1 0) miss 0x1018 7 ∧ AccessCached .load 8 (effAddr miss 1 0) miss 0x1018 7) :=
  ⟨⟨rfl, rfl, rfl, rfl, ⟨⟨rfl, by decide, by decide⟩, rfl, by decide⟩, ⟨⟨rfl, by decide, by decide⟩, rfl, by decide⟩,
      ⟨⟨rfl, by decide, by decide⟩, rfl, by decide⟩, ⟨⟨rfl, by decide, by decide⟩, rfl, by decide⟩⟩,
    ⟨rfl, rfl, ⟨rfl, by decide, by decide⟩, rfl, by decide⟩,
    ⟨⟨rfl, .inr (.inr (.inl rfl)), .inl (by decide), by unfold CleanWays; decide⟩, rfl, .inl rfl,
      ⟨⟨rfl, by decide, by decide⟩, rfl, by decide⟩, ⟨rfl, by decide, by decide⟩, rfl, by decide⟩⟩

/-- For the first clause of `AccessesThatTrap`: the least and the greatest accesses inside a doubleword, and the example of
60_exceptions.md rule R854: with `Watch1` on 0x1000 and `PA[7:2]` masked, loads from 0x1000 to 0x10FF match, other
addresses and stores do not; an access of two words matches by its second. -/
theorem witness_watch :
    ((0xFFFFFFFFF : PAddr).toNat % 8 + 1 ≤ 8 ∧ (0xFFFFFFFF8 : PAddr).toNat % 8 + 8 ≤ 8) ∧
    (let s : State := { start with cp0 := { start.cp0 with
        watch1 := Watch.ofDword 0x4000000000001000, watchMask := { mask := 0x3F, w2 := false, w1 := true } } }
     watchMatch s .load 0x1000 1 = (true, false) ∧ watchMatch s .load 0x10FF 1 = (true, false) ∧
      watchMatch s .load 0x1100 1 = (false, false) ∧ watchMatch s .load 0x100001000 1 = (false, false) ∧
      watchMatch s .store 0x1000 4 = (false, false)) ∧
    (let s : State := { start with cp0 := { start.cp0 with watch2 := Watch.ofDword 0x8000000000001004 } }
     watchMatch s .store 0x1000 8 = (false, true) ∧ watchMatch s .store 0x1000 4 = (false, false)) := by decide

/-- For `AccessesThatTrap`: an aligned, an unaligned, an indexed and a conditional form; misaligned, unmapped, two matching
entries, watched, a hole, a device; loads and stores. -/
theorem witness_traps :
    (loadForm start (.lw 1 2 0) = some (alignedAccess 4 (effAddr start 1 0) false True) ∧
      storeForm start (.sd 1 2 0) = some (alignedAccess 8 (effAddr start 1 0) false (is64 start = true)) ∧ is64 start = true ∧
      loadForm start (.lwl 1 2 0) = some (leftAccess start 4 (effAddr start 1 0) True) ∧
      storeForm start (.sc 1 2 0) = some (alignedAccess 4 (effAddr start 1 0) true True) ∧
      IndexedReady fpOn 1 2 ∧ EvenRegs fpOn [5]) ∧
    (effAddr (based 0xFFFFFFFF80001003) 1 0).toNat % 4 ≠ 0 ∧
    (let s := based 0x6000
     (effAddr s 1 0).toNat % 4 = 0 ∧
      Machine.translate .load (effAddr s 1 0) s = .error (.exc (.tlbRefill false false 0x6000) s) ∧
      Machine.translate .store (effAddr s 1 0) s = .error (.exc (.tlbRefill true false 0x6000) s)) ∧
    (let s := tlbSet 6 (page goodPage goodPage) (tlbSet 5 (page goodPage goodPage) (based 0x4000))
     Machine.translate .load (effAddr s 1 0) s = .error (.fault .multipleTlbMatch) ∧
      Machine.translate .store (effAddr s 1 0) s = .error (.fault .multipleTlbMatch)) ∧
    (let s := watched (based 0xFFFFFFFF80001000)
     Machine.translate .load (effAddr s 1 0) s = .ok (0x1000, 3) ∧ watchMatch s .load 0x1000 4 = (true, false) ∧
      Machine.translate .store (effAddr s 1 0) s = .ok (0x1000, 3) ∧ watchMatch s .store 0x1000 8 = (true, false)) ∧
    (let s := board (based 0xFFFFFFFF80012003)
     let a := leftAccess s 4 (effAddr s 1 0) True
     Machine.translate .load (effAddr s 1 0) s = .ok (0x12003, 3) ∧ watchMatch s .load (a.first 0x12003) a.count = (false, false) ∧
      regionKind s (a.first 0x12003) = .hole) ∧
    (let s := { board (based 0xFFFFFFFF80010FF8) with llBit := true }
     Machine.translate .load (effAddr s 1 0) s = .ok (0x10FF8, 3) ∧ regionKind s 0x10FF8 = .device ∧
      Machine.translate .store (effAddr s 1 0) s = .ok (0x10FF8, 3) ∧ watchMatch s .store 0x10FF8 8 = (false, false) ∧
      s.llBit = true) :=
  ⟨⟨rfl, rfl, by decide, rfl, rfl, ⟨by decide, by decide, by decide⟩, .inl (by decide)⟩, by decide, ⟨by decide, rfl, rfl⟩, ⟨rfl, rfl⟩,
    ⟨rfl, by decide, rfl, by decide⟩, ⟨rfl, by decide, by decide⟩, rfl, by decide, rfl, by decide, rfl⟩

/-- For `ConditionalMovesAndPrefetch`: the conditions; an address in another region than its base, one that does not
translate, and ones that do, with each kind of attribute. -/
theorem witness_prefetch :
    isMips4 fpOn = true ∧ fpOn.cp0.status.cu1 = true ∧ uval (ops 0 7) 2 ≠ 0 ∧ uval (ops 7 0) 2 = 0 ∧
    (let s := based 0x3FFFFFFFFFFFFFFF
     (effAddr s 1 1).toNat / 2 ^ 62 ≠ uval s 1 / 2 ^ 62) ∧
    (let s := based 0x6000
     (effAddr s 1 0).toNat / 2 ^ 62 = uval s 1 / 2 ^ 62 ∧
      Machine.translate .load (effAddr s 1 0) s = .error (.exc (.tlbRefill false false 0x6000) s)) ∧
    (let s := based 0xFFFFFFFF80001000
     Machine.translate .load (effAddr s 1 0) s = .ok (0x1000, 3) ∧ Transparent s) ∧
    Machine.translate .load 0xFFFFFFFFA0001000 start = .ok (0x1000, 2) ∧
    ({ start with params := { start.params with rev := 0x1F } } : State).params.rev.toNat < 0x20 ∧
    Memory.wf start.mem = true :=
  ⟨by decide, by decide, by decide, by decide, by decide, ⟨by decide, rfl⟩, ⟨rfl, rfl⟩, rfl, by decide, by decide⟩

/-- For the explicit clauses of `ConditionalMovesAndPrefetch`: a hit; misses over clean ways and over a modified one, with the
lower caches off and every way in RAM; a hole and a device behind a miss; a revision with and one without hint 30. -/
theorem witness_prefetchCached :
    (let s := caching (lineD 3 false false) (lineI 0) (lineS 0) lineT (based 0xFFFFFFFF80001000)
     ThroughCaches s 3 ∧ Machine.translate .load (effAddr s 1 0) s = .ok (0x1000, 3) ∧ lookupD s 0x1000 = .ok (some 0) ∧
      0x20 ≤ s.params.rev.toNat) ∧
    (let s := cold (based 0xFFFFFFFF80001000)
     MissesCleanly s 0x1000 3) ∧
    (let s := caching (lineD 3 true false) (lineI 0) (lineS 0) lineT (based 0xFFFFFFFF80002000)
     ThroughCaches s 3 ∧ lookupD s 0x2000 = .ok none ∧ secondaryOn s = false ∧ tertiaryOn s = false ∧
      Memory.wf s.mem = true ∧ (∀ k ∈ primaryWays 0x2000, regionKind s (dLineAddr (dLine s k) k) = .ram) ∧
      (dLine s 0).state = 3 ∧ (dLine s 0).w = true) ∧
    (let s := board (cold (based 0xFFFFFFFF80012000))
     lookupD s 0x12000 = .ok none ∧ FillsFromMemory s 3 ∧ regionKind s 0x12000 = .hole ∧ lookupD s 0x10000 = .ok none ∧
      regionKind s 0x10000 = .device) ∧
    ¬((30 : RegNum) = 30 ∧ 0x20 ≤ ({ start with params := { start.params with rev := 0x1F } } : State).params.rev.toNat) :=
  ⟨⟨⟨rfl, by decide, by decide⟩, rfl, rfl, by decide⟩,
    ⟨rfl, .inr (.inr (.inr ⟨rfl, by decide, by decide⟩)), .inl (by decide), by unfold CleanWays; decide⟩,
    ⟨⟨rfl, by decide, by decide⟩, rfl, by decide, by decide, by decide, by decide, by decide, by decide⟩,
    ⟨rfl, .inr (.inr (.inr ⟨rfl, by decide, by decide⟩)), by decide, rfl, by decide⟩, by decide⟩

/-- For `CoprocessorTwoIsAbsent` and `SystemCallsAndTraps`: both values of `CU2`, both outcomes of a trap condition. -/
theorem witness_coprocessorTwo :
    start.cp0.status.cu2 = false ∧ (withStatus 0x40000000 start).cp0.status.cu2 = true ∧
    sval (ops 5 5) 2 ≤ sval (ops 5 5) 1 ∧ ¬sval (ops 4 5) 2 ≤ sval (ops 4 5) 1 := by decide

/-! ### Coprocessor 0 -/

/-- For `Cp0Moves`: a register that exists and one that does not, in both sets; a wide register and one of 32 bits. -/
theorem witness_cp0Moves :
    cp0Usable start = true ∧ readCp0 start 15 = some 0x2720 ∧ readCp0 start 31 = none ∧ readCp0 start 21 = none ∧
    readCp0Control start 20 = some 0 ∧ readCp0Control start 17 = none ∧ is64 start = true ∧
    (14 : RegNum).toNat ∈ [2, 3, 4, 8, 10, 14, 18, 19, 20, 30] ∧ (12 : RegNum).toNat ∉ [2, 3, 4, 8, 10, 14, 18, 19, 20, 30] := by
  decide

/-- A state with values in `Index`, `Wired` and `EntryHi`. -/
def tlbRegs (i w : BitVec 6) (vpn2 : BitVec 27) (s : State) : State :=
  { s with cp0 := { s.cp0 with
      index := { p := false, index := i }, wired := w, random := 47, entryHi := { r := 0, vpn2 := vpn2, asid := 0 } } }

/-- For `TlbOperations`: the last entry and the first index beyond it, for `Index` and for `Wired`. -/
theorem witness_tlbIndex :
    cp0Usable start = true ∧
    (let s := tlbRegs 47 47 2 start
     s.cp0.index.index.toNat < tlbSize s ∧ s.cp0.wired.toNat < tlbSize s ∧
      s.tlb[s.cp0.index.index.toNat]? = some (TlbEntry.reset 47)) ∧
    (let s := tlbRegs 48 48 2 start
     tlbSize s ≤ s.cp0.index.index.toNat ∧ tlbSize s ≤ s.cp0.wired.toNat) := by decide

/-- The entries `TLBP` finds, as `TlbOperations` says it. -/
def Probe (s : State) (k : Nat) (e : TlbEntry) : Prop :=
  k < tlbSize s ∧ s.tlb[k]? = some e ∧ e.r = s.cp0.entryHi.r ∧ (e.g = true ∨ e.asid = s.cp0.entryHi.asid) ∧
    ∀ b, b < 27 → e.mask.getLsbD b = false → e.vpn2.getLsbD b = s.cp0.entryHi.vpn2.getLsbD b
/-- The entries a probe finds are among those that pass a test. -/
theorem probe_only (s : State) (P : Nat → Prop)
    (h : ∀ i, i < tlbSize s → ∀ e ∈ s.tlb[i]?, (e.r = s.cp0.entryHi.r ∧ (e.g = true ∨ e.asid = s.cp0.entryHi.asid) ∧
      ∀ b, b < 27 → e.mask.getLsbD b = false → e.vpn2.getLsbD b = s.cp0.entryHi.vpn2.getLsbD b) → P i)
    (i : Nat) (e : TlbEntry) (hit : Probe s i e) : P i := h i hit.1 e hit.2.1 hit.2.2

/-- For the clauses on `TLBP`: one match, none, two. -/
theorem witness_tlbProbe :
    let one := tlbSet 5 (page goodPage goodPage) start
    let two := tlbSet 6 (page goodPage goodPage) one
    Probe (tlbRegs 0 0 2 one) 5 (page goodPage goodPage) ∧ (∀ j e, Probe (tlbRegs 0 0 2 one) j e → j = 5) ∧
    (∀ j e, ¬Probe (tlbRegs 0 0 3 one) j e) ∧
    Probe (tlbRegs 0 0 2 two) 5 (page goodPage goodPage) ∧ Probe (tlbRegs 0 0 2 two) 6 (page goodPage goodPage) :=
  ⟨⟨by decide, rfl, by decide, by decide, by decide⟩, probe_only _ _ (by decide), probe_only _ _ (by decide),
    ⟨by decide, rfl, by decide, by decide, by decide⟩, ⟨by decide, rfl, by decide, by decide, by decide⟩⟩

/-! ### `CACHE` -/

/-- For the transparent clauses of `CacheOperations`: allowed by Kernel mode and by `CO`; all caches present; a page
address. -/
theorem witness_cache :
    (let s := based 0xFFFFFFFF80001000
     Transparent s ∧ CacheReaches false 1 0 s 0x1000 3 ∧ CacheReaches true 1 0 s 0x1000 3 ∧ Memory.wf s.mem = true ∧
      s.params.scPresent = true ∧ regionKind s 0x1000 = .ram ∧ (effAddr s 1 0).toNat % 4096 = 0) ∧
    (let s := { user with cp0 := { user.cp0 with status := { user.cp0.status with co := true } }
                          gpr := (regs [(1, 0x4FFF)] user).gpr }
     cp0Usable s = false ∧ CacheReaches true 1 0 s 0x200FFF 3) ∧
    ({ start with params := { start.params with tcPresent := true } } : State).params.tcPresent = true :=
  ⟨⟨rfl, ⟨.inl (by decide), rfl⟩, ⟨.inl (by decide), rfl⟩, by decide, rfl, by decide, by decide⟩,
    ⟨by decide, .inr ⟨rfl, by decide⟩, rfl⟩, rfl⟩

/-- For the explicit clauses of `CacheOperations`: hits on a clean and on a modified bypass line, misses, a secondary hit
without a line in the data cache, an index that selects each of these lines. -/
theorem witness_cacheExplicit :
    let base (s : State) : State := regs [(1, 0xFFFFFFFF80001000)] s
    (let s := base (caching (lineD 3 false false) (lineI 2) (lineS 0) lineT start)
     s.params.explicitCaches = true ∧ CacheReaches true 1 0 s 0x1000 3 ∧ CacheReaches false 1 0 s 0x1000 3 ∧
      lookupD s 0x1000 = .ok (some 0) ∧ (dLine s 0).w = false ∧ (dLine s 0).state ≠ 1 ∧ lookupI s 0x1000 = .ok (some 0) ∧
      lookupS s 0x1000 = none) ∧
    (let s := base (caching (lineD 3 true true) (lineI 2) (lineS 0) lineT start)
     lookupD s 0x1000 = .ok (some 0) ∧ (dLine s 0).w = true ∧ (dLine s 0).state = 3 ∧ (dLine s 0).b = true ∧
      dLineAddr (dLine s 0) 0 = 0x1000 ∧ regionKind s 0x1000 = .ram ∧ Memory.wf s.mem = true) ∧
    (let s := base (caching (lineD 0 false false) (lineI 0) (lineS 4) lineT (bypass start))
     CacheReaches false 1 0 s 0x1000 7 ∧ lookupD s 0x1000 = .ok none ∧ CleanWays s 0x1000 ∧ lookupI s 0x1000 = .ok none ∧
      regionKind s 0x1000 = .ram ∧ s.params.scPresent = true ∧ lookupS s 0x1000 = some 128 ∧ (sLine s 128).state = 4 ∧
      s.params.tcPresent = true ∧ (effAddr s 1 0).toNat % 4096 = 0) :=
  ⟨⟨rfl, ⟨.inl (by decide), rfl⟩, ⟨.inl (by decide), rfl⟩, rfl, rfl, by decide, rfl, rfl⟩,
    ⟨rfl, rfl, rfl, rfl, rfl, by decide, by decide⟩,
    ⟨.inl (by decide), rfl⟩, rfl, by unfold CleanWays; decide, rfl, by decide, rfl, rfl, rfl, rfl, by decide⟩

/-- For the secondary hits in `CacheOperations`: a clean and both dirty states, with no line, an unmodified line and a
modified line in the data cache, without and with the tertiary cache enabled. -/
theorem witness_cacheSecondary :
    let secondary (state : BitVec 3) (d : DLine) : State :=
      regs [(1, 0xFFFFFFFF80001000)] (caching d (lineI 0) (lineS state) lineT start)
    let tertiary (s : State) : State := { s with cp0 := { s.cp0 with config := { s.cp0.config with te := true } } }
    (∀ state ∈ [4, 5, 7], ∀ d ∈ [lineD 0 false false, lineD 3 false false, lineD 3 true false],
      lookupS (secondary state d) 0x1000 = some 128 ∧ (sLine (secondary state d) 128).state = state ∧
        sLineAddr (sLine (secondary state d) 128) 128 = 0x1000 ∧ tertiaryOn (secondary state d) = false ∧
        regionKind (secondary state d) 0x1000 = .ram ∧ Memory.wf (secondary state d).mem = true) ∧
    (lookupD (secondary 5 (lineD 0 false false)) 0x1000 = .ok none ∧
      lookupD (secondary 5 (lineD 3 true false)) 0x1000 = .ok (some 0)) ∧
    (modifiedLine (secondary 4 (lineD 3 false false)) (some 0) = none ∧
      modifiedLine (secondary 4 (lineD 3 true false)) (some 0) = some 0) ∧
    (let s := tertiary (secondary 7 (lineD 3 true false)); tertiaryOn s = true ∧ lookupT s 0x1000 = .ok (some 128)) :=
  ⟨by decide, ⟨rfl, rfl⟩, by decide, rfl, rfl⟩

/-- For `CacheOperationsThatStop`: no permission, with and without `CO`; a failed translation, in Kernel mode and with `CO`;
absent caches; an address inside a page. -/
theorem witness_cacheStops :
    (cp0Usable user = false ∧ user.cp0.status.co = false) ∧
    (let s := regs [(1, 0x6000)] { user with cp0 := { user.cp0 with status := { user.cp0.status with co := true } } }
     cp0Usable s = false ∧ s.cp0.status.co = true ∧
      Machine.translate .load (effAddr s 1 0) s = .error (.exc (.tlbRefill false true 0x6000) s)) ∧
    (let s := based 0x6000
     cp0Usable s = true ∧
      Machine.translate .load (effAddr s 1 0) s = .error (.exc (.tlbRefill false false 0x6000) s)) ∧
    (let s := { based 0xFFFFFFFF80001001 with params := { start.params with scPresent := false } }
     CacheReaches false 1 0 s 0x1001 3 ∧ s.params.scPresent = false ∧ s.params.tcPresent = false) ∧
    (let s := { based 0xFFFFFFFF80001001 with params := { start.params with tcPresent := true } }
     CacheReaches false 1 0 s 0x1001 3 ∧ s.params.tcPresent = true ∧ (effAddr s 1 0).toNat % 4096 ≠ 0) :=
  ⟨by decide, ⟨by decide, by decide, rfl⟩, ⟨by decide, rfl⟩, ⟨⟨.inl (by decide), rfl⟩, rfl, rfl⟩, ⟨.inl (by decide), rfl⟩, rfl,
    by decide⟩

/-! ### Floating point -/

/-- A pattern as the class it has. -/
theorem classify_one : classify .double 0x3FF0000000000000 = .norm false (2 ^ 52) (-52) := by decide

/-- 1.0 is normal. -/
theorem isNormal_one : IsNormal .double 0x3FF0000000000000 := ⟨by decide, _, _, _, classify_one⟩

/-- For the two cases of `FpOperationsDeliver`: Unimplemented, an enabled and a disabled exception. -/
theorem witness_fpTraps :
    TrapsOn .unimplemented fpOn.fpu.fcr31.enables ∧ TrapsOn (.invalid 0) (withFcr31 0x800 fpOn).fpu.fcr31.enables ∧
    ¬TrapsOn (.invalid 0) fpOn.fpu.fcr31.enables := by
  refine ⟨.inl rfl, .inr (.inl ⟨rfl, rfl⟩), ?_⟩
  unfold TrapsOn; decide

/-- For `FpOperationsDeliver`: one operation of each table; even and odd registers; MIPS IV disabled. -/
theorem witness_fpDelivers :
    fpOn.cp0.status.cu1 = true ∧ (fpArithCase (.addS 2 0 4) fpOn).isSome = true ∧
    (fpConvertCase (.cvtWS 0 4) fpOn).isSome = true ∧ (is64 fpOn = true ∧ (fpLongCase (.cvtLS 0 4) fpOn).isSome = true) ∧
    (isMips4 fpOn = true ∧ (fpMips4Case (.recipS 0 4) fpOn).isSome = true ∧
      (fpMips4Case (.maddS 4 2 0 6) fpOn).isSome = true) ∧
    (isMips4 user32 = false ∧ user32.cp0.status.cu1 = true ∧ opF (encode (.recipS 0 4)) = 17) :=
  ⟨rfl, rfl, rfl, ⟨by decide, rfl⟩, ⟨by decide, rfl, rfl⟩, by decide, rfl, by decide⟩

/-- Even registers, odd ones with `FR` = 1, and odd ones with `FR` = 0. -/
theorem witness_evenRegs : EvenRegs user32 [0, 2, 30] ∧ EvenRegs fpOn [31] ∧ ¬EvenRegs user32 [0, 31] := by
  unfold EvenRegs; decide

/-- The value of a normal double pattern, computed from its fields. -/
theorem fpValue_of (x : Dword) (e m : Nat) (neg : Bool) (hn : x.getLsbD 63 = neg)
    (he : x.toNat / 2 ^ 52 % 2 ^ 11 = e) (hm : x.toNat % 2 ^ 52 = m) (h0 : e ≠ 0) :
    fpValue .double x = (if neg then -1 else 1) * (((2 ^ 52 + m : Nat) : Rat) * (2 : Rat) ^ ((e : Int) - 1023 - 52)) := by
  have he' : x.toNat / 2 ^ FpFmt.double.fracBits % 2 ^ FpFmt.double.expBits = e := he
  have hm' : x.toNat % 2 ^ FpFmt.double.fracBits = m := hm
  have hn' : x.getLsbD FpFmt.double.signPos = neg := hn
  simp only [fpValue, he', hm', hn', if_neg h0]
  cases neg <;> simp [FpFmt.fracBits, FpFmt.bias]

/-- 1.0. -/
theorem fpValue_one : fpValue .double 0x3FF0000000000000 = 1 := by
  rw [fpValue_of _ 1023 0 false (by decide) (by decide) (by decide) (by decide)]; norm_num
/-- -1.0. -/
theorem fpValue_minus_one : fpValue .double 0xBFF0000000000000 = -1 := by
  rw [fpValue_of _ 1023 0 true (by decide) (by decide) (by decide) (by decide)]; norm_num
/-- The first power of two the conversion to a doubleword leaves to software. -/
theorem fpValue_2_52 : fpValue .double 0x4330000000000000 = 2 ^ 52 := by
  rw [fpValue_of _ 1075 0 false (by decide) (by decide) (by decide) (by decide)]; norm_num
/-- 2.0. -/
theorem fpValue_two : fpValue .double 0x4000000000000000 = 2 := by
  rw [fpValue_of _ 1024 0 false (by decide) (by decide) (by decide) (by decide)]; norm_num
/-- The least number a word holds. -/
theorem fpValue_least : fpValue .double 0xC1E0000000000000 = -2 ^ 31 := by
  rw [fpValue_of _ 1054 0 true (by decide) (by decide) (by decide) (by decide)]; norm_num
/-- The first power of two a word does not hold. -/
theorem fpValue_2_31 : fpValue .double 0x41E0000000000000 = 2 ^ 31 := by
  rw [fpValue_of _ 1054 0 false (by decide) (by decide) (by decide) (by decide)]; norm_num
/-- A power of two a doubleword does not hold. -/
theorem fpValue_2_64 : fpValue .double 0x43F0000000000000 = 2 ^ 64 := by
  rw [fpValue_of _ 1087 0 false (by decide) (by decide) (by decide) (by decide)]; norm_num

/-- For `FpArithmeticRoundsCorrectly`: 1.0, 2.0 and -1.0, with sums and differences that are and are not 0. -/
theorem witness_fpArithmetic :
    let a : Dword := 0x3FF0000000000000
    let b : Dword := 0x4000000000000000
    let n : Dword := 0xBFF0000000000000
    IsNormal .double a ∧ IsNormal .double b ∧ IsNormal .double n ∧ realValue .double a + realValue .double b ≠ 0 ∧
    realValue .double a - realValue .double b ≠ 0 ∧ realValue .double a + realValue .double n = 0 ∧
    realValue .double a - realValue .double a = 0 ∧ 0 < realValue .double a := by
  refine ⟨isNormal_one, ⟨by decide, false, 2 ^ 52, -51, by decide⟩, ⟨by decide, true, 2 ^ 52, -52, by decide⟩, ?_, ?_, ?_, ?_, ?_⟩ <;>
    norm_num [realValue, fpValue_one, fpValue_two, fpValue_minus_one]

/-- For `FpConversionsRoundCorrectly`: the least word, the first number beyond the greatest, numbers that convert to a
doubleword and the first that does not, a number beyond every doubleword. -/
theorem witness_fpConversions :
    (IsNormal .double 0xC1E0000000000000 ∧ -(2 ^ 31) ≤ fpValue .double 0xC1E0000000000000 ∧
      fpValue .double 0xC1E0000000000000 ≤ 2 ^ 31 - 1) ∧
    (IsNormal .double 0x41E0000000000000 ∧ 2 ^ 31 - 1 < roundedInt 1 (fpValue .double 0x41E0000000000000)) ∧
    (-(2 ^ 52) < roundedInt 1 (fpValue .double 0x3FF0000000000000) ∧ roundedInt 1 (fpValue .double 0x3FF0000000000000) < 2 ^ 52) ∧
    (IsNormal .double 0x4330000000000000 ∧ |fpValue .double 0x4330000000000000| ≤ 2 ^ 63 ∧
      2 ^ 52 ≤ roundedInt 1 (fpValue .double 0x4330000000000000)) ∧
    (IsNormal .double 0x43F0000000000000 ∧ 2 ^ 63 < |fpValue .double 0x43F0000000000000|) ∧
    ((-(2 ^ 63) : Int) ≠ 0 ∧ (-(2 ^ 63) : Int).natAbs ≤ 2 ^ 63) := by
  rw [fpValue_least, fpValue_2_31, fpValue_2_64, fpValue_one, fpValue_2_52]
  refine ⟨⟨⟨by decide, true, 2 ^ 52, -21, by decide⟩, by norm_num, by norm_num⟩,
    ⟨⟨by decide, false, 2 ^ 52, -21, by decide⟩, ?_⟩, ?_, ⟨⟨by decide, false, 2 ^ 52, 0, by decide⟩, by norm_num, ?_⟩,
    ⟨⟨by decide, false, 2 ^ 52, 12, by decide⟩, by norm_num⟩, by decide, by decide⟩
  · have h : (2 ^ 31 : Rat).floor = 2 ^ 31 := Rat.floor_intCast (2 ^ 31)
    simp [roundedInt, h]
  · have h : (1 : Rat).floor = 1 := Rat.floor_intCast 1
    norm_num [roundedInt, h]
  · have h : (2 ^ 52 : Rat).floor = 2 ^ 52 := Rat.floor_intCast (2 ^ 52)
    simp [roundedInt, h]
/-- The other classes of sources, and both values of `FS`. -/
theorem witness_fpConversionClasses :
    classify .single 0x80000000 = .zero true ∧ classify .single 0xFF800000 = .inf true ∧
    classify .single 0x7FBFFFFF = .qnan false ∧ classify .single 0x7FC00000 = .snan false ∧
    (∃ neg m, classify .single 1 = .denorm neg m) ∧ fpOn.fpu.fcr31.fs = false ∧
    (withFcr31 0x1000000 fpOn).fpu.fcr31.fs = true := ⟨rfl, rfl, rfl, rfl, ⟨_, _, rfl⟩, rfl, rfl⟩

/-- For `FpSpecialOperands`: a pattern of each class, with both signs where the sign decides; both values of `FS`. -/
theorem witness_fpSpecial :
    IsSnan .single 0x7FC00000 ∧ IsQnan .single 0x7FBFFFFF ∧ IsInf .single 0xFF800000 ∧ IsInf .single 0x7F800000 ∧
    (signOf .single 0xFF800000 = true ∧ signOf .single 0x7F800000 = false) ∧ IsZero .single 0x80000000 ∧ IsZero .single 0 ∧
    IsDenorm .single 0x807FFFFF ∧ (IsNormal .single 0x80800000 ∧ signOf .single 0x80800000 = true) ∧
    (¬IsNan .single 0x80800000 ∧ ¬IsInf .single 0x80800000 ∧ ¬IsDenorm .single 0x80800000 ∧ ¬IsSnan .single 0x80800000) ∧
    fpOn.fpu.fcr31.fs = false ∧ (withFcr31 0x1000000 fpOn).fpu.fcr31.fs = true := by
  have h : classify .single 0x80800000#64 = .norm true (2 ^ 23) (-149) := by decide
  refine ⟨⟨_, rfl⟩, ⟨_, rfl⟩, ⟨_, rfl⟩, ⟨_, rfl⟩, by decide, ⟨by decide, _, rfl⟩, ⟨by decide, _, rfl⟩, ⟨_, _, rfl⟩,
    ⟨⟨by decide, _, _, _, rfl⟩, by decide⟩, ?_, rfl, rfl⟩
  simp [IsNan, IsInf, IsDenorm, IsSnan, IsQnan, h]

/-- For `FpComparesOrderValues`: numbers and a NaN; a compare with `cc` = 0 and one with another, with and without MIPS IV;
`Invalid` enabled and not. -/
theorem witness_fpCompares :
    (isNan .single 0x3F800000 = false ∧ isNan .single 0xFF800000 = false ∧ isNan .single 0x7F800001 = true ∧
      (0xFF800000 : Dword).toNat < 2 ^ (FpFmt.single.signPos + 1)) ∧
    fpCompareCase (.cLtS 2 0 7) = some (.single, 12, 2, 0, 7) ∧
    (user32.cp0.status.cu1 = true ∧ isMips4 user32 = false ∧ isMips4 fpOn = true) ∧
    (fpCompare .single 12 0x7F800001 0x3F800000).2 = true ∧
    (withFcr31 0x800 fpOn).fpu.fcr31.enables.v = true ∧ fpOn.fpu.fcr31.enables.v = false :=
  ⟨by decide, rfl, by decide, by decide, by decide, by decide⟩

/-- For `FpBranchesAndMoves`: outside a slot; MIPS IV disabled with a condition code other than 0; odd registers with `FR` = 0;
`FCR31` written without and with an enabled cause. -/
theorem witness_fpBranches :
    fpOn.cp0.status.cu1 = true ∧ fpOn.inDelaySlot = false ∧ isMips4 fpOn = true ∧ is64 fpOn = true ∧
    (user32.cp0.status.cu1 = true ∧ isMips4 user32 = false ∧ (1 : BitVec 3) ≠ 0) ∧
    (let s := withStatus 0x20000000 start
     s.cp0.status.cu1 = true ∧ isMips4 s = true ∧ is64 s = true ∧ ¬EvenRegs s [0, 31] ∧ ¬EvenRegs s [1]) ∧
    (withFcr31 0x800000 fpOn).fpu.fcr31.cc.getLsbD 0 = true ∧ fpOn.fpu.fcr31.cc.getLsbD 7 = false ∧
    ((0x10000 : Word).getLsbD 17 = false ∧ (0x10000 : Word).extractLsb' 12 5 &&& (0x10000 : Word).extractLsb' 7 5 = 0) ∧
    ¬((0x10800 : Word).getLsbD 17 = false ∧ (0x10800 : Word).extractLsb' 12 5 &&& (0x10800 : Word).extractLsb' 7 5 = 0) ∧
    ¬((0x20000 : Word).getLsbD 17 = false ∧ (0x20000 : Word).extractLsb' 12 5 &&& (0x20000 : Word).extractLsb' 7 5 = 0) := by
  unfold EvenRegs; decide

/-- For `FpLoadsAndStores`: aligned, misaligned for a word and for a doubleword only; an index in the region and out of it. -/
theorem witness_fpLoads :
    (let s := regs [(1, 0xFFFFFFFF80001000), (2, 8)] fpOn
     Direct s 3 ∧ LoadReaches 4 (effAddr s 1 0) s 0x1000 3 ∧ LoadReaches 8 (effAddr s 1 0) s 0x1000 3 ∧
      StoreReaches 4 (effAddr s 1 0) s 0x1000 3 ∧ StoreReaches 8 (effAddr s 1 0) s 0x1000 3 ∧
      (effAddr s 1 3).toNat % 4 ≠ 0 ∧ (effAddr s 1 4).toNat % 8 ≠ 0 ∧
      uval s 1 / 2 ^ 62 = (indexAddr s 1 2).toNat / 2 ^ 62 ∧ LoadReaches 8 (indexAddr s 1 2) s 0x1008 3) ∧
    (let s := regs [(1, 0x3FFFFFFFFFFFFFFC), (2, 4)] fpOn
     uval s 1 / 2 ^ 62 ≠ (indexAddr s 1 2).toNat / 2 ^ 62 ∧ EvenRegs s [31]) :=
  ⟨⟨.inl rfl, ⟨rfl, .inl (by decide), by decide⟩, ⟨rfl, .inl (by decide), by decide⟩, ⟨rfl, by decide, by decide⟩,
    ⟨rfl, by decide, by decide⟩, by decide, by decide, by decide, ⟨rfl, .inl (by decide), by decide⟩⟩, by decide, .inl (by decide)⟩

end Sys2Proof.Tests
end

/-! # The state: its counters, its resets, and the invariant every step keeps

`Inv` reads memory, the caches, the parameters, `Random` and `Wired`. So an operation keeps it if it leaves these alone
(`inv_of_part`), if it belongs to the memory system (`inv_memSide`), or for a reason of its own: `Random`'s walk, a write
of `Wired`, a change of the cache lists, a new `COUNT_STEP`, the cold reset. `OutInv` and `OpInv` carry this to answers,
`exec_inv` says it of every instruction and `step_inv` of every phase of a step. -/

namespace Sys2Proof.Proofs

open Sys2Proof.Machine Sys2Proof.Safety Sys2Proof.Laws

/-- Settles O12: every part of the invariant is a closed fact about the reset state. -/
theorem resetMeetsTheInvariant : Obligations.ResetMeetsTheInvariant where
  data := ⟨rfl, rfl⟩
  random := ⟨by decide, by decide⟩
  count := Nat.one_pos
  params := fun h => absurd h Bool.false_ne_true

/-- Settles O8: the reset state is closed, so each stated value is read off it. -/
theorem resetStateHasTheStatedValues : Obligations.ResetStateHasTheStatedValues := by
  unfold Obligations.ResetStateHasTheStatedValues
  decide

/-! ## Counters -/

/-- `Count` meets `Compare` on its way exactly when one of the values it passes equals `Compare`
(60_exceptions.md rule R851). -/
theorem timerHit_iff (old compare : Word) (step : Nat) :
    timerHit old compare step = true ↔ ∃ k : Nat, 1 ≤ k ∧ k ≤ step ∧ old + BitVec.ofNat 32 k = compare := by
  have reach (k : Nat) : old + BitVec.ofNat 32 k = compare ↔ (compare - old).toNat = k % 2 ^ 32 := by
    rw [← BitVec.toNat_ofNat, BitVec.toNat_inj, sub_eq_iff_eq_add', eq_comm]
  have hd := (compare - old).isLt
  simp only [timerHit, decide_eq_true_eq, reach]
  constructor
  · intro h
    by_cases h0 : (compare - old).toNat = 0
    · exact ⟨2 ^ 32, by omega⟩
    · exact ⟨(compare - old).toNat, by omega⟩
  · rintro ⟨k, hk1, hk, he⟩
    omega

/-- What the counters of a step write besides `PerfCount`. -/
theorem stepPerf_frame (before : State) (executed : Bool) (s : State) :
    let t := stepPerf before executed s
    t.cp0 = { s.cp0 with perfCount := t.cp0.perfCount } ∧ t = { s with cp0 := t.cp0, freeCount := t.freeCount } := by
  unfold stepPerf
  split
  · exact ⟨rfl, rfl⟩
  · split
    · split <;> exact ⟨rfl, rfl⟩
    · exact ⟨rfl, rfl⟩

/-- A performance counter that is switched off, or whose source counts nothing, stands still. -/
theorem stepPerf_off (before : State) (executed : Bool) (s : State)
    (h : perfEnabled before = false ∨ perfUnused before = true) : stepPerf before executed s = s := by
  unfold stepPerf
  rw [if_pos]
  simpa using h

/-- Source 1 counts the executed instructions exactly. -/
theorem stepPerf_instructions (before : State) (executed : Bool) (s : State) (he : perfEnabled before = true)
    (hc : before.cp0.perfControl.csf = 1) :
    (stepPerf before executed s).cp0.perfCount = s.cp0.perfCount + (if executed then 1 else 0) := by
  have hu : perfUnused before = false := by simp [perfUnused, hc]
  cases executed <;> simp [stepPerf, he, hu, hc]

/-- Every source counts at most `PERF_STEP`, or one executed instruction. -/
theorem stepPerf_bounded (before : State) (executed : Bool) (s : State) :
    ∃ k : Nat, k ≤ max s.params.perfStep 1 ∧
      (stepPerf before executed s).cp0.perfCount = s.cp0.perfCount + BitVec.ofNat 32 k := by
  unfold stepPerf
  split
  · exact ⟨0, by omega, by simp⟩
  · split
    · split
      · exact ⟨1, by omega, rfl⟩
      · exact ⟨0, by omega, by simp⟩
    · have hlt := Nat.mod_lt (s.free 0).toNat (y := s.params.perfStep + 1) (by omega)
      exact ⟨(s.free 0).toNat % (s.params.perfStep + 1), by omega, rfl⟩

/-- The counters of a step: `PerfCount` moves behind `Count`, the timer latch and `Random`. -/
theorem tick_eq_stepPerf (before : State) (executed random : Bool) (s : State) :
    ∃ u, tick before executed random s = stepPerf before executed u ∧
      u = { s with
        timerPending := s.timerPending || timerHit s.cp0.count s.cp0.compare s.params.countStep
        cp0 := { s.cp0 with
          count := s.cp0.count + BitVec.ofNat 32 s.params.countStep
          random := if random then (if s.cp0.random ≤ s.cp0.wired then tlbTop s else s.cp0.random - 1)
            else s.cp0.random } } := by
  cases random <;> exact ⟨_, rfl, rfl⟩

/-- The ways the performance counter stands still that 60_exceptions.md rule R857 names. -/
theorem perf_off_of_control (s : State)
    (h : s.cp0.perfControl.ce = false ∨ (mode s = .user ∧ s.cp0.perfControl.um = false) ∨
      (mode s = .kernel ∧ s.cp0.perfControl.km = false) ∨ s.cp0.perfControl.csf = 0x1F) :
    perfEnabled s = false ∨ perfUnused s = true := by
  rcases h with h | ⟨hm, h⟩ | ⟨hm, h⟩ | h
  · exact .inl (by simp [perfEnabled, h])
  · exact .inl (by simp [perfEnabled, hm, h])
  · exact .inl (by simp [perfEnabled, hm, h])
  · exact .inr (by simp [perfUnused, h])

/-- Settles O7: `tick` is `stepPerf` behind the other counters, and `stepPerf` writes `PerfCount` alone. -/
theorem countersAdvance : Obligations.CountersAdvance := by
  intro before s executed random
  obtain ⟨u, htick, hu⟩ := tick_eq_stepPerf before executed random s
  obtain ⟨hcp0, hrest⟩ := stepPerf_frame before executed u
  have htimer : (stepPerf before executed u).timerPending = u.timerPending := by rw [hrest]
  rw [htick]
  refine ⟨by rw [hcp0, hu], ?_, by rw [hcp0, hu], fun h => ?_, fun hce hm hkm hcsf => ?_, ?_, ?_, ?_⟩
  · rw [htimer, hu, ← timerHit_iff, Bool.or_eq_true]
  · rw [stepPerf_off before executed u (perf_off_of_control before h), hu]
  · rw [stepPerf_instructions before executed u (by simp [perfEnabled, hce, hm, hkm]) hcsf, hu]
  · obtain ⟨k, hk, hcount⟩ := stepPerf_bounded before executed u
    exact ⟨k, by rwa [hu] at hk, by rw [hcount, hu]⟩
  · rw [hcp0, hu]
  · rw [hrest, hu]

/-! ## The cold reset -/

/-- The step in which the board asserts `ColdReset*`. -/
theorem step_coldReset (s : State) (m : BitVec 256) (pin : Bool) (es : List HostEvent)
    (hev : s.events = .coldReset m pin :: es) : step s = coldReset m pin { s with events := es } := by
  rw [step, stepOnce, hev]
  rfl

/-- A cold reset reads the state it starts from through the program counter and the parameters only, and losing the
caches keeps both. -/
theorem enterColdReset_pc_params (m : BitVec 256) (pin : Bool) (s : State) :
    (enterColdReset m pin s).cp0.errorEpc = s.pc ∧ (enterColdReset m pin s).params = modeParams m pin s.params := by
  have hside := MemSide_loseCacheState s
  exact ⟨hside.pc, congrArg (modeParams m pin) hside.params⟩

/-- The number of JTLB entries after a cold reset (70_reset_and_hazards.md rule R880). -/
theorem tlbSize_enterColdReset (m : BitVec 256) (pin : Bool) (s : State) :
    tlbSize (enterColdReset m pin s) = 64 ↔ m.getLsbD 24 = true ∧ 0x20 ≤ s.params.rev.toNat := by
  rw [tlbSize, (enterColdReset_pc_params m pin s).2]
  simp [modeParams]

/-- Settles O9: losing the caches keeps the program counter and the parameters, from which the reset takes `ErrorEPC`
and what a mode stream does not fix; every other value is stated by `enterColdReset` itself. -/
theorem coldResetEstablishesTheStatedValues : Obligations.ColdResetEstablishesTheStatedValues := by
  intro s m pin es hev
  rw [step_coldReset s m pin es hev, coldReset]
  refine ⟨fun h => by rw [h]; rfl, fun h => ⟨enterColdReset m pin { s with events := es }, by rw [h]; rfl, ?_⟩⟩
  refine ⟨rfl, rfl, rfl, rfl, (enterColdReset_pc_params m pin _).1,
    rfl, rfl, rfl, rfl, rfl, rfl, rfl, rfl, rfl, rfl, rfl, rfl, rfl, rfl, rfl, rfl,
    congrArg some (show wide (Cp0.reset 0).perfControl.toWord = 0 by decide),
    congrArg some (show wide (Cp0.reset 0).watchMask.toWord = 0 by decide),
    congrArg some (show wide (Cp0.reset 0).ecc.toWord = 0 by decide),
    congrArg some (show wide (Cp0.reset 0).cacheErr.toWord = 0 by decide),
    rfl, rfl, rfl, rfl, rfl, rfl, rfl, rfl, rfl,
    rfl, rfl, rfl, rfl, tlbSize_enterColdReset m pin _⟩

/-! ## The invariant reads memory, the caches, the parameters, `Random` and `Wired` -/

/-- What a change of state must keep for the invariant to be kept. -/
theorem inv_of_kept {s t : State} (hs : Inv s) (hmem : Memory.wf s.mem = true → Memory.wf t.mem = true)
    (hcaches : s.caches.wf = true → t.caches.wf = true) (hparams : t.params = s.params)
    (hrandom : t.cp0.random = s.cp0.random) (hwired : t.cp0.wired = s.cp0.wired) : Inv t where
  data := ⟨hmem hs.data.1, hcaches hs.data.2⟩
  random := by simpa only [randomInRange, tlbTop, hparams, hrandom, hwired] using hs.random
  count := by simpa only [countRuns, hparams] using hs.count
  params := by simpa only [paramsOk, hparams] using hs.params

/-- The parts of the state the invariant reads. -/
def invPart (s : State) : List Host.Cell × Caches × Params × BitVec 6 × BitVec 6 :=
  (s.mem, s.caches, s.params, s.cp0.random, s.cp0.wired)

theorem inv_of_part {s t : State} (hs : Inv s) (h : invPart t = invPart s) : Inv t := by
  simp only [invPart, Prod.mk.injEq] at h
  obtain ⟨hmem, hcaches, hparams, hrandom, hwired⟩ := h
  exact inv_of_kept hs (hmem ▸ id) (hcaches ▸ id) hparams hrandom hwired

theorem inv_iff_of_part {s t : State} (h : invPart t = invPart s) : Inv t ↔ Inv s :=
  ⟨fun ht => inv_of_part ht h.symm, fun hs => inv_of_part hs h⟩

/-- Operations of the memory system keep the invariant. -/
theorem inv_memSide {s t : State} (h : MemSide s t) (hs : Inv s) : Inv t :=
  inv_of_kept hs h.memWf h.cachesWf h.params (by rw [h.cp0]) (by rw [h.cp0])

/-! ### Operations that write nothing of it -/

@[simp] theorem inv_drew (s : State) (n : Nat) : Inv (s.drew n) ↔ Inv s := inv_iff_of_part rfl
@[simp] theorem inv_advance (s : State) : Inv (advance s) ↔ Inv s := inv_iff_of_part (by simp [invPart])
@[simp] theorem inv_enterSlot (s : State) (target : Dword) : Inv (enterSlot target s) ↔ Inv s := inv_iff_of_part rfl
@[simp] theorem inv_nullifySlot (s : State) : Inv (nullifySlot s) ↔ Inv s := inv_iff_of_part rfl
@[simp] theorem inv_writeGpr (s : State) (r : RegNum) (v : Dword) : Inv (writeGpr s r v) ↔ Inv s :=
  inv_iff_of_part (by simp [invPart])
@[simp] theorem inv_link (s : State) (r : RegNum) : Inv (link r s) ↔ Inv s := inv_writeGpr s r _
@[simp] theorem inv_writeHiLo (s : State) (hi lo : Dword) : Inv (writeHiLo hi lo s) ↔ Inv s := inv_iff_of_part rfl
@[simp] theorem inv_setFpCause (s : State) (unimpl : Bool) (flags : FpFlags) :
    Inv (setFpCause unimpl flags s) ↔ Inv s := inv_iff_of_part rfl
@[simp] theorem inv_addFpFlags (s : State) (flags : FpFlags) : Inv (addFpFlags flags s) ↔ Inv s := inv_iff_of_part rfl
@[simp] theorem inv_writeFcc (s : State) (cc : BitVec 3) (b : Bool) : Inv (writeFcc cc b s) ↔ Inv s := inv_iff_of_part rfl
@[simp] theorem inv_writeFcr31 (s : State) (w : Word) : Inv (writeFcr31 w s) ↔ Inv s := inv_iff_of_part rfl
@[simp] theorem inv_writeFprWord (s : State) (f : RegNum) (v : Word) : Inv (writeFprWord f v s) ↔ Inv s :=
  inv_iff_of_part (by simp [invPart])
@[simp] theorem inv_writeFprDword (s : State) (f : RegNum) (v : Dword) : Inv (writeFprDword f v s) ↔ Inv s :=
  inv_iff_of_part (by simp [invPart])
@[simp] theorem inv_writeFpr (s : State) (isWide : Bool) (f : RegNum) (v : Dword) : Inv (writeFpr isWide f v s) ↔ Inv s :=
  inv_iff_of_part (by simp [invPart])
@[simp] theorem inv_scrambleFgr (s : State) : Inv (scrambleFgr s) ↔ Inv s := inv_iff_of_part (by simp [invPart])
@[simp] theorem inv_setLink (s : State) (pa : PAddr) : Inv (setLink pa s) ↔ Inv s := inv_iff_of_part rfl
@[simp] theorem inv_breakLink (s : State) (kind : LinkEvent) : Inv (breakLink kind s) ↔ Inv s :=
  inv_iff_of_part (by simp [invPart])
@[simp] theorem inv_setCh (s : State) (hit : Bool) : Inv (setCh hit s) ↔ Inv s := inv_iff_of_part rfl
@[simp] theorem inv_setTags (s : State) (lo hi : Word) (par : BitVec 8) : Inv (setTags lo hi par s) ↔ Inv s :=
  inv_iff_of_part rfl
@[simp] theorem inv_freeTags (s : State) : Inv (freeTags s) ↔ Inv s := inv_iff_of_part rfl
@[simp] theorem inv_writeTlb (s : State) (i : BitVec 6) (e : TlbEntry) : Inv (writeTlb i e s) ↔ Inv s := inv_iff_of_part rfl
@[simp] theorem inv_loadRegs (s : State) (e : TlbEntry) : Inv (loadRegs e s) ↔ Inv s := inv_iff_of_part rfl
@[simp] theorem inv_takeException (s : State) (e : Exc) : Inv (takeException e s) ↔ Inv s :=
  inv_iff_of_part (by cases e <;> rfl)
@[simp] theorem inv_enterCacheError (s : State) : Inv (enterCacheError s) ↔ Inv s := inv_iff_of_part rfl
@[simp] theorem inv_enterSoftReset (s : State) : Inv (enterSoftReset s) ↔ Inv s := inv_iff_of_part rfl
@[simp] theorem inv_returnFromException (s : State) : Inv (returnFromException s) ↔ Inv s :=
  inv_iff_of_part (by unfold returnFromException; split <;> rfl)
@[simp] theorem inv_loadParityBits (s : State) (b : ParityBits) : Inv (loadParityBits b s) ↔ Inv s := inv_iff_of_part rfl
@[simp] theorem inv_recordError (s : State) (e : ImpreciseError) : Inv (recordError e s) ↔ Inv s := by
  obtain ⟨-, -, -, -, -, -, -, -, -, hcp0⟩ := recordError_frame e s
  refine inv_iff_of_part ?_
  rw [invPart, hcp0]
  simp [invPart]
@[simp] theorem inv_fetchCacheErr (s : State) (bits : ParityBits) (pa : PAddr) (attr : BitVec 3) :
    Inv (fetchCacheErr bits pa attr s) ↔ Inv s := inv_iff_of_part (by unfold fetchCacheErr; dsimp only; split <;> rfl)
@[simp] theorem inv_setNmiLevel (s : State) (b : Bool) : Inv { s with nmiLevel := b } ↔ Inv s := inv_iff_of_part rfl
@[simp] theorem inv_setStandby (s : State) (b : Bool) : Inv { s with standby := b } ↔ Inv s := inv_iff_of_part rfl
@[simp] theorem inv_setHazards (s : State) (h : Hazards) : Inv { s with hazards := h } ↔ Inv s := inv_iff_of_part rfl
@[simp] theorem inv_setEvents (s : State) (es : List HostEvent) : Inv { s with events := es } ↔ Inv s := inv_iff_of_part rfl
@[simp] theorem inv_setPendingErrors (s : State) (es : List ImpreciseError) :
    Inv { s with pendingErrors := es } ↔ Inv s := inv_iff_of_part rfl

/-! ### Cache lines -/

theorem inv_putD {s : State} (hs : Inv s) (k : Nat) (x : DLine) : Inv (putD k x s) := inv_memSide (MemSide_putD s k x) hs
theorem inv_putI {s : State} (hs : Inv s) (k : Nat) (x : ILine) : Inv (putI k x s) := inv_memSide (MemSide_putI s k x) hs
theorem inv_putS {s : State} (hs : Inv s) (k : Nat) (x : SLine) : Inv (putS k x s) := inv_memSide (MemSide_putS s k x) hs
theorem inv_putT {s : State} (hs : Inv s) (k : Nat) (x : TLine) : Inv (putT k x s) := inv_memSide (MemSide_putT s k x) hs

theorem inv_discard {s : State} (hs : Inv s) (p : Nat → Bool) : Inv (discard p s) := inv_memSide (MemSide_discard s p) hs

theorem inv_modifyParityD {s : State} (hs : Inv s) (va : Dword) (k : Nat) : Inv (modifyParityD va k s) := by
  unfold modifyParityD
  split
  · exact inv_putD hs _ _
  · exact hs

theorem inv_modifyParityI {s : State} (hs : Inv s) (va : Dword) (k : Nat) : Inv (modifyParityI va k s) := by
  unfold modifyParityI
  split
  · exact inv_putI hs _ _
  · exact hs

theorem inv_modifyParityS {s : State} (hs : Inv s) (va : Dword) (k : Nat) : Inv (modifyParityS va k s) := by
  unfold modifyParityS
  split
  · exact inv_putS hs _ _
  · exact hs

/-- Emptying the tertiary cache keeps the other lists of lines in order. -/
theorem inv_emptyT {s : State} (hs : Inv s) (epoch : Nat) (invalid : Bool) :
    Inv { s with caches := { s.caches with tcEpoch := epoch, tcInvalid := invalid, tcache := [] } } := by
  refine inv_of_kept hs id (fun h => ?_) rfl rfl rfl
  simp only [Caches.wf, Bool.and_eq_true] at h ⊢
  exact ⟨h.1, rfl⟩

/-! ### Counters -/

/-- `Random` stays within its bounds on its way down, and wraps to the upper one (10_state.md rule R122). -/
theorem inv_stepRandom {s : State} (hs : Inv s) : Inv (stepRandom s) := by
  obtain ⟨hdata, ⟨hupper, hlower⟩, hcount, hparams⟩ := hs
  refine ⟨hdata, ?_, hcount, hparams⟩
  show (if s.cp0.random ≤ s.cp0.wired then tlbTop s else s.cp0.random - 1) ≤ tlbTop s ∧
    (s.cp0.wired ≤ tlbTop s → s.cp0.wired ≤ if s.cp0.random ≤ s.cp0.wired then tlbTop s else s.cp0.random - 1)
  split
  · exact ⟨BitVec.le_refl _, id⟩
  · constructor <;> bv_omega

theorem inv_stepCount {s : State} (hs : Inv s) : Inv (stepCount s) := inv_of_part hs rfl

theorem inv_stepPerf {s : State} (hs : Inv s) (before : State) (executed : Bool) : Inv (stepPerf before executed s) := by
  obtain ⟨hcp0, hrest⟩ := stepPerf_frame before executed s
  exact inv_of_kept hs (by rw [hrest]; exact id) (by rw [hrest]; exact id) (by rw [hrest]) (by rw [hcp0]) (by rw [hcp0])

theorem inv_tick {s : State} (hs : Inv s) (before : State) (executed random : Bool) :
    Inv (tick before executed random s) := by
  unfold tick
  split
  · exact inv_stepPerf (inv_stepRandom (inv_stepCount hs)) before executed
  · exact inv_stepPerf (inv_stepCount hs) before executed

/-! ## Answers that keep the invariant -/

/-- A next state, if the answer is one, meets the invariant. -/
def OutInv : Out → Prop
  | .next t => Inv t
  | .fault _ => True
  | .refused _ => True

/-- The state an exception is taken in, if the stop is one, meets the invariant. -/
def StopInv : Stop → Prop
  | .exc _ t => Inv t
  | .cacheError t => Inv t
  | .fault _ => True
  | .refused _ => True

/-- Whatever an operation answers, its state meets the invariant. -/
def OpInv {α : Type} (st : α → State) : Except Stop α → Prop
  | .ok a => Inv (st a)
  | .error e => StopInv e

theorem OutInv.next {o : Out} {t : State} (h : OutInv o) (ho : o = .next t) : Inv t := by
  subst ho
  exact h

theorem OpInv.ok {α : Type} {st : α → State} {x : Except Stop α} {a : α} (h : OpInv st x) (hx : x = .ok a) :
    Inv (st a) := by
  subst hx
  exact h

theorem OpInv.error {α : Type} {st : α → State} {x : Except Stop α} {e : Stop} (h : OpInv st x) (hx : x = .error e) :
    StopInv e := by
  subst hx
  exact h

/-- Operations of the memory system keep the invariant, whatever they answer. -/
theorem OpInv.of_side {α : Type} {s : State} {st : α → State} {x : Except Stop α} (hs : Inv s) (h : OpSide s st x) :
    OpInv st x := by
  cases x with
  | ok a => exact inv_memSide h hs
  | error e =>
    cases e with
    | exc _ t => exact inv_memSide h hs
    | cacheError t => exact inv_memSide h hs
    | fault _ => trivial
    | refused _ => trivial

theorem stopInv_answer {e : Stop} (h : StopInv e) : OutInv e.answer := by
  cases e with
  | exc e t => exact (inv_takeException t e).2 h
  | cacheError t => exact (inv_enterCacheError t).2 h
  | fault _ => trivial
  | refused _ => trivial

/-- Continuing after an operation. -/
theorem onOk_inv {α : Type} {st : α → State} {x : Except Stop α} {k : α → Out} (hx : OpInv st x)
    (hk : ∀ a, Inv (st a) → OutInv (k a)) : OutInv (onOk x k) := by
  cases x with
  | ok a => exact hk a hx
  | error e => exact stopInv_answer hx

theorem requireEven_inv {s : State} {regs : List RegNum} {k : Out} (hk : OutInv k) : OutInv (requireEven regs s k) := by
  unfold requireEven
  split
  · trivial
  · exact hk

section Answers

variable {s : State} (hs : Inv s)
include hs

theorem complete_inv : OutInv (complete s) := (inv_advance s).2 hs

theorem raise_inv {e : Exc} : OutInv (raise e s) := (inv_takeException s e).2 hs

theorem writeResult_inv {r : RegNum} {v : Dword} : OutInv (writeResult r v s) :=
  complete_inv ((inv_writeGpr s r v).2 hs)

theorem requireIs64_inv {k : Out} (hk : OutInv k) : OutInv (requireIs64 s k) := by
  unfold requireIs64
  split
  · exact hk
  · exact raise_inv hs

theorem requireMips4_inv {k : Out} (hk : OutInv k) : OutInv (requireMips4 s k) := by
  unfold requireMips4
  split
  · exact hk
  · exact raise_inv hs

theorem requireCp0_inv {k : Out} (hk : OutInv k) : OutInv (requireCp0 s k) := by
  unfold requireCp0
  split
  · exact hk
  · exact raise_inv hs

theorem requireCu1_inv {k : Out} (hk : OutInv k) : OutInv (requireCu1 s k) := by
  unfold requireCu1
  split
  · exact hk
  · exact raise_inv hs

/-! ### Integer computation -/

theorem wordResult_inv {ok : Bool} {r : RegNum} {v : Word} : OutInv (wordResult ok r v s) := by
  unfold wordResult
  split
  · exact writeResult_inv hs
  · exact writeResult_inv ((inv_drew s 1).2 hs)

theorem trappingWord_inv {ok overflow : Bool} {r : RegNum} {v : Word} : OutInv (trappingWord ok overflow r v s) := by
  unfold trappingWord
  split
  · split
    · exact raise_inv hs
    · exact writeResult_inv hs
  · show Inv (if _ then _ else _)
    split <;> simpa using hs

theorem trappingDword_inv {overflow : Bool} {r : RegNum} {v : Dword} : OutInv (trappingDword overflow r v s) := by
  refine requireIs64_inv hs ?_
  split
  · exact raise_inv hs
  · exact writeResult_inv hs

theorem moveIf_inv {c : Bool} {rs rd : RegNum} : OutInv (moveIf c rs rd s) := by
  unfold moveIf
  split
  · exact writeResult_inv hs
  · exact complete_inv hs

theorem trapIf_inv {c : Bool} : OutInv (trapIf c s) := by
  unfold trapIf
  split
  · exact raise_inv hs
  · exact complete_inv hs

theorem absentCop2_inv : OutInv (absentCop2 s) := by
  unfold absentCop2
  split <;> exact raise_inv hs

theorem completeHiLo_inv {hi lo : Dword} : OutInv (complete (writeHiLo hi lo s)) :=
  complete_inv ((inv_writeHiLo s hi lo).2 hs)

theorem hiLoFree_inv : OutInv (hiLoFree s) := completeHiLo_inv ((inv_drew s 2).2 hs)

/-- The products and quotients of words: `HI` and `LO`, or free values in them. -/
theorem hiLoOrFree_inv {c : Prop} [Decidable c] {hi lo : Dword} :
    OutInv (if c then complete (writeHiLo hi lo s) else hiLoFree s) := by
  split
  · exact completeHiLo_inv hs
  · exact hiLoFree_inv hs

/-- The quotients of doublewords: free values in `HI` and `LO` where there is none. -/
theorem freeOrHiLo_inv {c : Prop} [Decidable c] {hi lo : Dword} :
    OutInv (if c then hiLoFree s else complete (writeHiLo hi lo s)) := by
  split
  · exact hiLoFree_inv hs
  · exact completeHiLo_inv hs

/-! ### Jumps and branches -/

theorem jumpTo_inv {target : Dword} : OutInv (jumpTo target s) := by
  unfold jumpTo
  split
  · trivial
  · exact (inv_enterSlot s target).2 hs

theorem branchLikely_inv {taken : Bool} {target : Dword} : OutInv (branchLikely taken target s) := by
  unfold branchLikely
  split
  · exact jumpTo_inv hs
  · split
    · trivial
    · exact (inv_nullifySlot s).2 hs

/-! ### Loads, stores, prefetch -/

theorem loadInto_inv {r : RegNum} {x : Except Stop (Dword × State)} {extend : Dword → Dword} (hx : OpSide s (·.2) x) :
    OutInv (loadInto r x extend) :=
  onOk_inv (.of_side hs hx) fun _ ht => writeResult_inv ht

theorem storeDone_inv {x : Except Stop State} (hx : OpSide s id x) : OutInv (storeDone x) :=
  onOk_inv (.of_side hs hx) fun _ ht => complete_inv ht

theorem loadLinked_inv {n : Nat} {r : RegNum} {va : Dword} {extend : Dword → Dword} :
    OutInv (loadLinked n r va extend s) :=
  onOk_inv (.of_side hs (translateAligned_side .load n va s)) fun t _ =>
    onOk_inv (.of_side hs (loadAt_side n t.1 t.2 s)) fun vs ht => writeResult_inv ((inv_setLink vs.2 t.1).2 ht)

theorem storeConditional_inv {n : Nat} {r : RegNum} {va : Dword} : OutInv (storeConditional n r va s) := by
  refine onOk_inv (.of_side hs (translateAligned_side .store n va s)) fun t _ =>
    onOk_inv (.of_side hs (watchData_side .store t.1 n s)) fun _ _ => ?_
  split
  · exact onOk_inv (.of_side hs (memWrite_side t.1 n _ t.2 s)) fun _ ht => writeResult_inv ht
  · exact writeResult_inv hs

theorem prefetch_inv {hint : BitVec 5} {baseValue va : Dword} : OutInv (prefetch hint baseValue va s) := by
  unfold prefetch
  split
  · trivial
  · split
    · trivial
    · exact complete_inv hs
    · split
      · exact complete_inv hs
      · split
        · exact onOk_inv (.of_side hs (prepareForStore_side _ _ s)) fun _ ht => complete_inv ht
        · exact onOk_inv (.of_side hs (prefetchLine_side _ _ s)) fun _ ht => complete_inv ht

/-! ### Floating point -/

theorem raiseUnimplemented_inv : OutInv (raiseUnimplemented s) := raise_inv ((inv_setFpCause s _ _).2 hs)

theorem requireFpMips4_inv {needed : Bool} {k : Out} (hk : OutInv k) : OutInv (requireFpMips4 needed s k) := by
  unfold requireFpMips4
  split
  · exact raiseUnimplemented_inv hs
  · exact hk

theorem fpGuard_inv {mips4 : Bool} {regs : List RegNum} {k : Out} (hk : OutInv k) : OutInv (fpGuard mips4 regs s k) :=
  requireCu1_inv hs (requireFpMips4_inv hs (requireEven_inv hk))

theorem fpGuardLong_inv {regs : List RegNum} {k : Out} (hk : OutInv k) : OutInv (fpGuardLong regs s k) :=
  requireIs64_inv hs (fpGuard_inv hs hk)

theorem fpGuardCop1x_inv {regs : List RegNum} {k : Out} (hk : OutInv k) : OutInv (fpGuardCop1x regs s k) :=
  requireMips4_inv hs (requireCu1_inv hs (requireEven_inv hk))

theorem fpFinish_inv {unimpl : Bool} {flags : FpFlags} {store : State → State} (hstore : ∀ t : State, Inv t → Inv (store t)) :
    OutInv (fpFinish unimpl flags store s) := by
  unfold fpFinish
  show Inv (if _ then _ else _)
  split
  · simpa using hs
  · exact (inv_advance _).2 (hstore _ (by simpa using hs))

theorem fpResult_inv {isWide : Bool} {fd : RegNum} {r : FpResult} : OutInv (fpResult isWide fd r s) :=
  fpFinish_inv ((inv_drew s 1).2 hs) fun t ht => (inv_writeFpr t _ _ _).2 ht

theorem fpBinary_inv {fmt : FpFmt} {op : Fcr31 → FpFmt → Dword → Dword → Dword → FpResult} {ft fs fd : RegNum} :
    OutInv (fpBinary fmt op ft fs fd s) := fpGuard_inv hs (fpResult_inv hs)

theorem fpUnary_inv {mips4 : Bool} {fmt : FpFmt} {op : Fcr31 → FpFmt → Dword → Dword → FpResult} {fs fd : RegNum} :
    OutInv (fpUnary mips4 fmt op fs fd s) := fpGuard_inv hs (fpResult_inv hs)

theorem fpMultiplyAdd_inv {fmt : FpFmt} {sub negate : Bool} {fr ft fs fd : RegNum} :
    OutInv (fpMultiplyAdd fmt sub negate fr ft fs fd s) := fpGuardCop1x_inv hs (fpResult_inv hs)

theorem fpConvert_inv {regs : List RegNum} {isWide : Bool} {fd : RegNum} {r : FpResult} :
    OutInv (fpGuard false regs s (fpResult isWide fd r s)) := fpGuard_inv hs (fpResult_inv hs)

theorem fpConvertLong_inv {regs : List RegNum} {isWide : Bool} {fd : RegNum} {r : FpResult} :
    OutInv (fpGuardLong regs s (fpResult isWide fd r s)) := fpGuardLong_inv hs (fpResult_inv hs)

theorem fpCompareInto_inv {fmt : FpFmt} {cond : BitVec 4} {ft fs : RegNum} {cc : BitVec 3} :
    OutInv (fpCompareInto fmt cond ft fs cc s) :=
  fpGuard_inv hs (fpFinish_inv hs fun t ht => (inv_writeFcc t _ _).2 ht)

theorem fpBranch_inv {likely tf : Bool} {cc : BitVec 3} {offset : BitVec 16} : OutInv (fpBranch likely tf cc offset s) := by
  refine requireCu1_inv hs (requireFpMips4_inv hs ?_)
  split
  · exact branchLikely_inv hs
  · exact jumpTo_inv hs

theorem inv_fpCopy {fmt : FpFmt} {fs fd : RegNum} : Inv (fpCopy fmt fs fd s) := (inv_writeFpr s _ _ _).2 hs

theorem fpMoveIf_inv {fmt : FpFmt} {c : Bool} {fs fd : RegNum} : OutInv (fpMoveIf fmt c fs fd s) := by
  refine fpGuard_inv hs (complete_inv ?_)
  split
  · exact inv_fpCopy hs
  · exact hs

theorem fpLoad_inv {isWide : Bool} {f : RegNum} {x : Except Stop (Dword × State)} (hx : OpSide s (·.2) x) :
    OutInv (fpLoad isWide f x) :=
  onOk_inv (.of_side hs hx) fun vs ht => complete_inv ((inv_writeFpr vs.2 _ _ _).2 ht)

theorem sameRegion_inv {kind : AccessKind} {baseValue va : Dword} {k : Out} (hk : OutInv k) :
    OutInv (sameRegion kind baseValue va s k) := by
  unfold sameRegion
  split
  · exact raise_inv hs
  · exact hk

theorem execCfc1_inv {rt fs : RegNum} : OutInv (execCfc1 rt fs s) := by
  refine fpGuard_inv hs ?_
  split
  · exact writeResult_inv hs
  · split
    · exact writeResult_inv hs
    · exact writeResult_inv ((inv_drew s 1).2 hs)

theorem execCtc1_inv {rt fs : RegNum} : OutInv (execCtc1 rt fs s) := by
  have hw := (inv_writeFcr31 s (low32 (readGpr s rt))).2 hs
  refine fpGuard_inv hs ?_
  dsimp only
  split
  · split
    · exact raise_inv hw
    · exact complete_inv hw
  · exact complete_inv hs

/-! ### Coprocessor 0 -/

theorem moveFromCp0_inv {r : RegNum} {x : Option Word} : OutInv (moveFromCp0 r x s) := by
  unfold moveFromCp0
  split
  · exact writeResult_inv hs
  · exact writeResult_inv ((inv_drew s 1).2 hs)

theorem inv_writeStatus {w : Word} : Inv (writeStatus w s) := by
  unfold writeStatus
  dsimp only
  split
  · exact inv_of_part hs rfl
  · exact inv_of_part ((inv_scrambleFgr s).2 hs) rfl

theorem inv_writeConfig {w : Word} : Inv (writeConfig w s) := by
  unfold writeConfig
  dsimp only
  split
  · exact inv_of_part (inv_emptyT hs (s.caches.tcEpoch + 1) false) rfl
  · exact inv_of_part hs rfl

/-- A write of `Wired` sets `Random` to its upper bound (10_state.md rule R130). -/
theorem inv_writeWired {wired : BitVec 6} : Inv { s with cp0 := { s.cp0 with wired := wired, random := tlbTop s } } :=
  { hs with random := ⟨BitVec.le_refl _, id⟩ }

theorem inv_writeCp0 {n : RegNum} {v : Dword} : Inv (writeCp0 n v s) := by
  unfold writeCp0
  dsimp only
  split
  case h_6 => exact inv_writeWired hs
  case h_7 =>
    split
    · exact inv_of_part hs rfl
    · exact hs
  case h_11 => exact inv_writeStatus hs
  case h_14 => exact inv_writeConfig hs
  all_goals exact inv_of_part hs rfl

theorem inv_writeCp0Control {n : RegNum} {w : Word} : Inv (writeCp0Control n w s) := by
  refine inv_of_part hs ?_
  unfold writeCp0Control
  split <;> rfl

theorem execDmfc0_inv {rt rd : RegNum} : OutInv (execDmfc0 rt rd s) := by
  refine requireIs64_inv hs (requireCp0_inv hs ?_)
  split
  · exact writeResult_inv hs
  · exact writeResult_inv ((inv_drew s 1).2 hs)

theorem execDmtc0_inv {rt rd : RegNum} : OutInv (execDmtc0 rt rd s) := by
  refine requireIs64_inv hs (requireCp0_inv hs ?_)
  split
  · exact complete_inv (inv_writeCp0 hs)
  · exact complete_inv (inv_writeCp0 ((inv_drew s 1).2 hs))

theorem execTlbp_inv : OutInv (execTlbp s) := by
  refine requireCp0_inv hs ?_
  split
  · exact complete_inv (inv_of_part hs rfl)
  · exact complete_inv (inv_of_part hs rfl)
  · trivial

theorem execTlbr_inv : OutInv (execTlbr s) := by
  refine requireCp0_inv hs ?_
  dsimp only
  split
  · trivial
  · exact complete_inv ((inv_loadRegs s _).2 hs)

theorem execTlbwi_inv : OutInv (execTlbwi s) := by
  refine requireCp0_inv hs ?_
  dsimp only
  split
  · trivial
  · exact complete_inv ((inv_writeTlb s _ _).2 hs)

theorem execTlbwr_inv : OutInv (execTlbwr s) := by
  refine requireCp0_inv hs ?_
  split
  · trivial
  · exact complete_inv ((inv_writeTlb s _ _).2 hs)

theorem execEret_inv : OutInv (execEret s) := by
  refine requireCp0_inv hs ?_
  split
  · trivial
  · exact (inv_returnFromException s).2 hs

theorem execWait_inv : OutInv (execWait s) := by
  refine requireCp0_inv hs (complete_inv ?_)
  split
  · exact (inv_setStandby s true).2 hs
  · exact hs

end Answers

/-! ## `CACHE` -/

section CacheInstruction

variable {s : State} (hs : Inv s)
include hs

/-- A `CACHE` instruction keeps the invariant if its operation does. -/
theorem withCacheOperand_inv {userForm : Bool} {base : RegNum} {offset : BitVec 16}
    {op : Dword → PAddr → BitVec 3 → State → Except Stop State} (hop : ∀ va pa attr, OpInv id (op va pa attr s)) :
    OutInv (withCacheOperand userForm base offset s op) := by
  unfold withCacheOperand requireCache
  split
  · exact onOk_inv (.of_side hs (translate_side .load _ s)) fun t _ =>
      onOk_inv (hop _ t.1 t.2) fun u hu => complete_inv ((inv_breakLink u .cacheOp).2 hu)
  · exact raise_inv hs

omit hs in
theorem perLevel_inv {transparent explicit : Except Stop State} (ht : OpInv id transparent) (he : OpInv id explicit) :
    OpInv id (perLevel s transparent explicit) := by
  unfold perLevel
  split
  · exact he
  · exact ht

omit hs in
theorem needS_inv {x : Except Stop State} (hx : OpInv id x) : OpInv id (needS s x) := by
  unfold needS
  split
  · exact hx
  · trivial

omit hs in
theorem needT_inv {x : Except Stop State} (hx : OpInv id x) : OpInv id (needT s x) := by
  unfold needT
  split
  · exact hx
  · trivial

/-- A lookup of the data cache stops only with a fault. -/
theorem lookupD_inv {pa : PAddr} : OpInv (fun _ => s) (lookupD s pa) := by
  cases h : lookupD s pa with
  | ok a => exact hs
  | error e => rw [lookupD_error s pa e h]; trivial

theorem lookupI_inv {pa : PAddr} : OpInv (fun _ => s) (lookupI s pa) := by
  cases h : lookupI s pa with
  | ok a => exact hs
  | error e => rw [lookupI_error s pa e h]; trivial

theorem inv_invalidateD {k : Nat} : Inv (invalidateD k s) := inv_putD hs _ _
theorem inv_invalidateI {k : Nat} : Inv (invalidateI k s) := inv_putI hs _ _
theorem inv_invalidateS {k : Nat} : Inv (invalidateS k s) := inv_putS hs _ _

theorem inv_storeTagT {k : Nat} : Inv (storeTagT k s) := inv_putT hs _ _

theorem inv_transparentHitD {pa : PAddr} : Inv (transparentHitD pa s) := inv_memSide (MemSide_transparentHitD s pa) hs

theorem inv_transparentWritebackS {pa : PAddr} : Inv (transparentWritebackS pa s) := by
  obtain ⟨stale, h⟩ := transparentWritebackS_eq pa s
  rw [h]
  exact inv_of_part hs rfl

theorem inv_transparentWritebackInvalidateS {pa : PAddr} : Inv (transparentWritebackInvalidateS pa s) := by
  obtain ⟨stale, h⟩ := transparentWritebackInvalidateS_eq pa s
  rw [h]
  exact inv_of_part hs rfl

theorem inv_transparentInvalidateS {pa : PAddr} : Inv (transparentInvalidateS pa s) :=
  inv_discard (inv_of_part (t := transparentCh s) hs rfl) _

theorem invalidateMatchingD_inv {pa : PAddr} : OpInv id (invalidateMatchingD pa s) := by
  unfold invalidateMatchingD
  split
  · next e h => exact (lookupD_inv hs).error h
  · exact inv_invalidateD hs
  · exact hs

/-- The writeback of a data-cache line that is written back only on a condition. -/
theorem maybeWritebackD_inv {c : Bool} {a : PAddr} {x : DLine} :
    OpInv id (if c then writebackD a x s else .ok s) :=
  .of_side hs (maybeWrite_side c _ s (writebackD_side a x s))

/-- The writeback of a secondary line that is written back only on a condition. -/
theorem maybeWriteBelow_inv {c : Bool} {a : PAddr} {v : BitVec 256} :
    OpInv id (if c then writeBelow a v s else .ok s) :=
  .of_side hs (maybeWrite_side c _ s (writeBelow_side a v s))

theorem newestS_inv {k : Nat} {pa : PAddr} : OpInv (fun _ => s) (newestS k pa s) := by
  unfold newestS
  split
  · next e h => exact (lookupD_inv hs).error h
  · exact hs
  · exact hs

/-! ### Operations by index -/

theorem execCacheIndexInvalidateI_inv {base : RegNum} {offset : BitVec 16} :
    OutInv (execCacheIndexInvalidateI base offset s) :=
  withCacheOperand_inv hs fun _ _ _ => perLevel_inv hs (inv_invalidateI hs)

theorem execCacheIndexWritebackInvalidateD_inv {base : RegNum} {offset : BitVec 16} :
    OutInv (execCacheIndexWritebackInvalidateD base offset s) := by
  refine withCacheOperand_inv hs fun va pa attr => perLevel_inv hs ?_
  dsimp only
  split
  · trivial
  · split
    · next e h => exact (maybeWritebackD_inv hs).error h
    · next t h => exact inv_modifyParityD (inv_invalidateD ((maybeWritebackD_inv hs).ok h)) _ _

theorem execCacheFlashInvalidateT_inv {base : RegNum} {offset : BitVec 16} :
    OutInv (execCacheFlashInvalidateT base offset s) :=
  withCacheOperand_inv hs fun _ _ _ => needT_inv (perLevel_inv (inv_discard hs _) (inv_emptyT hs _ _))

theorem execCacheIndexWritebackInvalidateS_inv {base : RegNum} {offset : BitVec 16} :
    OutInv (execCacheIndexWritebackInvalidateS base offset s) := by
  refine withCacheOperand_inv hs fun va pa attr => needS_inv (perLevel_inv hs ?_)
  dsimp only
  split
  · next e h => exact (maybeWriteBelow_inv hs).error h
  · next t h => exact inv_modifyParityS (inv_invalidateS ((maybeWriteBelow_inv hs).ok h)) _ _

theorem execCacheIndexLoadTagI_inv {base : RegNum} {offset : BitVec 16} :
    OutInv (execCacheIndexLoadTagI base offset s) :=
  withCacheOperand_inv hs fun _ _ _ => perLevel_inv ((inv_freeTags s).2 hs) ((inv_setTags _ _ _ _).2 ((inv_drew s 1).2 hs))

theorem execCacheIndexLoadTagD_inv {base : RegNum} {offset : BitVec 16} :
    OutInv (execCacheIndexLoadTagD base offset s) :=
  withCacheOperand_inv hs fun _ _ _ => perLevel_inv ((inv_freeTags s).2 hs) ((inv_setTags s _ _ _).2 hs)

theorem execCacheIndexLoadTagT_inv {base : RegNum} {offset : BitVec 16} :
    OutInv (execCacheIndexLoadTagT base offset s) :=
  withCacheOperand_inv hs fun _ _ _ =>
    needT_inv (perLevel_inv ((inv_freeTags s).2 hs) ((inv_setTags _ _ _ _).2 ((inv_drew s 1).2 hs)))

theorem execCacheIndexLoadTagS_inv {base : RegNum} {offset : BitVec 16} :
    OutInv (execCacheIndexLoadTagS base offset s) :=
  withCacheOperand_inv hs fun _ _ _ =>
    needS_inv (perLevel_inv ((inv_freeTags s).2 hs) ((inv_setTags _ _ _ _).2 ((inv_drew s 1).2 hs)))

theorem execCacheIndexStoreTagI_inv {base : RegNum} {offset : BitVec 16} :
    OutInv (execCacheIndexStoreTagI base offset s) :=
  withCacheOperand_inv hs fun _ _ _ => perLevel_inv hs (inv_putI hs _ _)

theorem execCacheIndexStoreTagD_inv {base : RegNum} {offset : BitVec 16} :
    OutInv (execCacheIndexStoreTagD base offset s) :=
  withCacheOperand_inv hs fun _ _ _ => perLevel_inv (inv_discard hs _) (inv_putD hs _ _)

theorem execCacheIndexStoreTagT_inv {base : RegNum} {offset : BitVec 16} :
    OutInv (execCacheIndexStoreTagT base offset s) :=
  withCacheOperand_inv hs fun _ _ _ => needT_inv (perLevel_inv (inv_discard hs _) (inv_storeTagT hs))

theorem execCacheIndexStoreTagS_inv {base : RegNum} {offset : BitVec 16} :
    OutInv (execCacheIndexStoreTagS base offset s) :=
  withCacheOperand_inv hs fun _ _ _ => needS_inv (perLevel_inv (inv_discard hs _) (inv_putS hs _ _))

theorem execCachePageInvalidateT_inv {base : RegNum} {offset : BitVec 16} :
    OutInv (execCachePageInvalidateT base offset s) := by
  refine withCacheOperand_inv hs fun va pa attr => needT_inv ?_
  split
  · trivial
  · exact perLevel_inv (inv_discard hs _) (inv_memSide (MemSide_foldl _ (fun _ _ => MemSide_putT _ _ _) _ s) hs)

/-! ### Operations on an address -/

theorem execCacheCreateDirtyExclusiveD_inv {base : RegNum} {offset : BitVec 16} :
    OutInv (execCacheCreateDirtyExclusiveD base offset s) := by
  refine withCacheOperand_inv hs fun va pa attr =>
    perLevel_inv (inv_memSide (MemSide_transparentCreate s pa) hs) ?_
  have hevict : OpInv (·.2) (evictD pa false s) := .of_side hs (evictD_side pa false s)
  split
  · next e h => exact (lookupD_inv hs).error h
  · exact inv_putD hs _ _
  · split
    · next e h => exact hevict.error h
    · next slot t h => exact inv_putD ((inv_drew t 5).2 (hevict.ok h)) _ _

theorem execCacheHitInvalidateI_inv {base : RegNum} {offset : BitVec 16} :
    OutInv (execCacheHitInvalidateI base offset s) := by
  refine withCacheOperand_inv hs fun va pa attr => perLevel_inv hs ?_
  split
  · next e h => exact (lookupI_inv hs).error h
  · exact inv_invalidateI hs
  · exact hs

theorem execCacheHitInvalidateD_inv {base : RegNum} {offset : BitVec 16} :
    OutInv (execCacheHitInvalidateD base offset s) :=
  withCacheOperand_inv hs fun _ _ _ => perLevel_inv (inv_discard hs _) (invalidateMatchingD_inv hs)

theorem execCacheHitInvalidateS_inv {base : RegNum} {offset : BitVec 16} :
    OutInv (execCacheHitInvalidateS base offset s) := by
  refine withCacheOperand_inv hs fun va pa attr => needS_inv (perLevel_inv (inv_transparentInvalidateS hs) ?_)
  split
  · exact invalidateMatchingD_inv ((inv_setCh _ true).2 (inv_invalidateS hs))
  · exact (inv_setCh s false).2 hs

/-- The state a `Fill_I` fills from: a line already present is gone. -/
theorem inv_invalidateHitI {hit : Option Nat} : Inv (match hit with | some k => invalidateI k s | none => s) := by
  cases hit with
  | none => exact hs
  | some k => exact inv_invalidateI hs

theorem execCacheFillI_inv {base : RegNum} {offset : BitVec 16} : OutInv (execCacheFillI base offset s) := by
  refine withCacheOperand_inv hs fun va pa attr => perLevel_inv ?_ ?_
  · split
    · next e h => exact (OpInv.of_side hs (readable_side false pa s)).error h
    · exact hs
  · split
    · next e h => exact (lookupI_inv hs).error h
    · next hit h =>
      have hfill {u : State} (hu : Inv u) : OpInv (·.2) (fillI pa attr true u) := .of_side hu (fillI_side pa attr true u)
      split
      · exact hs
      · next e _ h' => exact (hfill (inv_invalidateHitI hs (hit := hit))).error h'
      · next k t h' => exact inv_modifyParityI ((hfill (inv_invalidateHitI hs (hit := hit))).ok h') _ _

theorem execCacheHitWritebackInvalidateD_inv {base : RegNum} {offset : BitVec 16} :
    OutInv (execCacheHitWritebackInvalidateD base offset s) := by
  refine withCacheOperand_inv hs fun va pa attr => perLevel_inv (inv_transparentHitD hs) ?_
  split
  · next e h => exact (lookupD_inv hs).error h
  · exact hs
  · dsimp only
    split
    · next e h => exact (maybeWritebackD_inv hs).error h
    · next t h => exact inv_modifyParityD (inv_invalidateD ((maybeWritebackD_inv hs).ok h)) _ _

theorem execCacheHitWritebackInvalidateS_inv {base : RegNum} {offset : BitVec 16} :
    OutInv (execCacheHitWritebackInvalidateS base offset s) := by
  refine withCacheOperand_inv hs fun va pa attr =>
    needS_inv (perLevel_inv (inv_transparentWritebackInvalidateS hs) ?_)
  split
  · exact (inv_setCh s false).2 hs
  · split
    · next e h => exact (newestS_inv hs).error h
    · dsimp only
      split
      · next e h => exact (maybeWriteBelow_inv hs).error h
      · next t h =>
        have ht := (maybeWriteBelow_inv hs).ok h
        exact invalidateMatchingD_inv ((inv_setCh _ true).2 (inv_modifyParityS (inv_invalidateS ht) _ _))

theorem execCacheHitWritebackI_inv {base : RegNum} {offset : BitVec 16} :
    OutInv (execCacheHitWritebackI base offset s) := by
  refine withCacheOperand_inv hs fun va pa attr => perLevel_inv hs ?_
  split
  · next e h => exact (lookupI_inv hs).error h
  · exact hs
  · exact inv_modifyParityI hs _ _

theorem execCacheHitWritebackD_inv {base : RegNum} {offset : BitVec 16} :
    OutInv (execCacheHitWritebackD base offset s) := by
  refine withCacheOperand_inv hs fun va pa attr => perLevel_inv (inv_transparentHitD hs) ?_
  split
  · next e h => exact (lookupD_inv hs).error h
  · exact hs
  · dsimp only
    split
    · next e h => exact (maybeWritebackD_inv hs).error h
    · next t h => exact inv_modifyParityD (inv_putD ((maybeWritebackD_inv hs).ok h) _ _) _ _

/-- The data-cache line a secondary writeback took its data from is clean afterwards. -/
theorem inv_cleanD {d : Option Nat} :
    Inv (match d with
      | some k => putD k { dLine s k with w := false } s
      | none => s) := by
  cases d with
  | none => exact hs
  | some k => exact inv_putD hs _ _

theorem execCacheHitWritebackS_inv {base : RegNum} {offset : BitVec 16} :
    OutInv (execCacheHitWritebackS base offset s) := by
  refine withCacheOperand_inv hs fun va pa attr => needS_inv (perLevel_inv (inv_transparentWritebackS hs) ?_)
  split
  · exact (inv_setCh s false).2 hs
  · split
    · split
      · next e h => exact (newestS_inv hs).error h
      · split
        · next e h => exact (OpInv.of_side hs (writeBelow_side _ _ s)).error h
        · next t h =>
          have ht : Inv t := (OpInv.of_side hs (writeBelow_side _ _ s)).ok h
          exact (inv_setCh _ true).2 (inv_modifyParityS (inv_cleanD (inv_putS ht _ _)) _ _)
    · exact (inv_setCh _ true).2 (inv_modifyParityS hs _ _)

theorem noOperation_inv {base : RegNum} {offset : BitVec 16} : OutInv (noOperation base offset s) :=
  withCacheOperand_inv hs fun _ _ _ => trivial

end CacheInstruction

/-! ## Every instruction -/

/-- No instruction breaks the invariant: the arms of `exec`, by the shared operation each one ends in. -/
theorem exec_inv {s : State} (hs : Inv s) (i : Instr) : OutInv (exec i s) := by
  cases i with
  -- integer computation
  | add | sub | addi => exact trappingWord_inv hs
  | addu | subu | addiu | sll | srl | sra | sllv | srlv | srav => exact wordResult_inv hs
  | dadd | dsub | daddi => exact trappingDword_inv hs
  | daddu | dsubu | daddiu | dsll | dsrl | dsra | dsll32 | dsrl32 | dsra32 | dsllv | dsrlv | dsrav =>
    exact requireIs64_inv hs (writeResult_inv hs)
  | slt | sltu | slti | sltiu | and | or | xor | nor | andi | ori | xori | lui | mfhi | mflo => exact writeResult_inv hs
  | mul => exact writeResult_inv ((inv_writeHiLo _ _ _).2 ((inv_drew s 2).2 hs))
  | mult | multu | div | divu => exact hiLoOrFree_inv hs
  | dmult | dmultu => exact requireIs64_inv hs (completeHiLo_inv hs)
  | ddiv | ddivu => exact requireIs64_inv hs (freeOrHiLo_inv hs)
  | mthi | mtlo | mad | madu => exact completeHiLo_inv hs
  | movn | movz => exact requireMips4_inv hs (moveIf_inv hs)
  | movf | movt => exact requireMips4_inv hs (requireCu1_inv hs (moveIf_inv hs))
  -- jumps and branches
  | j | jr | beq | bne | blez | bgtz | bltz | bgez => exact jumpTo_inv hs
  | jal | jalr | bltzal | bgezal => exact jumpTo_inv ((inv_link s _).2 hs)
  | beql | bnel | blezl | bgtzl | bltzl | bgezl => exact branchLikely_inv hs
  | bltzall | bgezall => exact branchLikely_inv ((inv_link s 31).2 hs)
  -- traps, absent coprocessor
  | syscall | brk => exact raise_inv hs
  | sync => exact complete_inv hs
  | tge | tgeu | tlt | tltu | teq | tne | tgei | tgeiu | tlti | tltiu | teqi | tnei => exact trapIf_inv hs
  | lwc2 | ldc2 | swc2 | sdc2 | cop2 => exact absentCop2_inv hs
  -- loads, stores, prefetch
  | lb | lbu | lh | lhu | lw => exact loadInto_inv hs (loadData_side _ _ s)
  | lwu | ld => exact requireIs64_inv hs (loadInto_inv hs (loadData_side _ _ s))
  | lwl base rt offset => exact (loadInto_inv hs (loadLeft_side 4 _ s) : OutInv (execLwl base rt offset s))
  | lwr base rt offset => exact (loadInto_inv hs (loadRight_side 4 _ s) : OutInv (execLwr base rt offset s))
  | ldl => exact requireIs64_inv hs (loadInto_inv hs (loadLeft_side _ _ s))
  | ldr => exact requireIs64_inv hs (loadInto_inv hs (loadRight_side _ _ s))
  | sb | sh | sw => exact storeDone_inv hs (storeData_side _ _ _ s)
  | sd => exact requireIs64_inv hs (storeDone_inv hs (storeData_side _ _ _ s))
  | swl => exact storeDone_inv hs (storeLeft_side _ _ _ s)
  | swr => exact storeDone_inv hs (storeRight_side _ _ _ s)
  | sdl => exact requireIs64_inv hs (storeDone_inv hs (storeLeft_side _ _ _ s))
  | sdr => exact requireIs64_inv hs (storeDone_inv hs (storeRight_side _ _ _ s))
  | ll => exact loadLinked_inv hs
  | lld => exact requireIs64_inv hs (loadLinked_inv hs)
  | sc => exact storeConditional_inv hs
  | scd => exact requireIs64_inv hs (storeConditional_inv hs)
  | pref => exact requireMips4_inv hs (prefetch_inv hs)
  | prefx => exact requireMips4_inv hs (requireCu1_inv hs (prefetch_inv hs))
  -- `CACHE`
  | cacheIndexInvalidateI => exact execCacheIndexInvalidateI_inv hs
  | cacheIndexWritebackInvalidateD => exact execCacheIndexWritebackInvalidateD_inv hs
  | cacheFlashInvalidateT => exact execCacheFlashInvalidateT_inv hs
  | cacheIndexWritebackInvalidateS => exact execCacheIndexWritebackInvalidateS_inv hs
  | cacheIndexLoadTagI => exact execCacheIndexLoadTagI_inv hs
  | cacheIndexLoadTagD => exact execCacheIndexLoadTagD_inv hs
  | cacheIndexLoadTagT => exact execCacheIndexLoadTagT_inv hs
  | cacheIndexLoadTagS => exact execCacheIndexLoadTagS_inv hs
  | cacheIndexStoreTagI => exact execCacheIndexStoreTagI_inv hs
  | cacheIndexStoreTagD => exact execCacheIndexStoreTagD_inv hs
  | cacheIndexStoreTagT => exact execCacheIndexStoreTagT_inv hs
  | cacheIndexStoreTagS => exact execCacheIndexStoreTagS_inv hs
  | cacheCreateDirtyExclusiveD => exact execCacheCreateDirtyExclusiveD_inv hs
  | cacheHitInvalidateI => exact execCacheHitInvalidateI_inv hs
  | cacheHitInvalidateD => exact execCacheHitInvalidateD_inv hs
  | cacheHitInvalidateS => exact execCacheHitInvalidateS_inv hs
  | cacheFillI => exact execCacheFillI_inv hs
  | cacheHitWritebackInvalidateD => exact execCacheHitWritebackInvalidateD_inv hs
  | cachePageInvalidateT => exact execCachePageInvalidateT_inv hs
  | cacheHitWritebackInvalidateS => exact execCacheHitWritebackInvalidateS_inv hs
  | cacheHitWritebackI => exact execCacheHitWritebackI_inv hs
  | cacheHitWritebackD => exact execCacheHitWritebackD_inv hs
  | cacheHitWritebackS => exact execCacheHitWritebackS_inv hs
  | cacheOp0C | cacheOp0E | cacheOp0F | cacheOp12 | cacheOp1A | cacheOp1C | cacheOp1D | cacheOp1E | cacheOp1F =>
    exact noOperation_inv hs
  -- coprocessor 0
  | mfc0 | cfc0 => exact requireCp0_inv hs (moveFromCp0_inv hs)
  | mtc0 => exact requireCp0_inv hs (complete_inv (inv_writeCp0 hs))
  | ctc0 => exact requireCp0_inv hs (complete_inv (inv_writeCp0Control hs))
  | dmfc0 => exact execDmfc0_inv hs
  | dmtc0 => exact execDmtc0_inv hs
  | tlbr => exact execTlbr_inv hs
  | tlbwi => exact execTlbwi_inv hs
  | tlbwr => exact execTlbwr_inv hs
  | tlbp => exact execTlbp_inv hs
  | eret => exact execEret_inv hs
  | wait => exact execWait_inv hs
  -- floating point
  | mfc1 => exact fpGuard_inv hs (writeResult_inv hs)
  | mtc1 => exact fpGuard_inv hs (complete_inv ((inv_writeFprWord s _ _).2 hs))
  | dmfc1 => exact fpGuardLong_inv hs (writeResult_inv hs)
  | dmtc1 => exact fpGuardLong_inv hs (complete_inv ((inv_writeFprDword s _ _).2 hs))
  | cfc1 => exact execCfc1_inv hs
  | ctc1 => exact execCtc1_inv hs
  | bc1f | bc1t | bc1fl | bc1tl => exact fpBranch_inv hs
  | lwc1 | ldc1 => exact fpGuard_inv hs (fpLoad_inv hs (loadData_side _ _ s))
  | swc1 | sdc1 => exact fpGuard_inv hs (storeDone_inv hs (storeData_side _ _ _ s))
  | lwxc1 | ldxc1 => exact fpGuardCop1x_inv hs (sameRegion_inv hs (fpLoad_inv hs (loadData_side _ _ s)))
  | swxc1 | sdxc1 => exact fpGuardCop1x_inv hs (sameRegion_inv hs (storeDone_inv hs (storeData_side _ _ _ s)))
  | addS ft fs fd => exact (fpBinary_inv hs : OutInv (execAddS ft fs fd s))
  | addD ft fs fd => exact (fpBinary_inv hs : OutInv (execAddD ft fs fd s))
  | subS ft fs fd => exact (fpBinary_inv hs : OutInv (execSubS ft fs fd s))
  | subD ft fs fd => exact (fpBinary_inv hs : OutInv (execSubD ft fs fd s))
  | mulS | mulD | divS | divD => exact fpBinary_inv hs
  | absS fs fd => exact (fpUnary_inv hs : OutInv (execAbsS fs fd s))
  | absD fs fd => exact (fpUnary_inv hs : OutInv (execAbsD fs fd s))
  | negS fs fd => exact (fpUnary_inv hs : OutInv (execNegS fs fd s))
  | negD fs fd => exact (fpUnary_inv hs : OutInv (execNegD fs fd s))
  | sqrtS | sqrtD | recipS | recipD | rsqrtS | rsqrtD => exact fpUnary_inv hs
  | maddS | maddD | msubS | msubD | nmaddS | nmaddD | nmsubS | nmsubD => exact fpMultiplyAdd_inv hs
  | roundWS | roundWD | truncWS | truncWD | ceilWS | ceilWD | floorWS | floorWD | cvtWS | cvtWD | cvtSD | cvtSW | cvtDS
  | cvtDW => exact fpConvert_inv hs
  | roundLS | roundLD | truncLS | truncLD | ceilLS | ceilLD | floorLS | floorLD | cvtLS | cvtLD | cvtSL | cvtDL =>
    exact fpConvertLong_inv hs
  | movS | movD => exact fpGuard_inv hs (complete_inv (inv_fpCopy hs))
  | movfS | movtS | movzS | movnS | movfD | movtD | movzD | movnD => exact fpMoveIf_inv hs
  | cFS | cUnS | cEqS | cUeqS | cOltS | cUltS | cOleS | cUleS | cSfS | cNgleS | cSeqS | cNglS | cLtS | cNgeS | cLeS
  | cNgtS | cFD | cUnD | cEqD | cUeqD | cOltD | cUltD | cOleD | cUleD | cSfD | cNgleD | cSeqD | cNglD | cLtD | cNgeD
  | cLeD | cNgtD => exact fpCompareInto_inv hs

/-! ## The phases of a step -/

section Phases

variable {s : State} (hs : Inv s)
include hs

theorem reservedEncoding_inv (r : Reserved) : OutInv (reservedEncoding r s) := by
  cases r with
  | cop0 => exact requireCp0_inv hs (raise_inv hs)
  | cop1 fmt funct =>
    show OutInv (if _ then _ else _)
    split
    · exact requireIs64_inv hs (requireCu1_inv hs (raiseUnimplemented_inv hs))
    · exact requireCu1_inv hs (raiseUnimplemented_inv hs)
  | cop1x => exact requireMips4_inv hs (requireCu1_inv hs (raiseUnimplemented_inv hs))
  | majorOpcode | special | regimm | rm7000 | truncated => exact raise_inv hs

theorem checkParity_inv (parity : Option ParityBits) (pa : PAddr) (attr : BitVec 3) :
    OpInv (fun _ => s) (checkParity parity pa attr s) := by
  unfold checkParity
  split
  · split
    · exact hs
    · exact (inv_fetchCacheErr s _ pa attr).2 hs
  · exact hs

theorem watchFetch_inv (pa : PAddr) : OpInv (fun _ => s) (watchFetch pa s) := by
  unfold watchFetch
  dsimp only
  split <;> exact hs

theorem fetch_inv (parity : Option ParityBits) : OpInv (fun a => a.2.2) (fetch parity s) := by
  unfold fetch
  split
  · next e h => exact (OpInv.of_side hs (translateAligned_side .fetch 4 s.pc s)).error h
  · next pa attr _ =>
    split
    · next e h => exact (checkParity_inv hs parity pa attr).error h
    · have hread : OpInv (·.2) (fetchRead pa attr s) := .of_side hs (fetchRead_side pa attr s)
      split
      · next e h => exact hread.error h
      · next raw t h =>
        have ht : Inv t := hread.ok h
        split
        · next e h' => exact (watchFetch_inv ht pa).error h'
        · exact ht

theorem runInstr_inv (i : Instr) (attr : BitVec 3) : OutInv (runInstr i attr s) := by
  unfold runInstr
  split
  · split
    · trivial
    · exact exec_inv ((inv_setHazards s _).2 hs) i
  · exact exec_inv hs i

theorem runReserved_inv (r : Reserved) : OutInv (runReserved r s) := by
  unfold runReserved
  split
  · trivial
  · exact reservedEncoding_inv hs r

omit hs in
theorem tickOut_inv {o : Out} (ho : OutInv o) (before : State) (executed random : Bool) :
    OutInv (tickOut before executed random o) := by
  cases o with
  | next t => exact inv_tick ho before executed random
  | fault _ => trivial
  | refused _ => trivial

theorem runWord_inv (before : State) (w : Word) (attr : BitVec 3) : OutInv (runWord before w attr s) := by
  unfold runWord
  split
  · exact tickOut_inv (runInstr_inv hs _ attr) _ _ _
  · exact tickOut_inv (runReserved_inv hs _) _ _ _

theorem fetchAndRun_inv (before : State) (parity : Option ParityBits) : OutInv (fetchAndRun before parity s) := by
  unfold fetchAndRun
  split
  · trivial
  · split
    · trivial
    · split
      · next e h => exact tickOut_inv (stopInv_answer ((fetch_inv hs parity).error h)) _ _ _
      · next w attr t h => exact runWord_inv ((fetch_inv hs parity).ok h) before w attr

theorem takeInterrupt_inv : OutInv (takeInterrupt s) := by
  unfold takeInterrupt
  split
  · split
    · exact (inv_takeException s _).2 hs
    · trivial
  · exact (inv_takeException s _).2 hs

theorem interruptOrRun_inv (before : State) (parity : Option ParityBits) : OutInv (interruptOrRun before parity s) := by
  unfold interruptOrRun
  split
  · exact tickOut_inv (takeInterrupt_inv hs) _ _ _
  · exact fetchAndRun_inv hs before parity

theorem reportError_inv (before : State) (parity : Option ParityBits) (e : ImpreciseError) :
    OutInv (reportError before parity e s) := by
  have hrec : Inv (recordError e s) := (inv_recordError s e).2 hs
  unfold reportError
  dsimp only
  split
  · exact tickOut_inv (raise_inv hrec) _ _ _
  · split
    · exact interruptOrRun_inv hrec before parity
    · exact tickOut_inv (o := .next _) ((inv_enterCacheError _).2 ((inv_loadParityBits _ _).2 hrec)) _ _ _

theorem errorOrRun_inv (before : State) (parity : Option ParityBits) : OutInv (errorOrRun before parity s) := by
  unfold errorOrRun
  split
  · exact interruptOrRun_inv hs before parity
  · exact reportError_inv ((inv_setPendingErrors s _).2 hs) before parity _

theorem standbyStep_inv (e : HostEvent) : OutInv (standbyStep e s) := by
  have hawake : Inv { s with standby := false } := (inv_setStandby s false).2 hs
  unfold standbyStep
  dsimp only
  split
  · exact takeInterrupt_inv hawake
  · split
    · exact hawake
    · exact hs

theorem afterEvent_inv (before : State) (e : HostEvent) : OutInv (afterEvent before e s) := by
  have hlevel : Inv { s with nmiLevel := nmiNow s } := (inv_setNmiLevel s _).2 hs
  unfold afterEvent
  dsimp only
  split
  · exact tickOut_inv (o := .next _) ((inv_enterSoftReset _).2 hlevel) _ _ _
  · split
    · exact tickOut_inv (standbyStep_inv hlevel e) _ _ _
    · exact errorOrRun_inv hlevel before _

/-! ### The board's events and the resets -/

/-- Another bus master writes a byte of memory. -/
theorem inv_dmaWrite (addr : PAddr) (value : Byte) : Inv (applyEvent (.dmaWrite addr value) s) := by
  refine (inv_breakLink _ _).2 ?_
  split
  · exact inv_of_kept hs (Memory_wf_write s.mem addr.toNat value) id rfl rfl rfl
  · exact hs

/-- A new `COUNT_STEP` is a positive amount. -/
theorem inv_setCountStep (n : Nat) : Inv (applyEvent (.setCountStep n) s) :=
  { hs with count := Nat.lt_of_lt_of_le Nat.one_pos (Nat.le_max_right n 1) }

theorem inv_applyEvent (e : HostEvent) : Inv (applyEvent e s) := by
  cases e with
  | quiet | coldReset | softReset | nullRequest | fetchParity => exact hs
  | pins | impreciseError | busIdle => exact inv_of_part hs rfl
  | externalWrite addr data =>
    show Inv (if _ then _ else _)
    split
    · exact inv_of_part hs rfl
    · exact hs
  | dmaWrite addr value => exact inv_dmaWrite hs addr value
  | linkEvent kind => exact (inv_breakLink s kind).2 hs
  | setCountStep n => exact inv_setCountStep hs n
  | setPerfStep n => exact { hs with }

omit hs in
/-- What a cold reset leaves in the fields the invariant reads, but for the parameters. -/
theorem enterColdReset_inv_fields (m : BitVec 256) (pin : Bool) (s : State) :
    let t := enterColdReset m pin s
    t.mem = (loseCacheState s).mem ∧ t.caches = (loseCacheState s).caches ∧ t.cp0.random = tlbTop t ∧ t.cp0.wired = 0 :=
  ⟨rfl, rfl, rfl, rfl⟩

/-- A cold reset sets `Random` and `Wired` to the two bounds and asks for 64 JTLB entries only where they exist
(70_reset_and_hazards.md rule R880). -/
theorem inv_enterColdReset (m : BitVec 256) (pin : Bool) : Inv (enterColdReset m pin s) := by
  have hlost : Inv (loseCacheState s) := inv_memSide (MemSide_loseCacheState s) hs
  obtain ⟨-, hparams⟩ := enterColdReset_pc_params m pin s
  obtain ⟨hmem, hcaches, hrandom, hwired⟩ := enterColdReset_inv_fields m pin s
  constructor
  · rw [dataWf, hmem, hcaches]
    exact hlost.data
  · rw [randomInRange, hrandom, hwired]
    exact ⟨BitVec.le_refl _, fun _ => Nat.zero_le _⟩
  · rw [countRuns, hparams]
    exact hs.count
  · rw [paramsOk, hparams]
    exact fun h => of_decide_eq_true (Bool.and_eq_true_iff.1 h).2

theorem coldReset_inv (m : BitVec 256) (pin : Bool) : OutInv (coldReset m pin s) := by
  unfold coldReset
  split
  · exact inv_enterColdReset hs m pin
  · trivial

theorem inv_softReset : Inv (softReset s) := by
  unfold softReset
  exact (inv_setNmiLevel _ _).2 ((inv_enterSoftReset _).2 (inv_memSide (MemSide_loseCacheState s) hs))

theorem cycle_inv (e : HostEvent) : OutInv (cycle e s) := by
  cases e with
  | coldReset m pin => exact coldReset_inv hs m pin
  | softReset => exact inv_softReset hs
  | quiet | pins | externalWrite | nullRequest | impreciseError | fetchParity | dmaWrite | linkEvent | busIdle
  | setCountStep | setPerfStep => exact afterEvent_inv (inv_applyEvent hs _) s _

theorem step_inv : OutInv (step s) := by
  unfold step stepOnce
  split
  · exact cycle_inv hs .quiet
  · next e es _ => exact cycle_inv ((inv_setEvents s es).2 hs) e

end Phases

/-- Settles O11: each phase of a step keeps the invariant, down to the instructions (`exec_inv`) and the counters
(`inv_tick`). -/
theorem stepKeepsTheInvariant : Obligations.StepKeepsTheInvariant :=
  fun _ _ hs hnext => (step_inv hs).next hnext

end Sys2Proof.Proofs

/-! # Memory: the segments, the JTLB, the fetch

`segment` is said once for each region of the address space, in numbers; the statements on segments are read off these
equations. A mapped address depends on the list `tlbMatches`, whose members `mem_tlbMatches` describes and whose length
the number of matching entries fixes. The fetch is a translation, a read and a Watch check in this order. -/

namespace Sys2Proof.Proofs

open Sys2Proof.Machine Sys2Proof.Safety Sys2Proof.Laws

/-! ## Fields of an address as numbers -/

theorem extractLsb'_toNat_div {w : Nat} (x : BitVec w) (start len : Nat) :
    (x.extractLsb' start len).toNat = x.toNat / 2 ^ start % 2 ^ len := by
  rw [BitVec.extractLsb'_toNat, Nat.shiftRight_eq_div_pow]

theorem extractLsb'_eq_zero_iff {w : Nat} (x : BitVec w) (start len : Nat) :
    x.extractLsb' start len = 0 ↔ x.toNat / 2 ^ start % 2 ^ len = 0 := by
  rw [← BitVec.toNat_inj, extractLsb'_toNat_div]
  rfl

theorem region_toNat (va : Dword) : (va.extractLsb' 62 2).toNat = va.toNat / 2 ^ 62 := by
  rw [extractLsb'_toNat_div]
  omega

theorem isLow_iff (va : Dword) : isLow va = true ↔ va.toNat < 2 ^ 31 := by
  rw [isLow, beq_iff_eq, extractLsb'_eq_zero_iff]
  omega

theorem isCompat_iff (va : Dword) : isCompat va = true ↔ 0xFFFFFFFF80000000 ≤ va.toNat := by
  rw [isCompat, beq_iff_eq, ← BitVec.toNat_inj, extractLsb'_toNat_div, BitVec.toNat_allOnes]
  omega

theorem is40_iff (va : Dword) : is40 va = true ↔ va.toNat / 2 ^ 40 % 2 ^ 22 = 0 := by
  rw [is40, beq_iff_eq, extractLsb'_eq_zero_iff]

/-! ## The segment decoder, region by region (20_memory.md rule R227) -/

/-- Outside Kernel mode `ERL` is 0 (60_exceptions.md rule R840). -/
theorem erl_of_mode_ne_kernel (s : State) (h : mode s ≠ .kernel) : s.cp0.status.erl = false := by
  cases herl : s.cp0.status.erl with
  | false => rfl
  | true => exact absurd (by simp [mode, State.status, herl]) h

theorem segment_region0 (s : State) (va : Dword) (h : va.toNat < 2 ^ 62) :
    Machine.segment s va =
      if s.cp0.status.erl = true ∧ va.toNat < 2 ^ 31 then .unmapped (BitVec.ofNat 36 va.toNat) 2
      else if va.toNat < (if s.cp0.status.ux then 2 ^ 40 else 2 ^ 31) then .mapped else .addressError := by
  have hr : (va.extractLsb' 62 2).toNat = 0 := by rw [region_toNat]; omega
  have h40 : is40 va = true ↔ va.toNat < 2 ^ 40 := by rw [is40_iff]; omega
  have hpa : va.toNat < 2 ^ 31 → (va.extractLsb' 0 31).zeroExtend 36 = BitVec.ofNat 36 va.toNat := fun hlow => by
    apply BitVec.eq_of_toNat_eq
    rw [BitVec.toNat_setWidth, extractLsb'_toNat_div, BitVec.toNat_ofNat]
    omega
  simp only [Machine.segment, hr, State.status, Bool.and_eq_true, isLow_iff, h40]
  by_cases hlow : s.cp0.status.erl = true ∧ va.toNat < 2 ^ 31
  · rw [if_pos hlow, if_pos hlow, hpa hlow.2]
  · rw [if_neg hlow, if_neg hlow]
    cases s.cp0.status.ux <;> rfl

theorem segment_region1 (s : State) (va : Dword) (hlo : 2 ^ 62 ≤ va.toNat) (hhi : va.toNat < 2 ^ 63) :
    Machine.segment s va =
      if mode s ≠ .user ∧ s.cp0.status.sx = true ∧ va.toNat < 2 ^ 62 + 2 ^ 40 then .mapped else .addressError := by
  have hr : (va.extractLsb' 62 2).toNat = 1 := by rw [region_toNat]; omega
  have h40 : is40 va = true ↔ va.toNat < 2 ^ 62 + 2 ^ 40 := by rw [is40_iff]; omega
  simp only [Machine.segment, hr, State.status, Bool.and_eq_true, h40]
  by_cases hm : mode s = .user
  · rw [if_pos hm, if_neg (fun h => h.1 hm)]
  · rw [if_neg hm]
    exact if_congr (by simp [hm]) rfl rfl

theorem segment_region2 (s : State) (va : Dword) (h : va.toNat / 2 ^ 62 = 2) :
    Machine.segment s va =
      if mode s = .kernel ∧ s.cp0.status.kx = true ∧ va.toNat / 2 ^ 36 % 2 ^ 23 = 0 then
        .unmapped (BitVec.ofNat 36 (va.toNat % 2 ^ 36)) (BitVec.ofNat 3 (va.toNat / 2 ^ 59 % 8))
      else .addressError := by
  have hr : (va.extractLsb' 62 2).toNat = 2 := by rw [region_toNat, h]
  have hpa : va.extractLsb' 0 36 = BitVec.ofNat 36 (va.toNat % 2 ^ 36) := by
    apply BitVec.eq_of_toNat_eq
    rw [extractLsb'_toNat_div, BitVec.toNat_ofNat]
    omega
  have hattr : va.extractLsb' 59 3 = BitVec.ofNat 3 (va.toNat / 2 ^ 59 % 8) := by
    apply BitVec.eq_of_toNat_eq
    rw [extractLsb'_toNat_div, BitVec.toNat_ofNat]
    omega
  simp only [Machine.segment, hr, State.status, Bool.and_eq_true, beq_iff_eq, decide_eq_true_eq,
    extractLsb'_eq_zero_iff, hpa, hattr, and_assoc]

theorem segment_xkseg (s : State) (va : Dword) (hlo : 3 * 2 ^ 62 ≤ va.toNat) (hhi : va.toNat < 0xFFFFFFFF80000000) :
    Machine.segment s va =
      if mode s = .kernel ∧ s.cp0.status.kx = true ∧ va.toNat < 3 * 2 ^ 62 + (2 ^ 40 - 2 ^ 31) then .mapped
      else .addressError := by
  have hr : (va.extractLsb' 62 2).toNat = 3 := by rw [region_toNat]; omega
  have hc : ¬isCompat va = true := by rw [isCompat_iff]; omega
  have htop : va.extractLsb' 31 9 = BitVec.allOnes 9 ↔ va.toNat / 2 ^ 31 % 2 ^ 9 = 2 ^ 9 - 1 := by
    rw [← BitVec.toNat_inj, extractLsb'_toNat_div, BitVec.toNat_allOnes]
  have hin : (va.toNat / 2 ^ 40 % 2 ^ 22 = 0 ∧ ¬va.toNat / 2 ^ 31 % 2 ^ 9 = 2 ^ 9 - 1) ↔
      va.toNat < 3 * 2 ^ 62 + (2 ^ 40 - 2 ^ 31) := by omega
  simp only [Machine.segment, hr, hc, State.status, Bool.and_eq_true, bne_iff_ne, ne_eq, decide_eq_true_eq, is40_iff, htop,
    and_assoc, hin, Bool.false_eq_true, if_false]

/-- The compatibility segments are told apart by bits 30:29. -/
theorem segment_compat (s : State) (va : Dword) (h : 0xFFFFFFFF80000000 ≤ va.toNat) :
    Machine.segment s va = compatSegment s va := by
  have hr : (va.extractLsb' 62 2).toNat = 3 := by rw [region_toNat]; omega
  simp only [Machine.segment, hr, (isCompat_iff va).2 h, if_true]

theorem compat_field (va : Dword) (k : Nat) (hk : k < 4) (hlo : 0xFFFFFFFF80000000 + k * 2 ^ 29 ≤ va.toNat)
    (hhi : va.toNat < 0xFFFFFFFF80000000 + (k + 1) * 2 ^ 29) : (va.extractLsb' 29 2).toNat = k := by
  rw [extractLsb'_toNat_div]
  omega

theorem ksegAddr_eq (va : Dword) (k : Nat) (hlo : 0xFFFFFFFF80000000 + k * 2 ^ 29 ≤ va.toNat)
    (hhi : va.toNat < 0xFFFFFFFF80000000 + (k + 1) * 2 ^ 29) :
    ksegAddr va = BitVec.ofNat 36 (va.toNat - (0xFFFFFFFF80000000 + k * 2 ^ 29)) := by
  apply BitVec.eq_of_toNat_eq
  rw [ksegAddr, BitVec.toNat_setWidth, extractLsb'_toNat_div, BitVec.toNat_ofNat]
  omega

theorem segment_kseg0 (s : State) (va : Dword) (hlo : 0xFFFFFFFF80000000 ≤ va.toNat) (hhi : va.toNat < 0xFFFFFFFFA0000000) :
    Machine.segment s va =
      if mode s = .kernel then .unmapped (BitVec.ofNat 36 (va.toNat - 0xFFFFFFFF80000000)) s.cp0.config.k0
      else .addressError := by
  rw [segment_compat s va hlo, compatSegment, compat_field va 0 (by omega) hlo hhi, ksegAddr_eq va 0 hlo hhi]
  rfl

theorem segment_kseg1 (s : State) (va : Dword) (hlo : 0xFFFFFFFFA0000000 ≤ va.toNat) (hhi : va.toNat < 0xFFFFFFFFC0000000) :
    Machine.segment s va =
      if mode s = .kernel then .unmapped (BitVec.ofNat 36 (va.toNat - 0xFFFFFFFFA0000000)) 2 else .addressError := by
  rw [segment_compat s va (by omega), compatSegment, compat_field va 1 (by omega) hlo hhi, ksegAddr_eq va 1 hlo hhi]
  rfl

theorem segment_ksseg (s : State) (va : Dword) (hlo : 0xFFFFFFFFC0000000 ≤ va.toNat) (hhi : va.toNat < 0xFFFFFFFFE0000000) :
    Machine.segment s va = if mode s = .user then .addressError else .mapped := by
  rw [segment_compat s va (by omega), compatSegment, compat_field va 2 (by omega) hlo hhi]
  rfl

theorem segment_kseg3 (s : State) (va : Dword) (h : 0xFFFFFFFFE0000000 ≤ va.toNat) :
    Machine.segment s va = if mode s = .kernel then .mapped else .addressError := by
  rw [segment_compat s va (by omega), compatSegment, compat_field va 3 (by omega) h (by omega)]
  rfl

/-! ## Translation by the answer of the segment decoder -/

theorem isStore_eq (kind : AccessKind) : kind.isStore = (kind == .store) := by
  cases kind <;> rfl

/-- Attributes 4 and 5 are reserved (20_memory.md rule R262). -/
theorem legalAttr_iff (attr : BitVec 3) : legalAttr attr = true ↔ ¬(attr = 4 ∨ attr = 5) := by
  simp [legalAttr]

theorem translate_addressError {s : State} {va : Dword} (kind : AccessKind) (h : Machine.segment s va = .addressError) :
    Machine.translate kind va s = .error (.exc (.adE (kind == .store) va) s) := by
  rw [Machine.translate, h, isStore_eq]

theorem translate_unmapped {s : State} {va : Dword} {pa : PAddr} {attr : BitVec 3} (kind : AccessKind)
    (h : Machine.segment s va = .unmapped pa attr) :
    Machine.translate kind va s =
      if attr = 4 ∨ attr = 5 then .error (.fault .reservedCacheAttribute) else .ok (pa, attr) := by
  simp only [Machine.translate, h, legalAttr_iff, ite_not]

/-- Settles O24: each clause is `translate_unmapped` with the equation of its segment. -/
theorem unmappedSegments : Obligations.UnmappedSegments := by
  intro s kind va
  refine ⟨fun hm hlo hhi => ?_, fun hm hlo hhi => ?_, fun herl hlow => ?_, fun hm hkx hr hgap => ?_⟩
  · exact translate_unmapped kind ((segment_kseg0 s va hlo hhi).trans (if_pos hm))
  · exact translate_unmapped kind ((segment_kseg1 s va hlo hhi).trans (if_pos hm))
  · exact translate_unmapped kind ((segment_region0 s va (by omega)).trans (if_pos ⟨herl, hlow⟩))
  · have hattr (c : Nat) (hc : c < 8) : BitVec.ofNat 3 (va.toNat / 2 ^ 59 % 8) = BitVec.ofNat 3 c ↔
        va.toNat / 2 ^ 59 % 8 = c := by
      rw [← BitVec.toNat_inj, BitVec.toNat_ofNat, BitVec.toNat_ofNat]
      omega
    rw [translate_unmapped kind ((segment_region2 s va hr).trans (if_pos ⟨hm, hkx, hgap⟩))]
    exact if_congr (or_congr (hattr 4 (by omega)) (hattr 5 (by omega))) rfl rfl

/-! ## The addresses no segment of the mode holds -/

theorem segment_region0_forbidden (s : State) (va : Dword) (hhi : va.toNat < 2 ^ 62)
    (hlo : (if s.cp0.status.ux then 2 ^ 40 else 2 ^ 31) ≤ va.toNat) : Machine.segment s va = .addressError := by
  have hlow : 2 ^ 31 ≤ va.toNat := by split at hlo <;> omega
  rw [segment_region0 s va hhi, if_neg (fun h => absurd h.2 (by omega)), if_neg (by omega)]

theorem segment_region1_forbidden (s : State) (va : Dword) (hlo : 2 ^ 62 ≤ va.toNat) (hhi : va.toNat < 2 ^ 63)
    (h : mode s = .user ∨ s.cp0.status.sx = false ∨ 2 ^ 62 + 2 ^ 40 ≤ va.toNat) :
    Machine.segment s va = .addressError := by
  rw [segment_region1 s va hlo hhi, if_neg]
  rintro ⟨hm, hsx, hin⟩
  rcases h with h | h | h
  · exact hm h
  · exact absurd hsx (by simp [h])
  · omega

theorem segment_region2_forbidden (s : State) (va : Dword) (hr : va.toNat / 2 ^ 62 = 2)
    (h : mode s ≠ .kernel ∨ s.cp0.status.kx = false ∨ va.toNat / 2 ^ 36 % 2 ^ 23 ≠ 0) :
    Machine.segment s va = .addressError := by
  rw [segment_region2 s va hr, if_neg]
  rintro ⟨hm, hkx, hgap⟩
  rcases h with h | h | h
  · exact h hm
  · exact absurd hkx (by simp [h])
  · exact h hgap

theorem segment_xkseg_forbidden (s : State) (va : Dword) (hlo : 3 * 2 ^ 62 ≤ va.toNat)
    (hhi : va.toNat < 0xFFFFFFFF80000000)
    (h : mode s ≠ .kernel ∨ s.cp0.status.kx = false ∨ 3 * 2 ^ 62 + (2 ^ 40 - 2 ^ 31) ≤ va.toNat) :
    Machine.segment s va = .addressError := by
  rw [segment_xkseg s va hlo hhi, if_neg]
  rintro ⟨hm, hkx, hin⟩
  rcases h with h | h | h
  · exact h hm
  · exact absurd hkx (by simp [h])
  · omega

/-- Outside Kernel mode the kernel's own segments are forbidden: `xkphys`, `xkseg`, `kseg0`, `kseg1`, `kseg3`
(20_memory.md rules R207, R210). -/
theorem segment_kernel_forbidden (s : State) (va : Dword) (hm : mode s ≠ .kernel)
    (h : (2 ^ 63 ≤ va.toNat ∧ va.toNat < 0xFFFFFFFFC0000000) ∨ 0xFFFFFFFFE0000000 ≤ va.toNat) :
    Machine.segment s va = .addressError := by
  rcases h with ⟨hlo, hhi⟩ | htop
  · by_cases h3 : va.toNat < 3 * 2 ^ 62
    · exact segment_region2_forbidden s va (by omega) (.inl hm)
    by_cases hc : va.toNat < 0xFFFFFFFF80000000
    · exact segment_xkseg_forbidden s va (by omega) hc (.inl hm)
    by_cases h0 : va.toNat < 0xFFFFFFFFA0000000
    · rw [segment_kseg0 s va (by omega) h0, if_neg hm]
    · rw [segment_kseg1 s va (by omega) hhi, if_neg hm]
  · rw [segment_kseg3 s va htop, if_neg hm]

/-- In User mode everything above the user region is forbidden (20_memory.md rule R201). -/
theorem segment_user_forbidden (s : State) (va : Dword) (hm : mode s = .user)
    (h : if s.cp0.status.ux then 2 ^ 40 ≤ va.toNat else 2 ^ 31 ≤ va.toNat) : Machine.segment s va = .addressError := by
  have hk : mode s ≠ .kernel := by simp [hm]
  by_cases h0 : va.toNat < 2 ^ 62
  · exact segment_region0_forbidden s va h0 (by split at h <;> simp_all)
  by_cases h1 : va.toNat < 2 ^ 63
  · exact segment_region1_forbidden s va (by omega) h1 (.inl hm)
  by_cases hss : 0xFFFFFFFFC0000000 ≤ va.toNat ∧ va.toNat < 0xFFFFFFFFE0000000
  · rw [segment_ksseg s va hss.1 hss.2, if_pos hm]
  · exact segment_kernel_forbidden s va hk (by omega)

/-- Settles O25: each range lies in regions where the decoder answers Address Error. -/
theorem forbiddenSegmentsRaiseAddressError : Obligations.ForbiddenSegmentsRaiseAddressError := by
  intro s kind va
  refine ⟨fun hm h => ?_, fun hm h => ?_, fun hux hlo hhi => ?_, fun hsx hlo hhi => ?_, fun hkx hlo hhi => ?_,
    fun hlo hhi => ?_, fun hlo hhi => ?_, fun hr hgap => ?_, fun hlo hhi => ?_⟩ <;> apply translate_addressError
  · exact segment_user_forbidden s va hm h
  · exact segment_kernel_forbidden s va (by simp [hm]) h
  · exact segment_region0_forbidden s va hhi (by simpa [hux] using hlo)
  · exact segment_region1_forbidden s va hlo hhi (.inr (.inl hsx))
  · by_cases h3 : va.toNat < 3 * 2 ^ 62
    · exact segment_region2_forbidden s va (by omega) (.inr (.inl hkx))
    · exact segment_xkseg_forbidden s va (by omega) hhi (.inr (.inl hkx))
  · exact segment_region0_forbidden s va hhi (by split <;> omega)
  · exact segment_region1_forbidden s va (by omega) hhi (.inr (.inr hlo))
  · exact segment_region2_forbidden s va hr (.inr (.inr hgap))
  · exact segment_xkseg_forbidden s va (by omega) hhi (.inr (.inr hlo))

/-! ## Page masks and page addresses (20_memory.md rule R242) -/

/-- A legal page mask is a run of ones from bit 0. -/
theorem toNat_succ_of_legalMask (m : BitVec 12) (h : legalMask m = true) : m.toNat + 1 = 2 ^ maskBits m := by
  simp only [legalMask, Bool.or_eq_true, beq_iff_eq] at h
  rcases h with (((((rfl | rfl) | rfl) | rfl) | rfl) | rfl) | rfl <;> decide

theorem legalMask_getLsbD (m : BitVec 12) (h : legalMask m = true) (i : Nat) :
    m.getLsbD i = decide (i < maskBits m) := by
  rw [BitVec.getLsbD, show m.toNat = 2 ^ maskBits m - 1 by have := toNat_succ_of_legalMask m h; omega,
    Nat.testBit_two_pow_sub_one]

theorem maskBits_le_twelve (m : BitVec 12) : maskBits m ≤ 12 :=
  le_trans List.countP_le_length (by simp)

/-- The page of an entry an address selects, by the address as a number. -/
theorem page_eq (e : TlbEntry) (va : Dword) :
    e.page va = if va.toNat / 2 ^ (12 + maskBits e.mask) % 2 = 1 then e.odd else e.even := by
  rw [TlbEntry.page, BitVec.getLsbD, Nat.testBit_eq_decide_div_mod_eq]
  simp only [decide_eq_true_eq]

/-- The bits of an offset in a page of `2 ^ k` bytes. -/
theorem getLsbD_pageOffset (k i : Nat) (hk : k ≤ 24) :
    (BitVec.ofNat 36 (2 ^ k) - 1).getLsbD i = decide (i < k) := by
  have hlt : 2 ^ k ≤ 2 ^ 24 := Nat.pow_le_pow_right (by decide) hk
  have hpos : 0 < 2 ^ k := by positivity
  have hsub : (BitVec.ofNat 36 (2 ^ k) - 1).toNat = 2 ^ k - 1 := by
    rw [BitVec.toNat_sub]
    simp only [BitVec.toNat_ofNat, BitVec.ofNat_eq_ofNat]
    omega
  rw [BitVec.getLsbD, hsub, Nat.testBit_two_pow_sub_one]

/-- With a legal mask the bits of the page offset come from the virtual address, the others from `PFN`. -/
theorem paddr_getLsbD (e : TlbEntry) (p : TlbPage) (va : Dword) (h : legalMask e.mask = true) (i : Nat) (hi : i < 36) :
    (e.paddr p va).getLsbD i = if i < 12 + maskBits e.mask then va.getLsbD i else p.pfn.getLsbD (i - 12) := by
  have hn := maskBits_le_twelve e.mask
  rw [TlbEntry.paddr, BitVec.getLsbD_or, BitVec.getLsbD_and, getLsbD_pageOffset _ _ (by omega), BitVec.getLsbD_append,
    BitVec.getLsbD_and, BitVec.getLsbD_not, BitVec.getLsbD_setWidth, legalMask_getLsbD _ h, BitVec.getLsbD_setWidth]
  by_cases hlow : i < 12
  · simp [hlow, hi, show i < 12 + maskBits e.mask by omega]
  · by_cases hoff : i - 12 < maskBits e.mask
    · simp [hlow, hoff, hi, show i < 12 + maskBits e.mask by omega, show i - 12 < 24 by omega]
    · simp [hlow, hoff, show ¬i < 12 + maskBits e.mask by omega, show i - 12 < 24 by omega]

/-- The physical address in a page with a legal mask is the frame's address plus the offset. -/
theorem paddr_eq (e : TlbEntry) (p : TlbPage) (va : Dword) (h : legalMask e.mask = true) :
    let n := maskBits e.mask
    e.paddr p va = BitVec.ofNat 36 (p.pfn.toNat / 2 ^ n * 2 ^ n * 4096 + va.toNat % 2 ^ (12 + n)) := by
  intro n
  have hsum : p.pfn.toNat / 2 ^ n * 2 ^ n * 4096 + va.toNat % 2 ^ (12 + n) =
      2 ^ (12 + n) * (p.pfn.toNat / 2 ^ n) + va.toNat % 2 ^ (12 + n) := by
    rw [pow_add]; ring
  apply BitVec.eq_of_getLsbD_eq
  intro i hi
  rw [paddr_getLsbD e p va h i hi, hsum, BitVec.getLsbD_ofNat, decide_eq_true hi, Bool.true_and,
    Nat.testBit_two_pow_mul_add _ (Nat.mod_lt _ (by positivity)), Nat.testBit_mod_two_pow, Nat.testBit_div_two_pow]
  by_cases hoff : i < 12 + n
  · rw [if_pos hoff, if_pos hoff, decide_eq_true hoff, Bool.true_and, BitVec.getLsbD]
  · rw [if_neg hoff, if_neg hoff, BitVec.getLsbD, show i - (12 + n) + n = i - 12 by omega]

/-! ## Matching entries (20_memory.md rule R241) -/

/-- The bits a comparison of `VPN2` under a mask looks at. -/
theorem masked_eq_iff (mask : BitVec 12) (x y : BitVec 27) :
    x &&& ~~~(mask.zeroExtend 27) = y &&& ~~~(mask.zeroExtend 27) ↔
      ∀ b, b < 27 → mask.getLsbD b = false → x.getLsbD b = y.getLsbD b := by
  have bit (z : BitVec 27) (b : Nat) (hb : b < 27) :
      (z &&& ~~~(mask.zeroExtend 27)).getLsbD b = (z.getLsbD b && !mask.getLsbD b) := by
    rw [BitVec.getLsbD_and, BitVec.getLsbD_not, BitVec.getLsbD_setWidth]; simp [hb]
  constructor
  · intro h b hb hm
    have := congrArg (·.getLsbD b) h
    simpa only [bit _ b hb, hm, Bool.not_false, Bool.and_true] using this
  · intro h
    apply BitVec.eq_of_getLsbD_eq
    intro b hb
    rw [bit _ b hb, bit _ b hb]
    cases hm : mask.getLsbD b with
    | true => simp
    | false => rw [h b hb hm]

/-- Entry `i` of the JTLB exists, is `e`, and matches an address. -/
def EntryMatches (s : State) (va : Dword) (i : Nat) (e : TlbEntry) : Prop :=
  i < tlbSize s ∧ s.tlb[i]? = some e ∧ e.r.toNat = va.toNat / 2 ^ 62 ∧ (e.g = true ∨ e.asid = s.cp0.entryHi.asid) ∧
    ∀ b, b < 27 → e.mask.getLsbD b = false → e.vpn2.getLsbD b = va.getLsbD (13 + b)

theorem hits_iff (e : TlbEntry) (va : Dword) (asid : BitVec 8) :
    e.hits (va.extractLsb' 62 2) (va.extractLsb' 13 27) asid = true ↔
      e.r.toNat = va.toNat / 2 ^ 62 ∧ (e.g = true ∨ e.asid = asid) ∧
        ∀ b, b < 27 → e.mask.getLsbD b = false → e.vpn2.getLsbD b = va.getLsbD (13 + b) := by
  have hbit (b : Nat) (hb : b < 27) : (va.extractLsb' 13 27).getLsbD b = va.getLsbD (13 + b) := by
    rw [BitVec.getLsbD_extractLsb', decide_eq_true hb, Bool.true_and]
  simp only [TlbEntry.hits, Bool.and_eq_true, Bool.or_eq_true, beq_iff_eq, masked_eq_iff, ← BitVec.toNat_inj (x := e.r),
    region_toNat]
  constructor
  · rintro ⟨⟨hr, hv⟩, ha⟩
    exact ⟨hr, ha, fun b hb hm => (hv b hb hm).trans (hbit b hb)⟩
  · rintro ⟨hr, ha, hv⟩
    exact ⟨⟨hr, fun b hb hm => (hv b hb hm).trans (hbit b hb).symm⟩, ha⟩

/-- The matches of an address. -/
def matchesOf (s : State) (va : Dword) : List (TlbEntry × Nat) :=
  tlbMatches s (va.extractLsb' 62 2) (va.extractLsb' 13 27)

theorem liveEntries_getElem? (s : State) (i : Nat) (e : TlbEntry) :
    (liveEntries s)[i]? = some e ↔ i < tlbSize s ∧ s.tlb[i]? = some e := by
  simp [liveEntries, List.getElem?_take]

theorem mem_matchesOf (s : State) (va : Dword) (e : TlbEntry) (i : Nat) :
    (e, i) ∈ matchesOf s va ↔ EntryMatches s va i e := by
  rw [matchesOf, tlbMatches, List.mem_filter, List.mem_zipIdx_iff_getElem?, hits_iff, liveEntries_getElem?, EntryMatches,
    and_assoc]

/-- No entry is listed twice among the matches. -/
theorem matchesOf_nodup (s : State) (va : Dword) : ((matchesOf s va).map Prod.snd).Nodup := by
  have hall : ((liveEntries s).zipIdx.map Prod.snd).Nodup := by
    rw [List.zipIdx_map_snd]
    exact List.nodup_range'
  exact hall.sublist (List.filter_sublist.map Prod.snd)

theorem matchesOf_eq_nil (s : State) (va : Dword) (h : ∀ i e, ¬EntryMatches s va i e) : matchesOf s va = [] :=
  List.eq_nil_iff_forall_not_mem.2 fun ⟨e, i⟩ hmem => h i e ((mem_matchesOf s va e i).1 hmem)

theorem matchesOf_eq_singleton (s : State) (va : Dword) (i : Nat) (e : TlbEntry) (h : EntryMatches s va i e)
    (hone : ∀ j e', EntryMatches s va j e' → j = i) : matchesOf s va = [(e, i)] := by
  have hmem := (mem_matchesOf s va e i).2 h
  have hnodup := matchesOf_nodup s va
  have honly : ∀ x ∈ matchesOf s va, x.2 = i := fun x hx => hone x.2 x.1 ((mem_matchesOf s va x.1 x.2).1 hx)
  match hlist : matchesOf s va with
  | [] => simp [hlist] at hmem
  | [x] => rw [hlist] at hmem; rw [List.mem_singleton.1 hmem]
  | x :: y :: r =>
    rw [hlist] at hnodup honly
    have hx := honly x (by simp)
    have hy := honly y (by simp)
    simp [hx, hy] at hnodup

theorem matchesOf_two (s : State) (va : Dword) (i j : Nat) (e e' : TlbEntry) (hi : EntryMatches s va i e)
    (hj : EntryMatches s va j e') (hne : i ≠ j) : ∃ x y r, matchesOf s va = x :: y :: r := by
  have hmi := (mem_matchesOf s va e i).2 hi
  have hmj := (mem_matchesOf s va e' j).2 hj
  match hlist : matchesOf s va with
  | [] => simp [hlist] at hmi
  | [x] =>
    rw [hlist, List.mem_singleton] at hmi hmj
    exact absurd (congrArg Prod.snd (hmi.trans hmj.symm)) hne
  | x :: y :: r => exact ⟨x, y, r, rfl⟩

/-! ## Translation of a mapped address -/

/-- The vector of a refill is that of the region's own enabling bit (20_memory.md rule R245). -/
theorem xtlbMiss_of_mapped (s : State) (va : Dword) (h : Machine.segment s va = .mapped) :
    xtlbMiss s va = if va.toNat / 2 ^ 62 = 0 then s.cp0.status.ux
      else if va.toNat / 2 ^ 62 = 1 then s.cp0.status.sx else s.cp0.status.kx := by
  have hva := va.isLt
  have hregion : va.toNat / 2 ^ 62 = 0 ∨ va.toNat / 2 ^ 62 = 1 ∨ va.toNat / 2 ^ 62 = 2 ∨ va.toNat / 2 ^ 62 = 3 := by omega
  rcases hregion with hr | hr | hr | hr <;> simp only [xtlbMiss, region_toNat, hr, State.status, isLow_iff, isCompat_iff]
  · rw [segment_region0 s va (by omega)] at h
    by_cases hlow : va.toNat < 2 ^ 31
    · rw [if_pos hlow, if_pos trivial]
    · cases hux : s.cp0.status.ux with
      | true => rw [if_neg hlow, if_pos trivial]
      | false =>
        rw [if_neg (fun hin => hlow hin.2), if_neg (by simpa [hux] using hlow)] at h
        cases h
  · rw [segment_region1 s va (by omega) (by omega)] at h
    split at h
    · next hin => simp [hin.2.1]
    · cases h
  · rw [segment_region2 s va hr] at h
    split at h <;> cases h
  · by_cases hc : 0xFFFFFFFF80000000 ≤ va.toNat
    · simp [hc]
    · rw [segment_xkseg s va (by omega) (by omega)] at h
      split at h
      · next hin => simp [hc, hin.2.1]
      · cases h

theorem liveEntries_legal (s : State) (h : ∀ i, i < tlbSize s → ∀ e, s.tlb[i]? = some e → legalMask e.mask = true) :
    (liveEntries s).any (fun e => !legalMask e.mask) = false := by
  rw [List.any_eq_false]
  intro e he
  obtain ⟨i, hi⟩ := List.mem_iff_getElem?.1 he
  obtain ⟨hsize, hget⟩ := (liveEntries_getElem? s i e).1 hi
  simp [h i hsize e hget]

section Mapped

variable {s : State} {va : Dword} (kind : AccessKind) (hseg : Machine.segment s va = .mapped)
  (hlegal : (liveEntries s).any (fun e => !legalMask e.mask) = false)
include hseg hlegal

theorem translate_refill (hlist : matchesOf s va = []) :
    Machine.translate kind va s = .error (.exc (.tlbRefill (kind == .store) (xtlbMiss s va) va) s) := by
  rw [matchesOf] at hlist
  simp only [Machine.translate, hseg, translateMapped, hlegal, hlist, isStore_eq, Bool.false_eq_true, if_false]

theorem translate_multipleMatch {x y : TlbEntry × Nat} {r : List (TlbEntry × Nat)} (hlist : matchesOf s va = x :: y :: r) :
    Machine.translate kind va s = .error (.fault .multipleTlbMatch) := by
  rw [matchesOf] at hlist
  simp only [Machine.translate, hseg, translateMapped, hlegal, hlist, Bool.false_eq_true, if_false]

variable {e : TlbEntry} {i : Nat} (hlist : matchesOf s va = [(e, i)])
include hlist

theorem translate_invalidPage (hv : (e.page va).v = false) :
    Machine.translate kind va s = .error (.exc (.tlbInvalid (kind == .store) va) s) := by
  rw [matchesOf] at hlist
  simp [Machine.translate, hseg, translateMapped, hlegal, hlist, isStore_eq, hv]

theorem translate_modifiedPage (hv : (e.page va).v = true) (hd : (e.page va).d = false) (hk : kind = .store) :
    Machine.translate kind va s = .error (.exc (.tlbMod va) s) := by
  rw [matchesOf] at hlist
  simp [Machine.translate, hseg, translateMapped, hlegal, hlist, isStore_eq, hv, hd, hk]

theorem translate_validPage (hv : (e.page va).v = true) (hd : (e.page va).d = true ∨ kind ≠ .store) :
    Machine.translate kind va s =
      if (e.page va).c = 4 ∨ (e.page va).c = 5 then .error (.fault .reservedCacheAttribute)
      else .ok (e.paddr (e.page va) va, (e.page va).c) := by
  rw [matchesOf] at hlist
  have hw : (kind.isStore && !(e.page va).d) = false := by
    rw [isStore_eq]
    rcases hd with hd | hk
    · simp [hd]
    · simp [hk]
  simp only [Machine.translate, hseg, translateMapped, hlegal, hlist, hv, hw, legalAttr_iff, ite_not, Bool.not_true,
    Bool.false_eq_true, if_false]

end Mapped

/-- Settles O26: by the number of matching entries, which is the length of `matchesOf`. -/
theorem mappedAddressesTranslateThroughTheJtlb : Obligations.MappedAddressesTranslateThroughTheJtlb := by
  intro s kind va hseg hmasks hit extended
  have hlegal := liveEntries_legal s hmasks
  refine ⟨fun hnone => ?_, fun i j e e' hi hj hne => ?_, fun i e hi hone => ?_⟩
  · rw [translate_refill kind hseg hlegal (matchesOf_eq_nil s va hnone), xtlbMiss_of_mapped s va hseg]
  · obtain ⟨x, y, r, hlist⟩ := matchesOf_two s va i j e e' hi hj hne
    exact translate_multipleMatch kind hseg hlegal hlist
  · have hlist := matchesOf_eq_singleton s va i e hi hone
    obtain ⟨hsize, hget, -⟩ := hi
    intro n p
    have hp : p = e.page va := (page_eq e va).symm
    rw [hp, ← paddr_eq e _ va (hmasks i hsize e hget)]
    exact ⟨translate_invalidPage kind hseg hlegal hlist, translate_modifiedPage kind hseg hlegal hlist,
      translate_validPage kind hseg hlegal hlist⟩

/-! ## Words of four bytes -/

theorem toNat_append_byte {n : Nat} (x : BitVec n) (b : Byte) : (x ++ b).toNat = x.toNat * 256 + b.toNat := by
  rw [BitVec.toNat_append, ← Nat.shiftLeft_add_eq_or_of_lt b.isLt, Nat.shiftLeft_eq]

/-- The word the decoder makes of four bytes is the number they make (20_memory.md rules R252, R254). -/
theorem wordOfBytes_eq (big : Bool) (m : List Host.Cell) (a : Nat) :
    wordOfBytes big (Memory.read m a) (Memory.read m (a + 1)) (Memory.read m (a + 2)) (Memory.read m (a + 3)) =
      BitVec.ofNat 32 (numberAt big m a 4) := by
  apply BitVec.eq_of_toNat_eq
  rw [BitVec.toNat_ofNat, Nat.mod_eq_of_lt (show numberAt big m a 4 < 2 ^ 32 from numberAt_lt big m a 4)]
  cases big with
  | true =>
    rw [wordOfBytes, if_pos rfl, toNat_append_byte, toNat_append_byte, toNat_append_byte]
    simp [numberAt]
  | false =>
    rw [wordOfBytes, if_neg Bool.false_ne_true, toNat_append_byte, toNat_append_byte, toNat_append_byte]
    rw [numberAt_little_succ m a 3, numberAt_little_succ m (a + 1) 2, numberAt_little_succ m (a + 2) 1,
      numberAt_little_succ m (a + 3) 0]
    simp [numberAt]

theorem low32_eq_ofNat (x : Dword) : low32 x = BitVec.ofNat 32 x.toNat := rfl

theorem low32_orderBytes_readBytes (big : Bool) (m : List Host.Cell) (a : Nat) :
    low32 (orderBytes big 4 (Memory.readBytes m a 4)) = BitVec.ofNat 32 (numberAt big m a 4) := by
  rw [low32_eq_ofNat, orderBytes_readBytes big m a 4 (by decide)]

theorem low32_orderBytes_lineRead (big : Bool) (x : BitVec 256) (off : Nat) (h : off + 4 ≤ 32) :
    low32 (orderBytes big 4 (lineRead x off 4)) = BitVec.ofNat 32 (lineNumber big x off 4) := by
  rw [low32_eq_ofNat, orderBytes_lineRead big x off 4 (by decide) h]

/-! ## The read of an instruction word -/

theorem throughCache_of_direct {s : State} {attr : BitVec 3} (h : Direct s attr) : throughCache attr s = false := by
  rcases h with h | rfl | rfl
  · simp [throughCache, h]
  · simp [throughCache, uncached]
  · simp [throughCache, uncached]

theorem throughCache_of_throughCaches {s : State} {attr : BitVec 3} (h : ThroughCaches s attr) :
    throughCache attr s = true := by
  obtain ⟨he, h2, h6⟩ := h
  rw [throughCache, uncached, he, beq_false_of_ne h2, beq_false_of_ne h6]
  rfl

theorem readable_memory {s : State} {pa : PAddr} (f : Bool) (h : regionKind s pa = .ram ∨ regionKind s pa = .rom) :
    readable f pa s = .ok () := by
  rcases h with h | h <;> simp [readable, h]

theorem readable_hole {s : State} {pa : PAddr} (f : Bool) (h : regionKind s pa = .hole) :
    readable f pa s = .error (.exc (if f then .ibe pa else .dbe pa) s) := by
  simp [readable, h]

theorem readable_device {s : State} {pa : PAddr} (f : Bool) (h : regionKind s pa = .device) :
    readable f pa s = .error (.refused .deviceAccess) := by
  simp [readable, h]

theorem fetchRead_direct {s : State} {pa : PAddr} {attr : BitVec 3} (hd : Direct s attr)
    (h : readable true pa s = .ok ()) : fetchRead pa attr s = .ok (Memory.readBytes s.mem pa.toNat 4, s) := by
  simp [fetchRead, throughCache_of_direct hd, h]

theorem fetchRead_hit {s : State} {pa : PAddr} {attr : BitVec 3} {k : Nat} (ht : ThroughCaches s attr)
    (hk : lookupI s pa = .ok (some k)) (hp : (iLine s k).preDec = none) :
    fetchRead pa attr s = .ok (lineRead (iLine s k).data (lineOffset pa) 4, s) := by
  simp [fetchRead, throughCache_of_throughCaches ht, hk, hp]

/-- The state after a bypass fetch (a cached fetch of code 7) has filled a line from memory (20_memory.md rules R262, R291). -/
def bypassFilled (pa : PAddr) (s : State) : State :=
  putI (slotI pa false s).line (newI pa (slotI pa false s) (Memory.readLine s.mem (lineAddr pa))) (s.drew 2)

theorem iLine_bypassFilled (pa : PAddr) (s : State) (j : Nat) : iLine (bypassFilled pa s) j =
    if j = (slotI pa false s).line then newI pa (slotI pa false s) (Memory.readLine s.mem (lineAddr pa))
    else iLine s j :=
  iLine_putI _ _ _ _

/-- A bypass fetch fills from main memory only (20_memory.md rule R262). -/
theorem fillI_bypass {pa : PAddr} {s : State} (h : readable true pa s = .ok ()) :
    fillI pa 7 false s = .ok ((slotI pa false s).line, bypassFilled pa s) := by
  have hsource : fillSource ((7 : BitVec 3) != 7) true false pa s = .ok (Memory.readLine s.mem (lineAddr pa), s) := by
    rw [bne_self_eq_false, fillSource, if_neg Bool.false_ne_true, mainReadLine, h]
  rw [fillI, Bool.not_false, hsource]
  rfl

theorem fillI_bypass_unreadable {pa : PAddr} {s : State} {e : Stop} (h : readable true pa s = .error e) :
    fillI pa 7 false s = .error e := by
  have hsource : fillSource ((7 : BitVec 3) != 7) true false pa s = .error e := by
    rw [bne_self_eq_false, fillSource, if_neg Bool.false_ne_true, mainReadLine, h]
  rw [fillI, Bool.not_false, hsource]

theorem fetchRead_bypass {s : State} {pa : PAddr} (ht : ThroughCaches s 7) (hk : lookupI s pa = .ok none)
    (h : readable true pa s = .ok ()) :
    fetchRead pa 7 s = .ok (lineRead (Memory.readLine s.mem (lineAddr pa)) (lineOffset pa) 4, bypassFilled pa s) := by
  simp only [fetchRead, throughCache_of_throughCaches ht, hk, fillI_bypass h, iLine_bypassFilled, if_true]
  rfl

/-- A fetch of memory that no instruction cache holds meets what the physical map answers. -/
theorem fetchRead_unreadable {s : State} {pa : PAddr} {attr : BitVec 3} {e : Stop}
    (h : Direct s attr ∨ (ThroughCaches s attr ∧ attr = 7 ∧ lookupI s pa = .ok none))
    (he : readable true pa s = .error e) : fetchRead pa attr s = .error e := by
  rcases h with hd | ⟨ht, rfl, hk⟩
  · simp [fetchRead, throughCache_of_direct hd, he]
  · simp only [fetchRead, throughCache_of_throughCaches ht, hk, fillI_bypass_unreadable he, if_true]

/-- The filled line: it lies in a way of the address, holds memory's bytes, and nothing else in the caches changes. -/
theorem bypassFilled_line (pa : PAddr) (s : State) :
    ∃ k ∈ primaryWays pa, OnlyLineI k s (bypassFilled pa s) ∧ (iLine (bypassFilled pa s) k).tag = pa.extractLsb' 12 24 ∧
      (iLine (bypassFilled pa s) k).state = 2 ∧
      ∀ j, j < 32 → lineByte (iLine (bypassFilled pa s) k).data j = Memory.read s.mem (pa.toNat / 32 * 32 + j) := by
  refine ⟨(slotI pa false s).line, slotI_ways pa false s, ⟨fun j hj => ?_, rfl⟩, ?_, ?_, fun j hj => ?_⟩
  · rw [iLine_bypassFilled, if_neg hj]
  · rw [iLine_bypassFilled, if_pos rfl]
    rfl
  · rw [iLine_bypassFilled, if_pos rfl]
    rfl
  · rw [iLine_bypassFilled, if_pos rfl]
    exact readLine_byte s.mem (lineAddr pa) j hj

/-! ## The fetch, test by test (60_exceptions.md rules R772, R776) -/

theorem aligned_word_iff (va : Dword) : aligned 4 va = true ↔ va.toNat % 4 = 0 := by
  rw [aligned, beq_iff_eq]

theorem fetch_misaligned {s : State} (h : s.pc.toNat % 4 ≠ 0) : fetch none s = .error (.exc (.adE false s.pc) s) := by
  have ha : ¬aligned 4 s.pc = true := by rwa [aligned_word_iff]
  rw [fetch, translateAligned, if_neg ha]
  rfl

section Aligned

variable {s : State} (ha : s.pc.toNat % 4 = 0)
include ha

theorem fetch_untranslated {e : Stop} (h : Machine.translate .fetch s.pc s = .error e) : fetch none s = .error e := by
  rw [fetch, translateAligned, if_pos ((aligned_word_iff s.pc).2 ha), h]

variable {pa : PAddr} {attr : BitVec 3} (htr : Machine.translate .fetch s.pc s = .ok (pa, attr))
include htr

theorem fetch_unread {e : Stop} (h : fetchRead pa attr s = .error e) : fetch none s = .error e := by
  rw [fetch, translateAligned, if_pos ((aligned_word_iff s.pc).2 ha), htr]
  simp only [checkParity, h]

theorem fetch_watched {raw : Dword} {t : State} {w1 w2 : Bool} (h : fetchRead pa attr s = .ok (raw, t))
    (hw : watchMatch t .fetch pa 4 = (w1, w2)) (hor : (w1 || w2) = true) :
    fetch none s = .error (.exc (.iwe w1 w2) t) := by
  rw [fetch, translateAligned, if_pos ((aligned_word_iff s.pc).2 ha), htr]
  simp only [checkParity, h, watchFetch, hw, hor, if_true]

theorem fetch_word {raw : Dword} {t : State} (h : fetchRead pa attr s = .ok (raw, t))
    (hw : watchMatch t .fetch pa 4 = (false, false)) :
    fetch none s = .ok (low32 (orderBytes s.params.bigEndian 4 raw), attr, t) := by
  rw [fetch, translateAligned, if_pos ((aligned_word_iff s.pc).2 ha), htr]
  simp [checkParity, h, watchFetch, hw]

/-- An aligned word lies in one line. -/
theorem word_in_line : pa.toNat % 32 + 4 ≤ 32 := by
  have := translate_offset .fetch s.pc s pa attr htr
  omega

end Aligned

/-- A step that nothing disturbs fetches and runs an instruction (60_exceptions.md rule R772). -/
theorem step_undisturbed (s : State) (h : Undisturbed s) : step s = fetchAndRun s none (sampled s) := by
  obtain ⟨hevents, hnmi, hstandby, herrors, hint, -⟩ := h
  have hedge : (nmiNow s && !s.nmiLevel) = false := by rcases hnmi with h | h <;> simp [h]
  have herrors' : (sampled s).pendingErrors = [] := herrors
  have hint' : intRequest (sampled s) = false := hint
  calc step s = afterEvent s .quiet s := by rw [step, stepOnce, hevents]; rfl
    _ = errorOrRun s none (sampled s) := by
      rw [afterEvent, hedge]
      exact (if_neg Bool.false_ne_true).trans (if_neg (by rw [hstandby]; decide))
    _ = interruptOrRun s none (sampled s) := by rw [errorOrRun, herrors']
    _ = fetchAndRun s none (sampled s) := by rw [interruptOrRun, hint']; rfl

theorem step_fetchError {s : State} (h : Undisturbed s) (hh : earlyHazard none (sampled s) = none) {e : Stop}
    (he : fetch none (sampled s) = .error e) : step s = tickOut s false true e.answer := by
  have hmode : mode (sampled s) ≠ .reserved := by
    obtain ⟨-, -, -, -, -, hmode⟩ := h
    exact hmode
  rw [step_undisturbed s h, fetchAndRun, if_neg hmode, hh, he]

/-- Settles O5: an aligned, translated fetch is what its read and the Watch check answer, and a step that nothing disturbs
gives what its fetch raises. -/
theorem fetchReadsTheWordAtThePc : Obligations.FetchReadsTheWordAtThePc := by
  intro s pa attr w
  refine ⟨fun hd hreach => ?_, fun ht ha htr hw k hk hp => ?_, fun ht hreach hk h7 => ?_, fetch_misaligned,
    fun ha => ⟨fun e he => fetch_untranslated ha he, fun htr => ⟨fun hwhere => ⟨fun hole => ?_, fun hdev => ?_⟩,
      fun w1 w2 hw hor => ⟨fun hd hmem => ?_, fun ht k hk hp => ?_⟩⟩⟩, fun hu hh e u he => ?_⟩
  · obtain ⟨ha, htr, hmem, hw⟩ := hreach
    refine ⟨?_, congrArg decode (wordOfBytes_eq _ _ _)⟩
    rw [fetch_word ha htr (fetchRead_direct hd (readable_memory true hmem)) hw, low32_orderBytes_readBytes]
  · rw [fetch_word ha htr (fetchRead_hit ht hk hp) hw, lineOffset, low32_orderBytes_lineRead _ _ _ (word_in_line ha htr)]
  · obtain ⟨ha, htr, hmem, hw⟩ := hreach
    subst h7
    have hread := fetchRead_bypass ht hk (readable_memory true hmem)
    have hw' : watchMatch (bypassFilled pa s) .fetch pa 4 = (false, false) := hw
    refine ⟨bypassFilled pa s, ?_, rfl, bypassFilled_line pa s⟩
    rw [fetch_word ha htr hread hw', lineOffset, low32_orderBytes_lineRead _ _ _ (word_in_line ha htr),
      lineNumber_readLine _ _ _ _ _ (word_in_line ha htr), lineAddr, Nat.div_add_mod']
  · exact fetch_unread ha htr (fetchRead_unreadable hwhere (readable_hole true hole))
  · exact fetch_unread ha htr (fetchRead_unreadable hwhere (readable_device true hdev))
  · exact fetch_watched ha htr (fetchRead_direct hd (readable_memory true hmem)) hw hor
  · exact fetch_watched ha htr (fetchRead_hit ht hk hp) hw hor
  · exact step_fetchError hu hh he

end Sys2Proof.Proofs

/-! # The encoding: round trip, reserved cells, and instructions the mode does not enable

The decoder gives an encoded instruction back (`decode_encode`) and rejects exactly the undefined cells of its maps
(`decode_error_iff` and one lemma per map). A reserved encoding, or an instruction that the mode disables, fails one
of the enabling tests and enters the general exception sequence (`takesGeneral_takeException`). -/

namespace Sys2Proof.Proofs

open Sys2Proof.Machine Sys2Proof.Safety Sys2Proof.Laws

/-! ## Round trip -/

open RoundTrip in
/-- The case split over `Instr`: each constructor has its own `RoundTrip` lemma, here in the order of the constructors. -/
theorem decode_encode (i : Instr) : decode (encode i) = .ok i :=
  i.rec (motive := RoundTrip.Statement)
    add addu sub subu dadd daddu dsub dsubu slt sltu and or xor nor sllv srlv srav dsllv dsrlv dsrav movn movz sll srl
    sra dsll dsrl dsra dsll32 dsrl32 dsra32 mult multu div divu dmult dmultu ddiv ddivu mfhi mthi mflo mtlo jr jalr
    movf movt syscall brk sync tge tgeu tlt tltu teq tne bltz bgez bltzl bgezl bltzal bgezal bltzall bgezall tgei
    tgeiu tlti tltiu teqi tnei j jal beq bne blez bgtz beql bnel blezl bgtzl addi addiu slti sltiu andi ori xori daddi
    daddiu lui lb lbu lh lhu lw lwu ld sb sh sw sd lwl lwr swl swr ldl ldr sdl sdr ll lld sc scd cacheIndexInvalidateI
    cacheIndexWritebackInvalidateD cacheFlashInvalidateT cacheIndexWritebackInvalidateS cacheIndexLoadTagI
    cacheIndexLoadTagD cacheIndexLoadTagT cacheIndexLoadTagS cacheIndexStoreTagI cacheIndexStoreTagD
    cacheIndexStoreTagT cacheIndexStoreTagS cacheCreateDirtyExclusiveD cacheHitInvalidateI cacheHitInvalidateD
    cacheHitInvalidateS cacheFillI cacheHitWritebackInvalidateD cachePageInvalidateT cacheHitWritebackInvalidateS
    cacheHitWritebackI cacheHitWritebackD cacheHitWritebackS cacheOp0C cacheOp0E cacheOp0F cacheOp12 cacheOp1A
    cacheOp1C cacheOp1D cacheOp1E cacheOp1F pref lwc2 ldc2 swc2 sdc2 cop2 mad madu mul mfc0 dmfc0 cfc0 mtc0 dmtc0 ctc0
    tlbr tlbwi tlbwr tlbp eret wait mfc1 dmfc1 cfc1 mtc1 dmtc1 ctc1 bc1f bc1t bc1fl bc1tl lwc1 ldc1 swc1 sdc1 addS
    addD subS subD mulS mulD divS divD sqrtS sqrtD absS absD movS movD negS negD recipS recipD rsqrtS rsqrtD roundLS
    roundLD truncLS truncLD ceilLS ceilLD floorLS floorLD roundWS roundWD truncWS truncWD ceilWS ceilWD floorWS
    floorWD cvtWS cvtWD cvtLS cvtLD cvtSD cvtSW cvtSL cvtDS cvtDW cvtDL movfS movtS movzS movnS movfD movtD movzD
    movnD cFS cUnS cEqS cUeqS cOltS cUltS cOleS cUleS cSfS cNgleS cSeqS cNglS cLtS cNgeS cLeS cNgtS cFD cUnD cEqD
    cUeqD cOltD cUltD cOleD cUleD cSfD cNgleD cSeqD cNglD cLtD cNgeD cLeD cNgtD lwxc1 ldxc1 swxc1 sdxc1 prefx maddS
    maddD msubS msubD nmaddS nmaddD nmsubS nmsubD

/-- A word is its four bytes, the most significant first. -/
theorem bytes_append (w : Word) :
    w.extractLsb' 24 8 ++ w.extractLsb' 16 8 ++ w.extractLsb' 8 8 ++ w.extractLsb' 0 8 = w := by
  rw [BitVec.extractLsb'_append_extractLsb'_eq_extractLsb' (by rfl),
    BitVec.extractLsb'_append_extractLsb'_eq_extractLsb' (by rfl),
    BitVec.extractLsb'_append_extractLsb'_eq_extractLsb' (by rfl)]
  simp

theorem decodeBytes_bytesOfWord (big : Bool) (w : Word) : decodeBytes big (bytesOfWord big w) = decode w := by
  cases big <;> exact congrArg decode (bytes_append w)

theorem decodeTableWord_toNat (w : Word) : decodeTableWord 32 w.toNat = (decode w).toOption := by
  rw [decodeTableWord, decodeBytes_bytesOfWord, Nat.mod_eq_of_lt w.isLt, BitVec.ofNat_toNat, BitVec.setWidth_eq]

/-- Settles O1: the bytes of a word, in either order, and its number decode as the word does. -/
theorem encodingDecodesToItself : Obligations.EncodingDecodesToItself := by
  intro i
  refine ⟨decode_encode i, fun big => ?_, ?_⟩
  · rw [decodeBytes_bytesOfWord, decode_encode]
  · rw [decodeTableWord_toNat, decode_encode]
    rfl

/-! ## Reserved encodings of the decoder

Each map of the decoder is split into its arms. An arm that answers an instruction is none of the rejected cells
(`accepted_iff`), the last arm is all of them (`rejected_iff`). -/

/-- An arm of the decoder that answers an instruction. -/
theorem accepted_iff {i : Instr} {a r : Reserved} {p : Prop} (h : ¬p) : Except.ok i = .error r ↔ r = a ∧ p :=
  ⟨fun he => (nomatch he), fun ⟨_, hp⟩ => absurd hp h⟩

/-- An arm of the decoder that rejects the word. -/
theorem rejected_iff {a r : Reserved} {p : Prop} (h : p) :
    (Except.error a : Except Reserved Instr) = .error r ↔ r = a ∧ p := by
  rw [Except.error.injEq, eq_comm, and_iff_left h]

/-- Bit 17 is `nd`, the upper of the bits 17:16. -/
theorem bit17_iff (w : Word) : w.getLsbD 17 = true ↔ 2 ≤ (tfF w).toNat := by
  have h : w.getLsbD 17 = (tfF w).msb := by simp [tfF, rtF, BitVec.msb_eq_getLsbD_last]
  rw [h, BitVec.msb_eq_decide, decide_eq_true_eq]

/-- Bit 25 is the upper bit of `rs`. -/
theorem bit25_eq (w : Word) : w.getLsbD 25 = (rsF w).getLsbD 4 := by
  simp [rsF]

/-- The undefined cells of rule R305, and `MOVCI` with bit 17 set (rule R314). -/
theorem decodeSpecial_error_iff (w : Word) (r : Reserved) : decodeSpecial w = .error r ↔ r = .special ∧
    ((functF w).toNat ∈ [5, 14, 21, 40, 41, 53, 55, 57, 61] ∨ (functF w = 1 ∧ w.getLsbD 17 = true)) := by
  have hf := (functF w).isLt
  simp only [bit17_iff, BitVec.toNat_eq, BitVec.reduceToNat, List.mem_cons, List.not_mem_nil, or_false]
  unfold decodeSpecial
  split
  case h_2 =>
    split
    case h_3 => exact rejected_iff (by simp only [imp_false] at *; omega)
    all_goals exact accepted_iff (by omega)
  case h_56 => exact rejected_iff (by simp only [imp_false] at *; omega)
  all_goals exact accepted_iff (by omega)

theorem decodeRegimm_error_iff (w : Word) (r : Reserved) : decodeRegimm w = .error r ↔ r = .regimm ∧
    (rtF w).toNat ∈ [4, 5, 6, 7, 13, 15, 20, 21, 22, 23, 24, 25, 26, 27, 28, 29, 30, 31] := by
  have ht := (rtF w).isLt
  simp only [List.mem_cons, List.not_mem_nil, or_false]
  unfold decodeRegimm
  split
  case h_15 => exact rejected_iff (by simp only [imp_false] at *; omega)
  all_goals exact accepted_iff (by omega)

theorem decodeCop0_error_iff (w : Word) (r : Reserved) : decodeCop0 w = .error r ↔ r = .cop0 ∧
    (if w.getLsbD 25 then (functF w).toNat ∉ [1, 2, 6, 8, 24, 32] else (rsF w).toNat ∉ [0, 1, 2, 4, 5, 6]) := by
  simp only [bit25_eq, List.mem_cons, List.not_mem_nil, or_false]
  unfold decodeCop0
  split
  · split
    case h_7 => exact rejected_iff (by simp only [imp_false] at *; omega)
    all_goals exact accepted_iff (by omega)
  · split
    case h_7 => exact rejected_iff (by simp only [imp_false] at *; omega)
    all_goals exact accepted_iff (by omega)

theorem decodeCop1x_error_iff (w : Word) (r : Reserved) : decodeCop1x w = .error r ↔ r = .cop1x ∧
    (functF w).toNat ∉ [0, 1, 8, 9, 15, 32, 33, 40, 41, 48, 49, 56, 57] := by
  simp only [List.mem_cons, List.not_mem_nil, or_false]
  unfold decodeCop1x
  split
  case h_14 => exact rejected_iff (by simp only [imp_false] at *; omega)
  all_goals exact accepted_iff (by omega)

theorem decodeRm7000_error_iff (w : Word) (r : Reserved) : decodeRm7000 w = .error r ↔ r = .rm7000 ∧
    3 ≤ (functF w).toNat := by
  unfold decodeRm7000
  split
  case h_4 => exact rejected_iff (by simp only [imp_false] at *; omega)
  all_goals exact accepted_iff (by omega)

/-- The functions that both formats S and D have (30_encoding.md rule R309). -/
def SharedFp (w : Word) : Prop :=
  (functF w).toNat < 16 ∨ (functF w).toNat ∈ [18, 19, 21, 22, 36, 37] ∨ 48 ≤ (functF w).toNat ∨
    (functF w = 17 ∧ w.getLsbD 17 = false)

theorem sharedFp_iff (w : Word) : SharedFp w ↔ (functF w).toNat < 16 ∨ (functF w).toNat = 18 ∨ (functF w).toNat = 19 ∨
    (functF w).toNat = 21 ∨ (functF w).toNat = 22 ∨ (functF w).toNat = 36 ∨ (functF w).toNat = 37 ∨
    48 ≤ (functF w).toNat ∨ ((functF w).toNat = 17 ∧ (tfF w).toNat < 2) := by
  simp only [SharedFp, ← Bool.not_eq_true, bit17_iff, BitVec.toNat_eq, BitVec.reduceToNat, List.mem_cons,
    List.not_mem_nil, or_false]
  omega

theorem decodeFmtS_error_iff (w : Word) (r : Reserved) : decodeFmtS w = .error r ↔ r = .cop1 (rsF w) (functF w) ∧
    ¬(SharedFp w ∨ functF w = 33) := by
  have hf := (functF w).isLt
  simp only [sharedFp_iff, BitVec.toNat_eq, BitVec.reduceToNat]
  unfold decodeFmtS
  split
  case h_17 =>
    split
    case h_3 => exact rejected_iff (by simp only [imp_false] at *; omega)
    all_goals exact accepted_iff (by omega)
  case h_41 => exact rejected_iff (by simp only [imp_false] at *; omega)
  all_goals exact accepted_iff (by omega)

theorem decodeFmtD_error_iff (w : Word) (r : Reserved) : decodeFmtD w = .error r ↔ r = .cop1 (rsF w) (functF w) ∧
    ¬(SharedFp w ∨ functF w = 32) := by
  have hf := (functF w).isLt
  simp only [sharedFp_iff, BitVec.toNat_eq, BitVec.reduceToNat]
  unfold decodeFmtD
  split
  case h_17 =>
    split
    case h_3 => exact rejected_iff (by simp only [imp_false] at *; omega)
    all_goals exact accepted_iff (by omega)
  case h_41 => exact rejected_iff (by simp only [imp_false] at *; omega)
  all_goals exact accepted_iff (by omega)

theorem decodeFmtW_error_iff (w : Word) (r : Reserved) : decodeFmtW w = .error r ↔ r = .cop1 (rsF w) (functF w) ∧
    (functF w ≠ 32 ∧ functF w ≠ 33) := by
  simp only [ne_eq, BitVec.toNat_eq, BitVec.reduceToNat]
  unfold decodeFmtW
  split
  case h_3 => exact rejected_iff (by simp only [imp_false] at *; omega)
  all_goals exact accepted_iff (by omega)

theorem decodeFmtL_error_iff (w : Word) (r : Reserved) : decodeFmtL w = .error r ↔ r = .cop1 (rsF w) (functF w) ∧
    (functF w ≠ 32 ∧ functF w ≠ 33) := by
  simp only [ne_eq, BitVec.toNat_eq, BitVec.reduceToNat]
  unfold decodeFmtL
  split
  case h_3 => exact rejected_iff (by simp only [imp_false] at *; omega)
  all_goals exact accepted_iff (by omega)

theorem decodeCop1_error_iff (w : Word) (r : Reserved) : decodeCop1 w = .error r ↔ r = .cop1 (rsF w) (functF w) ∧
    ((rsF w).toNat ∉ [0, 1, 2, 4, 5, 6, 8] ∧ (rsF w = 16 → ¬(SharedFp w ∨ functF w = 33)) ∧
      (rsF w = 17 → ¬(SharedFp w ∨ functF w = 32)) ∧ (rsF w = 20 ∨ rsF w = 21 → functF w ≠ 32 ∧ functF w ≠ 33)) := by
  unfold decodeCop1
  split
  case h_8 h => simp [decodeFmtS_error_iff, BitVec.toNat_eq, h]
  case h_9 h => simp [decodeFmtD_error_iff, BitVec.toNat_eq, h]
  case h_10 h => simp [decodeFmtW_error_iff, BitVec.toNat_eq, h]
  case h_11 h => simp [decodeFmtL_error_iff, BitVec.toNat_eq, h]
  case h_12 => exact rejected_iff (by simp_all [BitVec.toNat_eq])
  all_goals exact accepted_iff (by simp [*])

/-- A word is rejected by the major opcode map (30_encoding.md rule R304) or by the map of its opcode. -/
theorem decode_error_iff (w : Word) (r : Reserved) : decode w = .error r ↔
    (r = .majorOpcode ∧ (opF w).toNat ∈ [29, 30, 31, 59]) ∨ (opF w = 0 ∧ decodeSpecial w = .error r) ∨
    (opF w = 1 ∧ decodeRegimm w = .error r) ∨ (opF w = 16 ∧ decodeCop0 w = .error r) ∨
    (opF w = 17 ∧ decodeCop1 w = .error r) ∨ (opF w = 19 ∧ decodeCop1x w = .error r) ∨
    (opF w = 28 ∧ decodeRm7000 w = .error r) := by
  have ho := (opF w).isLt
  simp only [BitVec.toNat_eq, BitVec.reduceToNat]
  unfold decode
  split
  case h_61 =>
    simp only [imp_false] at *
    have hm : (opF w).toNat = 29 ∨ (opF w).toNat = 30 ∨ (opF w).toNat = 31 ∨ (opF w).toNat = 59 := by omega
    simp [*, eq_comm (a := Reserved.majorOpcode)]
  all_goals simp [*]

/-- Settles O3: the class a rejection names tells which map rejected the word, and each map rejects its undefined cells;
what remains for coprocessor 1 is that the class carries the fields `fmt` and `funct` of the word. -/
theorem undefinedOpcodesAreReserved : Obligations.UndefinedOpcodesAreReserved := by
  intro w
  simp only [decode_error_iff, decodeSpecial_error_iff, decodeRegimm_error_iff, decodeCop0_error_iff,
    decodeCop1_error_iff, decodeCop1x_error_iff, decodeRm7000_error_iff, reduceCtorEq, true_and, false_and, and_false, or_false, false_or,
    ne_eq, not_false_eq_true, and_true]
  intro fmt funct
  rw [Reserved.cop1.injEq]
  constructor
  · rintro ⟨hop, ⟨rfl, rfl⟩, h⟩
    exact ⟨hop, rfl, rfl, h⟩
  · rintro ⟨hop, rfl, rfl, h⟩
    exact ⟨hop, ⟨rfl, rfl⟩, h⟩

/-! ## Enabling tests -/

theorem requireIs64_disabled {s : State} (h : is64 s = false) (k : Out) : requireIs64 s k = raise .ri s := by
  rw [requireIs64, h, if_neg Bool.false_ne_true]

theorem requireMips4_disabled {s : State} (h : isMips4 s = false) (k : Out) : requireMips4 s k = raise .ri s := by
  rw [requireMips4, h, if_neg Bool.false_ne_true]

theorem requireIs64_enabled {s : State} (h : is64 s = true) (k : Out) : requireIs64 s k = k := by
  rw [requireIs64, if_pos h]

theorem requireMips4_enabled {s : State} (h : isMips4 s = true) (k : Out) : requireMips4 s k = k := by
  rw [requireMips4, if_pos h]

theorem requireCp0_usable {s : State} (h : cp0Usable s = true) (k : Out) : requireCp0 s k = k := by
  rw [requireCp0, if_pos h]

theorem requireCp0_unusable {s : State} (h : cp0Usable s = false) (k : Out) : requireCp0 s k = raise (.cpU 0) s := by
  rw [requireCp0, h, if_neg Bool.false_ne_true]

theorem requireCu1_usable {s : State} (h : s.status.cu1 = true) (k : Out) : requireCu1 s k = k := by
  rw [requireCu1, if_pos h]

theorem requireCu1_unusable {s : State} (h : s.status.cu1 = false) (k : Out) :
    requireCu1 s k = raise (.cpU 1) s := by
  rw [requireCu1, h, if_neg Bool.false_ne_true]

/-! ## The general exception sequence -/

/-- What an exception leaves in CP0 (60_exceptions.md rule R790): the general sequence writes `Status.EXL`, `EPC`, `BD`
and `ExcCode`; the exception loads, of its own, the registers of a failing address, `CacheErr`, and `W1`, `W2`, `CE` of
`Cause`. -/
theorem takeException_cp0 (e : Exc) (s : State) :
    ∃ d : Cp0, (takeException e s).cp0 = { s.cp0 with
      badVAddr := d.badVAddr, entryHi := d.entryHi, context := d.context, xcontext := d.xcontext
      entryLo0 := d.entryLo0, entryLo1 := d.entryLo1, cacheErr := d.cacheErr
      status := { s.cp0.status with exl := true }
      epc := if s.cp0.status.exl then s.cp0.epc else restartPc s
      cause := { s.cp0.cause with
        w1 := d.cause.w1, w2 := d.cause.w2, ce := d.cause.ce, excCode := excCode e
        bd := if s.cp0.status.exl then s.cp0.cause.bd else s.inDelaySlot } } :=
  ⟨(takeException e s).cp0, by cases e <;> rfl⟩

theorem takeException_pc (e : Exc) (s : State) :
    (takeException e s).pc = vectorBase s + if s.cp0.status.exl then 0x180 else excOffset e := by
  cases e <;> rfl

/-- Every exception that enters through the general sequence does what rule R790 of 60_exceptions.md says. -/
theorem takesGeneral_takeException (e : Exc) (s : State) :
    TakesGeneral (excCode e) (excOffset e) s (takeException e s) := by
  obtain ⟨d, hcp0⟩ := takeException_cp0 e s
  constructor
  case status => rw [hcp0]
  case excCode => rw [hcp0]
  case pc => exact takeException_pc e s
  case slot => rfl
  case fresh =>
    intro h
    simp [hcp0, h, restartPc]
  case nested =>
    intro h
    simp [hcp0, h]
  case software => simp [hcp0]
  case others =>
    rw [hcp0]
    and_intros <;> rfl
  case gpr => exact readGpr_congr (takeException_gpr s e)
  case hilo => simp [KeepsHiLo]
  case rest => simp [KeepsRest]
  case mem => simp [KeepsMem]
  all_goals simp

/-- The general sequence writes none of the registers of a failing address; what the exception loads of its own can. -/
theorem keepsFaultAddress_takeException {e : Exc} {s : State} (h : KeepsFaultAddress s (loadExc e s)) :
    KeepsFaultAddress s (takeException e s) := by
  cases e <;> exact h

/-! ## What a reserved encoding raises (30_encoding.md rule R312; 48_fpu.md rules R661, R676) -/

theorem raise_ri_takesGeneral (s : State) :
    ∃ t, raise .ri s = .next t ∧ TakesGeneral 10 0x180 s t ∧ KeepsFaultAddress s t :=
  ⟨_, rfl, takesGeneral_takeException .ri s, keepsFaultAddress_takeException ⟨rfl, rfl, rfl, rfl, rfl, rfl⟩⟩

theorem raise_cpU_takesGeneral (unit : BitVec 2) (s : State) :
    ∃ t, raise (.cpU unit) s = .next t ∧ KeepsFaultAddress s t ∧ TakesGeneral 11 0x180 s t ∧ t.cp0.cause.ce = unit :=
  ⟨_, rfl, keepsFaultAddress_takeException ⟨rfl, rfl, rfl, rfl, rfl, rfl⟩, takesGeneral_takeException (.cpU unit) s, rfl⟩

/-- The exception of an encoding that coprocessor 1 does not implement. -/
theorem raiseUnimplemented_effect (s : State) :
    ∃ t, raiseUnimplemented s = .next t ∧ KeepsFaultAddress s t ∧
      t.cp0.cause.excCode = 15 ∧ t.fpu = (setFpCause true .none s).fpu :=
  ⟨_, rfl, keepsFaultAddress_takeException ⟨rfl, rfl, rfl, rfl, rfl, rfl⟩, rfl, rfl⟩

theorem reservedEncoding_cop0 (s : State) :
    ∃ t, reservedEncoding .cop0 s = .next t ∧ KeepsFaultAddress s t ∧
      (cp0Usable s = true → TakesGeneral 10 0x180 s t) ∧
      (cp0Usable s = false → TakesGeneral 11 0x180 s t ∧ t.cp0.cause.ce = 0) := by
  rw [reservedEncoding]
  cases h : cp0Usable s with
  | true =>
    obtain ⟨t, ht, hgeneral, hkeeps⟩ := raise_ri_takesGeneral s
    exact ⟨t, (requireCp0_usable h _).trans ht, hkeeps, fun _ => hgeneral, fun hf => nomatch hf⟩
  | false =>
    obtain ⟨t, ht, hkeeps, hgeneral⟩ := raise_cpU_takesGeneral 0 s
    exact ⟨t, (requireCp0_unusable h _).trans ht, hkeeps, fun hf => (nomatch hf), fun _ => hgeneral⟩

/-- The unit's own test, then Unimplemented Operation. -/
theorem requireCu1_raiseUnimplemented (s : State) :
    ∃ t, requireCu1 s (raiseUnimplemented s) = .next t ∧ KeepsFaultAddress s t ∧
      (s.status.cu1 = false → TakesGeneral 11 0x180 s t ∧ t.cp0.cause.ce = 1) ∧
      (s.status.cu1 = true → t.cp0.cause.excCode = 15 ∧ t.fpu.fcr31.causeE = true ∧ t.fpu.fcr31.cause = .none ∧
        t.fpu.fcr31.flags = s.fpu.fcr31.flags ∧ t.fpu.fgr = s.fpu.fgr) := by
  cases h : s.status.cu1 with
  | true =>
    obtain ⟨t, ht, hkeeps, hcode, hfpu⟩ := raiseUnimplemented_effect s
    refine ⟨t, (requireCu1_usable h _).trans ht, hkeeps, fun hf => (nomatch hf), fun _ => ⟨hcode, ?_⟩⟩
    rw [hfpu]
    exact ⟨rfl, rfl, rfl, rfl⟩
  | false =>
    obtain ⟨t, ht, hkeeps, hgeneral⟩ := raise_cpU_takesGeneral 1 s
    exact ⟨t, (requireCu1_unusable h _).trans ht, hkeeps, fun _ => hgeneral, fun hf => nomatch hf⟩

theorem namesLong_iff (fmt : BitVec 5) (funct : BitVec 6) :
    namesLong fmt funct = true ↔ fmt = 21 ∨ (fmt = 20 ∧ funct.toNat ∈ [8, 9, 10, 11, 37]) := by
  simp [namesLong, BitVec.toNat_eq, or_assoc]

theorem reservedEncoding_cop1_enabled {s : State} {fmt : BitVec 5} {funct : BitVec 6}
    (h : namesLong fmt funct = false ∨ is64 s = true) :
    reservedEncoding (.cop1 fmt funct) s = requireCu1 s (raiseUnimplemented s) := by
  rw [reservedEncoding]
  split
  case isTrue hl => exact requireIs64_enabled (h.resolve_left (by simp [hl])) _
  case isFalse => rfl

theorem reservedEncoding_cop1_disabled {s : State} {fmt : BitVec 5} {funct : BitVec 6}
    (hl : namesLong fmt funct = true) (h : is64 s = false) : reservedEncoding (.cop1 fmt funct) s = raise .ri s := by
  rw [reservedEncoding, if_pos hl, requireIs64_disabled h]

/-- Settles O6: each class of reserved encodings makes the tests of its unit, then raises. -/
theorem reservedEncodingsRaise : Obligations.ReservedEncodingsRaise := by
  intro s unimplemented byCu1 reserved
  have byCu1_of {r : Reserved} (h : reservedEncoding r s = requireCu1 s (raiseUnimplemented s)) : byCu1 r := by
    simpa only [byCu1, h] using requireCu1_raiseUnimplemented s
  have reserved_of {r : Reserved} (h : reservedEncoding r s = raise .ri s) : reserved r := by
    simpa only [reserved, h] using raise_ri_takesGeneral s
  refine ⟨?_, reservedEncoding_cop0 s, fun fmt funct => ?_, fun h => byCu1_of (requireMips4_enabled h _),
    fun h => reserved_of (requireMips4_disabled h _)⟩
  · intro r hr
    fin_cases hr <;> exact reserved_of rfl
  · intro long
    rw [show long ↔ namesLong fmt funct = true from (namesLong_iff fmt funct).symm, Bool.not_eq_true]
    exact ⟨fun h => byCu1_of (reservedEncoding_cop1_enabled h),
      fun hl h => reserved_of (reservedEncoding_cop1_disabled hl h)⟩

/-! ## Instructions the mode does not enable (30_encoding.md rule R313) -/

theorem raises_of_isMips3 {s : State} (h : is64 s = false) {i : Instr} (hi : isMips3 i = true) : Raises i s .ri := by
  unfold isMips3 at hi
  split at hi
  case h_31 => cases hi
  all_goals exact requireIs64_disabled h _

theorem raises_of_fpLongCase {s : State} (h : is64 s = false) {i : Instr} (hi : fpLongCase i s ≠ none) :
    Raises i s .ri := by
  unfold fpLongCase at hi
  split at hi
  case h_13 => exact absurd rfl hi
  all_goals exact requireIs64_disabled h _

theorem raises_of_isMips4Integer {s : State} (h : isMips4 s = false) {i : Instr} (hi : isMips4Integer i = true) :
    Raises i s .ri := by
  unfold isMips4Integer at hi
  split at hi
  case h_6 => cases hi
  all_goals exact requireMips4_disabled h _

/-- The defined instructions of opcode 19 are those its map gives (30_encoding.md rule R310). -/
theorem raises_of_decodeCop1x {s : State} (h : isMips4 s = false) {i : Instr} {w : Word} (hi : decodeCop1x w = .ok i) :
    Raises i s .ri := by
  unfold decodeCop1x at hi
  split at hi
  case h_14 => cases hi
  all_goals
    obtain rfl := Except.ok.inj hi
    exact requireMips4_disabled h _

theorem raises_of_cop1x {s : State} (h : isMips4 s = false) {i : Instr} (hi : opF (encode i) = 19) :
    Raises i s .ri := by
  have hw := decode_encode i
  rw [decode_at19 _ (congrArg BitVec.toNat hi)] at hw
  exact raises_of_decodeCop1x h hw

/-- Settles O15: the mode test comes first in the meaning of each of these instructions. -/
theorem disabledInstructionsAreReserved : Obligations.DisabledInstructionsAreReserved := by
  intro s i
  refine ⟨fun h hi => ?_, fun h hi => hi.elim (raises_of_isMips4Integer h) (raises_of_cop1x h)⟩
  obtain h3 | hlong | ⟨rt, fs, rfl | rfl⟩ := hi
  · exact raises_of_isMips3 h h3
  · exact raises_of_fpLongCase h hlong
  · exact requireIs64_disabled h _
  · exact requireIs64_disabled h _

end Sys2Proof.Proofs

/-! # Coprocessor 0: `ERET`, the JTLB, `WAIT`, the moves

Each instruction is `requireCp0` around its own answer (`does_of_cp0`). `TLBP` compares the entries with the address that
`EntryHi` holds, so the facts about `matchesOf` serve it. In Standby a step is `standbyStep`, said once for each of its
outcomes. A move to CP0 writes one register and leaves the others (`WritesOnly`, `KeepsOutsideCp0`); that it writes the
register through its mask follows from the fields, since a register is a concatenation of them (`masked_append`). -/

namespace Sys2Proof.Proofs

open Sys2Proof.Machine Sys2Proof.Safety Sys2Proof.Laws

/-! ## Answers of the instructions of CP0 -/

/-- An instruction of CP0 that completes where CP0 is usable (40_cp0_instructions.md rule R350). -/
theorem does_of_cp0 {i : Instr} {s t : State} {k : Out} {P : State → Prop} (hu : cp0Usable s = true)
    (hi : exec i s = requireCp0 s k) (hk : k = .next t) (hP : P t) : Does i s P :=
  ⟨t, by rw [hi, requireCp0_usable hu, hk], hP⟩

/-- An instruction of CP0 that stops. -/
theorem exec_of_cp0 {i : Instr} {s : State} {k o : Out} (hu : cp0Usable s = true) (hi : exec i s = requireCp0 s k)
    (hk : k = o) : exec i s = o := by
  rw [hi, requireCp0_usable hu, hk]

/-- Completing with other CP0 registers, after `n` free values were drawn. -/
theorem onlyCp0_advance (s : State) (n : Nat) (c : Cp0) : OnlyCp0 s (advance { s.drew n with cp0 := c }) :=
  ⟨readGpr_congr (advance_gpr _), by simp [KeepsHiLo], by simp, by simp, by simp, by simp [KeepsRest],
    fun a => by simp, continues_advance s _ rfl rfl rfl⟩

/-! ## `ERET` (rule R356) -/

theorem returnFromException_error {s : State} (h : s.cp0.status.erl = true) :
    (returnFromException s).pc = s.cp0.errorEpc ∧
      (returnFromException s).cp0 = { s.cp0 with status := { s.cp0.status with erl := false } } := by
  rw [returnFromException, State.status, if_pos h]
  exact ⟨rfl, rfl⟩

theorem returnFromException_exception {s : State} (h : s.cp0.status.erl = false) :
    (returnFromException s).pc = s.cp0.epc ∧
      (returnFromException s).cp0 = { s.cp0 with status := { s.cp0.status with exl := false } } := by
  rw [returnFromException, State.status, h]
  exact ⟨rfl, rfl⟩

theorem returnFromException_llBit (s : State) : (returnFromException s).llBit = false := by
  unfold returnFromException
  split <;> rfl

/-- Settles O20: the two returns differ in the address and in the bit; the frame is that of `returnFromException`. -/
theorem eretReturns : Obligations.EretReturns := by
  intro s
  refine ⟨fun hu hslot => ?_, fun hu hslot => ?_, fun hu => requireCp0_unusable hu _⟩
  · refine does_of_cp0 hu rfl (if_neg (by rw [hslot]; decide)) ⟨returnFromException_error, returnFromException_exception,
      returnFromException_llBit s, ?_, readGpr_congr (returnFromException_gpr s), ?_, ?_, ?_, ?_, fun a => ?_⟩
    · rw [returnFromException_inDelaySlot, hslot]
    · simp [KeepsHiLo]
    · simp
    · simp
    · simp [KeepsRest]
    · simp
  · exact exec_of_cp0 hu rfl (if_pos hslot)

/-! ## The TLB operations (rules R358 to R361) -/

theorem tlbSize_eq_tlbTop (s : State) : tlbSize s = (tlbTop s).toNat + 1 := by
  unfold tlbSize tlbTop
  split <;> rfl

/-- Completing with another entry `i` of the JTLB. -/
theorem onlyTlbEntry_advance (s : State) (i : BitVec 6) (e : TlbEntry) :
    OnlyTlbEntry ⟨i.toNat, i.isLt⟩ e s (advance (writeTlb i e s)) :=
  ⟨by rw [advance_tlb]; rfl, by simp, readGpr_congr (by simp), by simp [KeepsHiLo], by simp, by simp, by simp [KeepsRest],
    fun a => by simp, continues_advance s _ rfl rfl rfl⟩

/-- The `VPN2` bits that `TLBR` reads back are those outside the mask. -/
theorem loadRegs_vpn2 (e : TlbEntry) (s : State) {b : Nat} (hb : b < 27) (hm : e.mask.getLsbD b = false) :
    (loadRegs e s).cp0.entryHi.vpn2.getLsbD b = e.vpn2.getLsbD b := by
  simp only [loadRegs]
  split
  · rfl
  · simp [hm, hb]

theorem entryHi_region (e : EntryHi) : e.toDword.extractLsb' 62 2 = e.r := by
  unfold EntryHi.toDword
  simp only [BitVec.extractLsb'_append_eq_ite]
  simp

theorem entryHi_vpn2 (e : EntryHi) : e.toDword.extractLsb' 13 27 = e.vpn2 := by
  unfold EntryHi.toDword
  simp only [BitVec.extractLsb'_append_eq_ite]
  simp

/-- `TLBP` compares the entries with the address that `EntryHi` holds. -/
theorem tlbMatches_entryHi (s : State) :
    tlbMatches s s.cp0.entryHi.r s.cp0.entryHi.vpn2 = matchesOf s s.cp0.entryHi.toDword := by
  rw [matchesOf, entryHi_region, entryHi_vpn2]

theorem entryMatches_entryHi (s : State) (k : Nat) (e : TlbEntry) :
    EntryMatches s s.cp0.entryHi.toDword k e ↔ k < tlbSize s ∧ s.tlb[k]? = some e ∧ e.r = s.cp0.entryHi.r ∧
      (e.g = true ∨ e.asid = s.cp0.entryHi.asid) ∧
      ∀ b, b < 27 → e.mask.getLsbD b = false → e.vpn2.getLsbD b = s.cp0.entryHi.vpn2.getLsbD b := by
  have hr : e.r.toNat = s.cp0.entryHi.toDword.toNat / 2 ^ 62 ↔ e.r = s.cp0.entryHi.r := by
    rw [← region_toNat, entryHi_region, BitVec.toNat_inj]
  have hv (b : Nat) (hb : b < 27) : s.cp0.entryHi.toDword.getLsbD (13 + b) = s.cp0.entryHi.vpn2.getLsbD b := by
    rw [← entryHi_vpn2, BitVec.getLsbD_extractLsb', decide_eq_true hb, Bool.true_and]
  rw [EntryMatches, hr]
  simp +contextual only [hv]

/-- Settles O51: each operation answers by its index, its range or the number of matching entries. -/
theorem tlbOperations : Obligations.TlbOperations := by
  intro s hu lo0 lo1 entry i hit
  have hmatch (k : Nat) (e : TlbEntry) : EntryMatches s s.cp0.entryHi.toDword k e ↔ hit k e := entryMatches_entryHi s k e
  refine ⟨fun hi => ?_, fun hi => ⟨?_, ?_⟩, fun hw => ?_, fun hw => ?_, fun hi e he => ?_, fun hnone => ?_,
    fun k e hk hone => ?_, fun j k e e' hj hk hne => ?_⟩
  · exact does_of_cp0 hu rfl (if_neg (Nat.not_le.2 hi)) (onlyTlbEntry_advance s i entry)
  · exact exec_of_cp0 hu rfl (if_pos hi)
  · exact exec_of_cp0 hu rfl (if_pos hi)
  · have htop : ¬s.cp0.wired.toNat > (tlbTop s).toNat := by rw [tlbSize_eq_tlbTop] at hw; omega
    exact does_of_cp0 hu rfl (if_neg htop) (onlyTlbEntry_advance s s.cp0.random entry)
  · have htop : s.cp0.wired.toNat > (tlbTop s).toNat := by rw [tlbSize_eq_tlbTop] at hw; omega
    exact exec_of_cp0 hu rfl (if_pos htop)
  · obtain ⟨-, rfl⟩ := Vector.getElem?_eq_some_iff.1 he
    refine does_of_cp0 hu rfl (if_neg (Nat.not_le.2 hi)) ⟨onlyCp0_advance s 1 _, ?_⟩
    rw [advance_cp0]
    exact ⟨rfl, rfl, rfl, fun b hb hm => loadRegs_vpn2 _ s hb hm⟩
  · have hlist := matchesOf_eq_nil s _ fun k e hk => hnone k e ((hmatch k e).1 hk)
    refine does_of_cp0 hu rfl (by rw [tlbMatches_entryHi, hlist]; rfl) ⟨onlyCp0_advance s 1 _, ?_⟩
    rw [advance_cp0]
    exact ⟨rfl, rfl⟩
  · have hlist := matchesOf_eq_singleton s _ k e ((hmatch k e).2 hk) fun j e' hj => hone j e' ((hmatch j e').1 hj)
    refine does_of_cp0 hu rfl (by rw [tlbMatches_entryHi, hlist]; rfl) ⟨onlyCp0_advance s 0 _, ?_⟩
    rw [advance_cp0]
  · obtain ⟨x, y, r, hlist⟩ := matchesOf_two s _ j k e e' ((hmatch j e).2 hj) ((hmatch k e').2 hk) hne
    exact exec_of_cp0 hu rfl (by rw [tlbMatches_entryHi, hlist])

/-! ## `WAIT` and Standby (rule R357; 60_exceptions.md rule R862) -/

theorem intRequest_exl {s : State} (h : intRequest s = true) : s.cp0.status.exl = false := by
  simp only [intRequest, intEnabled, State.status, Bool.and_eq_true, Bool.not_eq_true'] at h
  obtain ⟨⟨⟨-, hexl⟩, -⟩, -⟩ := h
  exact hexl

/-- An interrupt without a dedicated vector (60_exceptions.md rule R856). -/
theorem takeInterrupt_common {s : State} (h : s.cp0.cause.iv = false) :
    takeInterrupt s = .next (takeException (.int 0x180) s) := by
  rw [takeInterrupt, h]
  rfl

theorem standbyStep_interrupt {e : HostEvent} {s : State} (h : intRequest s = true) :
    standbyStep e s = takeInterrupt { s with standby := false } :=
  if_pos h

theorem standbyStep_wakes {e : HostEvent} {s : State} (h : intRequest s = false)
    (hw : isExternalRequest e = true ∨ ∃ n, 2 ≤ n ∧ n < 14 ∧ intSource s n = true) :
    standbyStep e s = .next { s with standby := false } := by
  refine (if_neg (by simp [h])).trans (if_pos ?_)
  rcases hw with he | ⟨n, hn2, hn, hsource⟩
  · simp [he]
  · simp only [Bool.or_eq_true, List.any_eq_true, List.mem_range, Bool.and_eq_true, decide_eq_true_eq]
    exact .inr ⟨n, hn, hn2, hsource⟩

theorem standbyStep_sleeps {e : HostEvent} {s : State} (h : intRequest s = false) (he : isExternalRequest e = false)
    (hn : ∀ n, 2 ≤ n → n < 14 → intSource s n = false) : standbyStep e s = .next s := by
  refine (if_neg (by simp [h])).trans (if_neg ?_)
  simp only [he, Bool.false_or, List.any_eq_true, List.mem_range, Bool.and_eq_true, decide_eq_true_eq]
  rintro ⟨n, hlt, h2, hsource⟩
  rw [hn n h2 hlt] at hsource
  cases hsource

/-- In Standby, where no NMI comes, a step is that of Standby: nothing is fetched (60_exceptions.md rules R772, R862). -/
theorem afterEvent_standby {before s : State} {e : HostEvent} (hnmi : nmiNow s = false ∨ s.nmiLevel = true)
    (hs : s.standby = true) : afterEvent before e s = tickOut before false false (standbyStep e (sampled s)) := by
  have hedge : (nmiNow s && !s.nmiLevel) = false := by rcases hnmi with h | h <;> simp [h]
  rw [afterEvent, hedge]
  exact (if_neg Bool.false_ne_true).trans (if_pos hs)

theorem step_standby {s : State} (hevents : s.events = []) (hnmi : nmiNow s = false ∨ s.nmiLevel = true)
    (hs : s.standby = true) : step s = tickOut s false false (standbyStep .quiet (sampled s)) := by
  rw [← afterEvent_standby hnmi hs, step, stepOnce, hevents]
  rfl

/-- A step with an external request applies it, then goes on from NMI. -/
theorem step_externalRequest {s : State} {e : HostEvent} {es : List HostEvent} (hevents : s.events = e :: es)
    (he : isExternalRequest e = true) :
    step s = afterEvent { s with events := es } e (applyEvent e { s with events := es }) := by
  rw [step, stepOnce, hevents]
  cases e with
  | externalWrite => rfl
  | nullRequest => rfl
  | _ => cases he

/-- An external request writes the Interrupt register at most. -/
theorem applyEvent_externalRequest {e : HostEvent} (s : State) (he : isExternalRequest e = true) :
    (applyEvent e s).nmiLevel = s.nmiLevel ∧ (applyEvent e s).standby = s.standby := by
  cases e with
  | externalWrite addr data => rw [applyEvent]; split <;> exact ⟨rfl, rfl⟩
  | nullRequest => exact ⟨rfl, rfl⟩
  | _ => cases he

/-- `WAIT` writes `Standby` and nothing else. -/
theorem wait_does {s : State} (hu : cp0Usable s = true) : Does .wait s (fun t =>
    t.standby = (s.standby || s.busIdle) ∧ KeepsGpr s t ∧ KeepsHiLo s t ∧ t.fpu = s.fpu ∧ KeepsControl s t ∧
      t.llBit = s.llBit ∧ KeepsMem s t ∧ Continues s t ∧ KeepsRest s { t with standby := s.standby }) := by
  have hwait : (if s.busIdle then { s with standby := true } else s) = { s with standby := s.standby || s.busIdle } := by
    split
    · next h => rw [show (s.standby || s.busIdle) = true by simp [h]]
    · next h => rw [show (s.standby || s.busIdle) = s.standby by simp [h]]
  refine does_of_cp0 hu rfl (congrArg complete hwait) ⟨?_, readGpr_congr (advance_gpr _), ?_, ?_, ?_, ?_, fun a => ?_,
    continues_advance s _ rfl rfl rfl, ?_⟩
  · simp
  · simp [KeepsHiLo]
  · simp
  · simp [KeepsControl]
  · simp
  · simp
  · simp [KeepsRest]

/-- Settles O23: the step is `standbyStep`, which an interrupt, another source or a request makes leave Standby. -/
theorem standbyEndsOnInterrupt : Obligations.StandbyEndsOnInterrupt := by
  refine ⟨fun s hu => wait_does hu, fun s hevents hnmi hs => ⟨fun hint hn => ?_, fun hint hn => ?_, fun hint hiv => ?_⟩,
    ?_⟩
  · rw [step_standby hevents hnmi hs, standbyStep_sleeps (s := sampled s) hint rfl hn]
  · rw [step_standby hevents hnmi hs, standbyStep_wakes (s := sampled s) hint (.inr hn)]
  · have hawake := takeInterrupt_common (s := { sampled s with standby := false }) hiv
    have hgeneral := takesGeneral_takeException (.int 0x180) { sampled s with standby := false }
    rw [step_standby hevents hnmi hs, standbyStep_interrupt (s := sampled s) hint, hawake]
    exact ⟨_, rfl, takeException_standby _ _, hgeneral.excCode, (hgeneral.fresh (intRequest_exl hint)).1⟩
  · intro s e es hevents he hs s1 u hnmi hint
    have hreq : isExternalRequest e = true := by rcases he with rfl | ⟨addr, data, rfl⟩ <;> rfl
    obtain ⟨hlevel, hstandby⟩ := applyEvent_externalRequest s1 hreq
    rw [step_externalRequest hevents hreq, afterEvent_standby (hnmi.imp_right hlevel.trans) (hstandby.trans hs),
      standbyStep_wakes (s := sampled u) hint (.inl hreq)]

/-! ## Masked writes

A register is a concatenation of fields, and a masked write of a concatenation is one of its parts (`masked_append`). So
a mask that takes or leaves whole fields gives the fields that the model's write stores. -/

/-- A field that holds `old` and receives, through a mask, the bits of `new` from bit `k` up. -/
def masked {n w : Nat} (old mask : BitVec n) (new : BitVec w) (k : Nat) : BitVec n :=
  (old &&& ~~~mask) ||| (new.extractLsb' k n &&& mask)

theorem masked_register {n : Nat} (old mask new : BitVec n) :
    masked old mask new 0 = (old &&& ~~~mask) ||| (new &&& mask) := by
  rw [masked, BitVec.extractLsb'_eq_self]

@[simp] theorem masked_none {n w : Nat} {mask : BitVec n} (h : mask = 0#n) (old : BitVec n) (new : BitVec w) (k : Nat) :
    masked old mask new k = old := by
  simp [masked, h]

@[simp] theorem masked_all {n w : Nat} {mask : BitVec n} (h : mask = BitVec.allOnes n) (old : BitVec n) (new : BitVec w)
    (k : Nat) : masked old mask new k = new.extractLsb' k n := by
  simp [masked, h]

theorem masked_append {n m w : Nat} (hi : BitVec n) (lo : BitVec m) (mask : BitVec (n + m)) (new : BitVec w) (k : Nat) :
    masked (hi ++ lo) mask new k =
      masked hi ((mask >>> m).setWidth n) new (k + m) ++ masked lo (mask.setWidth m) new k := by
  unfold masked
  ext i hi'
  simp only [BitVec.getElem_or, BitVec.getElem_and, BitVec.getElem_not, BitVec.getElem_append, BitVec.getElem_extractLsb',
    BitVec.getElem_setWidth, BitVec.getLsbD_ushiftRight]
  split
  · next h => simp [BitVec.getLsbD_eq_getElem hi']
  · next h => simp [BitVec.getLsbD_eq_getElem hi', Nat.add_assoc, Nat.add_sub_cancel' (Nat.le_of_not_lt h)]

/-- A masked write of a register that reads zero-extended. -/
theorem masked_setWidth {n w m : Nat} (old mask : BitVec n) (new : BitVec w) :
    masked (old.setWidth m) (mask.setWidth m) new 0 = (masked old mask new 0).setWidth m := by
  ext i hi
  by_cases hn : i < n
  · simp [masked, BitVec.getElem_setWidth, hn]
  · simp [masked, BitVec.getElem_setWidth, BitVec.getLsbD_of_ge _ _ (Nat.le_of_not_lt hn)]

theorem extractLsb'_bit {w : Nat} (x : BitVec w) (k : Nat) : x.extractLsb' k 1 = bv1 (x.getLsbD k) := by
  ext i hi
  obtain rfl : i = 0 := by omega
  simp [bv1]

theorem getLsbD_bit64 (b : Bool) {p : Nat} (hp : p < 64) (i : Nat) : (bit64 b p).getLsbD i = (decide (i = p) && b) := by
  simp only [bit64, BitVec.getLsbD_shiftLeft, BitVec.getLsbD_setWidth, BitVec.getLsbD_ofBool]
  grind

theorem getLsbD_bit32 (b : Bool) {p : Nat} (hp : p < 32) (i : Nat) : (bit32 b p).getLsbD i = (decide (i = p) && b) := by
  simp only [bit32, BitVec.getLsbD_shiftLeft, BitVec.getLsbD_setWidth, BitVec.getLsbD_ofBool]
  grind

/-! The registers that the model builds from single bits, as concatenations. -/

theorem watch_toDword (x : Watch) : x.toDword = bv1 x.st ++ bv1 x.ld ++ bv1 x.ifetch ++ 0#25 ++ x.pa ++ 0#2 := by
  apply BitVec.eq_of_getLsbD_eq
  intro i hi
  simp only [Watch.toDword, BitVec.getLsbD_or, getLsbD_bit64, Config.watchStBit, Config.watchLdBit, Config.watchInBit,
    Nat.reduceLT, BitVec.getLsbD_append, BitVec.getLsbD_shiftLeft, BitVec.getLsbD_setWidth, bv1, BitVec.getLsbD_ofBool,
    BitVec.getLsbD_zero]
  grind

theorem watchMask_toWord (x : WatchMask) : x.toWord = x.mask ++ bv1 x.w2 ++ bv1 x.w1 := by
  apply BitVec.eq_of_getLsbD_eq
  intro i hi
  simp only [WatchMask.toWord, BitVec.getLsbD_or, getLsbD_bit32, Config.wmaskW2Bit, Config.wmaskW1Bit, Nat.reduceLT,
    BitVec.getLsbD_append, BitVec.getLsbD_shiftLeft, BitVec.getLsbD_setWidth, bv1, BitVec.getLsbD_ofBool]
  grind

theorem perfControl_toWord (x : PerfControl) :
    x.toWord = 0#21 ++ bv1 x.ce ++ bv1 x.um ++ bv1 x.km ++ 0#3 ++ x.csf := by
  apply BitVec.eq_of_getLsbD_eq
  intro i hi
  simp only [PerfControl.toWord, BitVec.getLsbD_or, getLsbD_bit32, Config.perfCeBit, Config.perfUmBit, Config.perfKmBit,
    Nat.reduceLT, BitVec.getLsbD_append, BitVec.getLsbD_setWidth, bv1, BitVec.getLsbD_ofBool, BitVec.getLsbD_zero]
  grind

theorem intControl_toWord (x : IntControl) : x.toWord = 0#16 ++ x.im ++ bv1 x.te ++ 0#2 ++ x.vs := by
  apply BitVec.eq_of_getLsbD_eq
  intro i hi
  simp only [IntControl.toWord, BitVec.getLsbD_or, getLsbD_bit32, Config.intctlTeBit, Nat.reduceLT,
    BitVec.getLsbD_append, bv1, BitVec.getLsbD_ofBool, BitVec.getLsbD_zero]
  grind

/-! ## Writes of the registers with fields, as masked writes (10_state.md rules R121 to R162) -/

theorem index_write (x : IndexReg) (w : Word) : (x.write w).toWord = masked x.toWord 0x3F w 0 := by
  unfold IndexReg.toWord
  repeat rw [masked_append]
  simp [IndexReg.write]

theorem entryLo_write (x : EntryLo) (v : Dword) : (EntryLo.ofDword v).toDword = masked x.toDword 0x3FFFFFFF v 0 := by
  unfold EntryLo.toDword
  repeat rw [masked_append]
  simp [EntryLo.ofDword, extractLsb'_bit]

theorem context_write (x : Context) (v : Dword) : (x.write v).toDword = masked x.toDword 0xFFFFFFFFFF800000 v 0 := by
  unfold Context.toDword
  repeat rw [masked_append]
  simp [Context.write]

theorem pageMask_write (x : BitVec 12) (w : Word) :
    pageMaskWord (w.extractLsb' 13 12) = masked (pageMaskWord x) 0x01FFE000 w 0 := by
  unfold pageMaskWord
  repeat rw [masked_append]
  simp

theorem entryHi_write (x : EntryHi) (v : Dword) :
    (EntryHi.ofDword v).toDword = masked x.toDword 0xC00000FFFFFFE0FF v 0 := by
  unfold EntryHi.toDword
  repeat rw [masked_append]
  simp [EntryHi.ofDword]

theorem status_write (x : Status) (w : Word) : (Status.ofWord w).toWord = masked x.toWord 0xFE57FFFF w 0 := by
  unfold Status.toWord
  repeat rw [masked_append]
  simp [Status.ofWord, extractLsb'_bit]

theorem cause_write (x : Cause) (ip : BitVec 12) (w : Word) :
    (x.write w).toWord ip = masked (x.toWord ip) 0x07000300 w 0 := by
  unfold Cause.toWord
  repeat rw [masked_append]
  simp [Cause.write, extractLsb'_bit]

theorem config_write (x : ConfigReg) (p : Params) (w : Word) :
    (ConfigReg.ofWord w).toWord p = masked (x.toWord p) 0x100F w 0 := by
  unfold ConfigReg.toWord
  repeat rw [masked_append]
  simp [ConfigReg.ofWord, extractLsb'_bit]

theorem watch_write (x : Watch) (v : Dword) : (Watch.ofDword v).toDword = masked x.toDword 0xE000000FFFFFFFFC v 0 := by
  rw [watch_toDword, watch_toDword]
  repeat rw [masked_append]
  simp [Watch.ofDword, extractLsb'_bit, Config.watchStBit, Config.watchLdBit, Config.watchInBit]

theorem xcontext_write (x : XContext) (v : Dword) : (x.write v).toDword = masked x.toDword 0xFFFFFFFE00000000 v 0 := by
  unfold XContext.toDword
  repeat rw [masked_append]
  simp [XContext.write]

theorem perfControl_write (x : PerfControl) (w : Word) :
    (PerfControl.ofWord w).toWord = masked x.toWord 0x71F w 0 := by
  rw [perfControl_toWord, perfControl_toWord]
  repeat rw [masked_append]
  simp [PerfControl.ofWord, extractLsb'_bit, Config.perfCeBit, Config.perfUmBit, Config.perfKmBit]

theorem watchMask_write (x : WatchMask) (w : Word) :
    (WatchMask.ofWord w).toWord = masked x.toWord 0xFFFFFFFF w 0 := by
  rw [watchMask_toWord, watchMask_toWord]
  repeat rw [masked_append]
  simp [WatchMask.ofWord, extractLsb'_bit, Config.wmaskW2Bit, Config.wmaskW1Bit]

theorem ecc_write (x : EccReg) (w : Word) : (x.write w).toWord = masked x.toWord 0x1E0000FF w 0 := by
  unfold EccReg.toWord
  repeat rw [masked_append]
  simp [EccReg.write, extractLsb'_bit]

theorem intControl_write (x : IntControl) (w : Word) : (IntControl.ofWord w).toWord = masked x.toWord 0x0000FF9F w 0 := by
  rw [intControl_toWord, intControl_toWord]
  repeat rw [masked_append]
  simp [IntControl.ofWord, extractLsb'_bit, Config.intctlTeBit]

/-- A masked write of a register of 32 bits is one of its low word. -/
theorem masked_wide (old mask : Word) (v : Dword) :
    masked (wide old) (wide mask) v 0 = wide (masked old mask (low32 v) 0) := by
  have hlow : masked old mask v 0 = masked old mask (low32 v) 0 := by
    rw [masked, masked, low32, BitVec.truncate_eq_setWidth, BitVec.extractLsb'_setWidth_of_le (by decide)]
  rw [← hlow]
  exact masked_setWidth old mask v

/-! ## What a move to CP0 writes (rules R353, R364) -/

/-- A move to register `n` of set 0 turns the CP0 registers `c` into `d`: it writes the field of `n`, and no other. -/
structure WritesOnly (n : Nat) (c d : Cp0) : Prop where
  index : n ≠ 0 → d.index = c.index
  random : n ≠ 6 → d.random = c.random
  entryLo0 : n ≠ 2 → d.entryLo0 = c.entryLo0
  entryLo1 : n ≠ 3 → d.entryLo1 = c.entryLo1
  context : n ≠ 4 → d.context = c.context
  pageMask : n ≠ 5 → d.pageMask = c.pageMask
  wired : n ≠ 6 → d.wired = c.wired
  badVAddr : d.badVAddr = c.badVAddr
  count : n ≠ 9 → d.count = c.count
  entryHi : n ≠ 10 → d.entryHi = c.entryHi
  compare : n ≠ 11 → d.compare = c.compare
  status : n ≠ 12 → n ≠ 7 → d.status = c.status
  cause : n ≠ 13 → d.cause = c.cause
  epc : n ≠ 14 → d.epc = c.epc
  config : n ≠ 16 → d.config = c.config
  llAddr : n ≠ 17 → d.llAddr = c.llAddr
  watch1 : n ≠ 18 → d.watch1 = c.watch1
  watch2 : n ≠ 19 → d.watch2 = c.watch2
  xcontext : n ≠ 20 → d.xcontext = c.xcontext
  perfControl : n ≠ 22 → d.perfControl = c.perfControl
  watchMask : n ≠ 24 → d.watchMask = c.watchMask
  perfCount : n ≠ 25 → d.perfCount = c.perfCount
  ecc : n ≠ 26 → d.ecc = c.ecc
  cacheErr : d.cacheErr = c.cacheErr
  tagLo : n ≠ 28 → d.tagLo = c.tagLo
  tagHi : n ≠ 29 → d.tagHi = c.tagHi
  errorEpc : n ≠ 30 → d.errorEpc = c.errorEpc
  iplLo : d.iplLo = c.iplLo
  iplHi : d.iplHi = c.iplHi
  intControl : d.intControl = c.intControl
  dErrAddr0 : d.dErrAddr0 = c.dErrAddr0
  dErrAddr1 : d.dErrAddr1 = c.dErrAddr1

theorem WritesOnly.refl (n : Nat) (c : Cp0) : WritesOnly n c c := by constructor <;> intros <;> rfl

/-- A move to register `n` of set 0 leaves the state outside the CP0 registers alone, but for the timer latch
(`Compare`), the floating-point registers (`Status`) and the tertiary cache (`Config`). -/
structure KeepsOutsideCp0 (n : Nat) (s t : State) : Prop where
  gpr : t.gpr = s.gpr
  hi : t.hi = s.hi
  lo : t.lo = s.lo
  pc : t.pc = s.pc
  inDelaySlot : t.inDelaySlot = s.inDelaySlot
  branchTarget : t.branchTarget = s.branchTarget
  fpu : n ≠ 12 → t.fpu = s.fpu
  fcr31 : t.fpu.fcr31 = s.fpu.fcr31
  tlb : t.tlb = s.tlb
  llBit : t.llBit = s.llBit
  intReg : t.intReg = s.intReg
  intPin : t.intPin = s.intPin
  nmiPin : t.nmiPin = s.nmiPin
  nmiLevel : t.nmiLevel = s.nmiLevel
  timerPending : n ≠ 11 → t.timerPending = s.timerPending
  standby : t.standby = s.standby
  busIdle : t.busIdle = s.busIdle
  caches : n ≠ 16 → t.caches = s.caches
  mem : t.mem = s.mem
  params : t.params = s.params
  pendingErrors : t.pendingErrors = s.pendingErrors
  events : t.events = s.events

theorem KeepsOutsideCp0.refl (n : Nat) (s : State) : KeepsOutsideCp0 n s s := by constructor <;> intros <;> rfl

theorem writeStatus_cp0 (w : Word) (s : State) : (writeStatus w s).cp0 = { s.cp0 with status := Status.ofWord w } := by
  unfold writeStatus
  dsimp only
  split <;> rfl

theorem scrambleFgr_fcr31 (s : State) : (scrambleFgr s).fpu.fcr31 = s.fpu.fcr31 := by
  simp only [scrambleFgr]

theorem writeStatus_fcr31 (w : Word) (s : State) : (writeStatus w s).fpu.fcr31 = s.fpu.fcr31 := by
  unfold writeStatus
  dsimp only
  split
  · rfl
  · exact scrambleFgr_fcr31 s

/-- Without a change of `FR` the floating-point registers stay. -/
theorem writeStatus_fpu {w : Word} {s : State} (h : w.getLsbD 26 = s.cp0.status.fr) : (writeStatus w s).fpu = s.fpu := by
  have hfr : ((Status.ofWord w).fr == s.status.fr) = true := beq_iff_eq.2 h
  rw [writeStatus]
  dsimp only
  rw [if_pos hfr]

/-- Without a rise of `TE` the caches stay. -/
theorem writeConfig_caches {w : Word} {s : State} (h : w.getLsbD 12 = false ∨ s.cp0.config.te = true) :
    (writeConfig w s).caches = s.caches := by
  have hte : ¬((ConfigReg.ofWord w).te && !s.cp0.config.te) = true := by
    rw [ConfigReg.ofWord]
    rcases h with h | h <;> rw [h] <;> simp
  exact if_neg hte

theorem writeCp0_writesOnly (n : RegNum) (v : Dword) (s : State) : WritesOnly n.toNat s.cp0 (writeCp0 n v s).cp0 := by
  unfold writeCp0
  dsimp only
  split
  case h_7 h =>
    split
    · constructor <;> simp [h]
    · exact .refl _ _
  case h_11 h =>
    rw [writeStatus_cp0]
    constructor <;> simp [h]
  case h_14 h => constructor <;> simp [h, writeConfig]
  case h_26 => exact .refl _ _
  all_goals next h => constructor <;> simp [h]

theorem writeCp0_keepsOutsideCp0 (n : RegNum) (v : Dword) (s : State) :
    KeepsOutsideCp0 n.toNat s (writeCp0 n v s) := by
  unfold writeCp0
  dsimp only
  split
  case h_7 => split <;> exact { KeepsOutsideCp0.refl n.toNat s with }
  case h_10 h => exact { KeepsOutsideCp0.refl n.toNat s with timerPending := fun hn => absurd h hn }
  case h_11 h => constructor <;> simp [h, writeStatus_fcr31]
  case h_14 h => exact { KeepsOutsideCp0.refl n.toNat s with caches := fun hn => absurd h hn }
  all_goals exact { KeepsOutsideCp0.refl n.toNat s with }

/-! ## What the registers of CP0 read -/

/-- What the registers of set 0 read depends on CP0, the parameters and the interrupt sources. -/
theorem readCp0_congr {s t : State} (hcp0 : t.cp0 = s.cp0) (hparams : t.params = s.params) (hpin : t.intPin = s.intPin)
    (hreg : t.intReg = s.intReg) (htimer : t.timerPending = s.timerPending) : readCp0 t = readCp0 s := by
  have hread : readCp0 t = readCp0 { s with
      cp0 := t.cp0, params := t.params, intPin := t.intPin, intReg := t.intReg, timerPending := t.timerPending } := rfl
  rw [hread, hcp0, hparams, hpin, hreg, htimer]

theorem readCp0_advance (s : State) : readCp0 (advance s) = readCp0 s :=
  readCp0_congr (advance_cp0 s) (advance_params s) (advance_intPin s) (advance_intReg s) (advance_timerPending s)

theorem causeWord_congr {s t : State} (hcause : t.cp0.cause = s.cp0.cause) (hcontrol : t.cp0.intControl = s.cp0.intControl)
    (hcount : t.cp0.perfCount = s.cp0.perfCount) (hparams : t.params = s.params) (hpin : t.intPin = s.intPin)
    (hreg : t.intReg = s.intReg) (htimer : t.timerPending = s.timerPending) : causeWord t = causeWord s := by
  have hread : causeWord t = causeWord { s with
      cp0 := { s.cp0 with cause := t.cp0.cause, intControl := t.cp0.intControl, perfCount := t.cp0.perfCount }
      params := t.params, intPin := t.intPin, intReg := t.intReg, timerPending := t.timerPending } := rfl
  rw [hread, hcause, hcontrol, hcount, hparams, hpin, hreg, htimer]

theorem ne_of_not_readsAlong {n q : RegNum} (h : readsAlong n q = false) : (q.toNat = 1 → n.toNat ≠ 6) ∧
    (q.toNat = 12 → n.toNat ≠ 7) ∧ (q.toNat = 13 → n.toNat ≠ 11) ∧ (q.toNat = 13 → n.toNat ≠ 25) := by
  simp only [readsAlong, Bool.or_eq_false_iff, Bool.and_eq_false_iff, beq_eq_false_iff_ne, ne_eq, BitVec.toNat_eq,
    BitVec.reduceToNat] at h
  omega

/-- A move to a register of set 0 leaves every other register, but for what `readsAlong` names. -/
theorem readCp0_writeCp0_other {n q : RegNum} (v : Dword) (s : State) (hq : q ≠ n) (ha : readsAlong n q = false) :
    readCp0 (writeCp0 n v s) q = readCp0 s q := by
  have hw := writeCp0_writesOnly n v s
  have hs := writeCp0_keepsOutsideCp0 n v s
  have hne {k : Nat} (h : q.toNat = k) : n.toNat ≠ k := fun hn => hq (BitVec.eq_of_toNat_eq (h.trans hn.symm))
  obtain ⟨hrandom, hstatus, htimer, hperf⟩ := ne_of_not_readsAlong ha
  unfold readCp0
  split
  case h_1 h => rw [hw.index (hne h)]
  case h_2 h => rw [hw.random (hrandom h)]
  case h_3 h => rw [hw.entryLo0 (hne h)]
  case h_4 h => rw [hw.entryLo1 (hne h)]
  case h_5 h => rw [hw.context (hne h)]
  case h_6 h => rw [hw.pageMask (hne h)]
  case h_7 h => rw [hw.wired (hne h)]
  case h_8 => rw [hasInfo, hs.params]; rfl
  case h_9 => rw [hw.badVAddr]
  case h_10 h => rw [hw.count (hne h)]
  case h_11 h => rw [hw.entryHi (hne h)]
  case h_12 h => rw [hw.compare (hne h)]
  case h_13 h => rw [State.status, hw.status (hne h) (hstatus h)]; rfl
  case h_14 h =>
    rw [causeWord_congr (hw.cause (hne h)) hw.intControl (hw.perfCount (hperf h)) hs.params hs.intPin hs.intReg
      (hs.timerPending (htimer h))]
  case h_15 h => rw [hw.epc (hne h)]
  case h_16 => rw [hs.params]
  case h_17 h => rw [hw.config (hne h), hs.params]
  case h_18 h => rw [hw.llAddr (hne h)]
  case h_19 h => rw [hw.watch1 (hne h)]
  case h_20 h => rw [hw.watch2 (hne h)]
  case h_21 h => rw [hw.xcontext (hne h)]
  case h_22 h => rw [hw.perfControl (hne h)]
  case h_23 h => rw [hw.watchMask (hne h)]
  case h_24 h => rw [hw.perfCount (hne h)]
  case h_25 h => rw [hw.ecc (hne h)]
  case h_26 => rw [hw.cacheErr]
  case h_27 h => rw [hw.tagLo (hne h)]
  case h_28 h => rw [hw.tagHi (hne h)]
  case h_29 h => rw [hw.errorEpc (hne h)]
  case h_30 => rfl

/-! ## What a move to CP0 stores -/

/-- A masked write of a register of 32 bits. -/
theorem wide_eq_masked {old new mask : Word} {v m : Dword} (h : new = masked old mask (low32 v) 0) (hm : m = wide mask) :
    wide new = masked (wide old) m v 0 := by
  rw [hm, masked_wide, h]

theorem word_write (old w : Word) : w = masked old 0xFFFFFFFF w 0 := by simp

theorem dword_write (old v : Dword) : v = masked old 0xFFFFFFFFFFFFFFFF v 0 := by simp

theorem wired_write (old : BitVec 6) (v : Dword) :
    ((low32 v).extractLsb' 0 6).zeroExtend 64 = masked (old.zeroExtend 64) 0x3F v 0 := by
  have hmask : (0x3F : Dword) = (0x3F : BitVec 6).setWidth 64 := rfl
  have hlow : (low32 v).extractLsb' 0 6 = v.extractLsb' 0 6 := BitVec.extractLsb'_setWidth_of_le (by decide)
  rw [hmask, BitVec.zeroExtend_eq_setWidth, BitVec.zeroExtend_eq_setWidth, masked_setWidth, hlow, masked_all (by decide)]

/-- A register that ignores writes. -/
theorem readCp0_of_mask_zero {s t : State} {n : RegNum} (v : Dword) (h : readCp0 t n = readCp0 s n)
    (hmask : cp0Mask n = 0) : readCp0 t n = (readCp0 s n).map (masked · (cp0Mask n) v 0) := by
  simp [h, masked_none hmask]

theorem readCp0_info (s : State) : readCp0 s 7 = if hasInfo s then some (wide (infoWord s.params)) else none := rfl

theorem readCp0_info_congr {s t : State} (h : t.params = s.params) : readCp0 t 7 = readCp0 s 7 := by
  rw [readCp0_info, readCp0_info, hasInfo, hasInfo, h]

/-- A move to a register of set 0 writes it through its mask: by the number of the register. -/
theorem readCp0_writeCp0_same (n : RegNum) (v : Dword) (s : State) :
    readCp0 (writeCp0 n v s) n = (readCp0 s n).map (masked · (cp0Mask n) v 0) := by
  obtain ⟨⟨k, hk⟩⟩ := n
  interval_cases k
  · exact congrArg some (wide_eq_masked (index_write _ _) rfl)
  · exact readCp0_of_mask_zero v rfl rfl
  · exact congrArg some (entryLo_write _ _)
  · exact congrArg some (entryLo_write _ _)
  · exact congrArg some (context_write _ _)
  · exact congrArg some (wide_eq_masked (pageMask_write _ _) rfl)
  · exact congrArg some (wired_write _ _)
  · exact readCp0_of_mask_zero v (readCp0_info_congr (writeCp0_keepsOutsideCp0 7 v s).params) rfl
  · exact readCp0_of_mask_zero v rfl rfl
  · exact congrArg some (wide_eq_masked (word_write _ _) rfl)
  · exact congrArg some (entryHi_write _ _)
  · exact congrArg some (wide_eq_masked (word_write _ _) rfl)
  · exact (congrArg (fun c : Cp0 => some (wide c.status.toWord)) (writeStatus_cp0 (low32 v) s)).trans
      (congrArg some (wide_eq_masked (status_write _ _) rfl))
  · exact congrArg some (wide_eq_masked (cause_write _ _ _) rfl)
  · exact congrArg some (dword_write _ _)
  · exact readCp0_of_mask_zero v rfl rfl
  · exact congrArg some (wide_eq_masked (config_write _ _ _) rfl)
  · exact congrArg some (wide_eq_masked (word_write _ _) rfl)
  · exact congrArg some (watch_write _ _)
  · exact congrArg some (watch_write _ _)
  · exact congrArg some (xcontext_write _ _)
  · rfl
  · exact congrArg some (wide_eq_masked (perfControl_write _ _) rfl)
  · rfl
  · exact congrArg some (wide_eq_masked (watchMask_write _ _) rfl)
  · exact congrArg some (wide_eq_masked (word_write _ _) rfl)
  · exact congrArg some (wide_eq_masked (ecc_write _ _) rfl)
  · exact readCp0_of_mask_zero v rfl rfl
  · exact congrArg some (wide_eq_masked (word_write _ _) rfl)
  · exact congrArg some (wide_eq_masked (word_write _ _) rfl)
  · exact congrArg some (dword_write _ _)
  · rfl

/-! ## The registers of set 1 -/

theorem readCp0Control_congr {s t : State} (hlo : t.cp0.iplLo = s.cp0.iplLo) (hhi : t.cp0.iplHi = s.cp0.iplHi)
    (hcontrol : t.cp0.intControl = s.cp0.intControl) (h0 : t.cp0.dErrAddr0 = s.cp0.dErrAddr0)
    (h1 : t.cp0.dErrAddr1 = s.cp0.dErrAddr1) : readCp0Control t = readCp0Control s := by
  have hread : readCp0Control t = readCp0Control { s with cp0 := { s.cp0 with
      iplLo := t.cp0.iplLo, iplHi := t.cp0.iplHi, intControl := t.cp0.intControl
      dErrAddr0 := t.cp0.dErrAddr0, dErrAddr1 := t.cp0.dErrAddr1 } } := rfl
  rw [hread, hlo, hhi, hcontrol, h0, h1]

theorem readCp0Control_advance (s : State) : readCp0Control (advance s) = readCp0Control s :=
  readCp0Control_congr (by simp) (by simp) (by simp) (by simp) (by simp)

/-- A move to a register of set 1 writes three registers at most. -/
theorem writeCp0Control_eq (n : RegNum) (w : Word) (s : State) :
    let c := (writeCp0Control n w s).cp0
    writeCp0Control n w s =
      { s with cp0 := { s.cp0 with iplLo := c.iplLo, iplHi := c.iplHi, intControl := c.intControl } } := by
  unfold writeCp0Control
  split <;> rfl

theorem writeCp0Control_fields (n : RegNum) (w : Word) (s : State) :
    let c := (writeCp0Control n w s).cp0
    (n.toNat ≠ 18 → c.iplLo = s.cp0.iplLo) ∧ (n.toNat ≠ 19 → c.iplHi = s.cp0.iplHi) ∧
      (n.toNat ≠ 20 → c.intControl = s.cp0.intControl) ∧ c.dErrAddr0 = s.cp0.dErrAddr0 ∧
      c.dErrAddr1 = s.cp0.dErrAddr1 := by
  unfold writeCp0Control
  split <;> simp [*]

theorem iplHi_write (old : BitVec 24) (w : Word) :
    (w.truncate 24).zeroExtend 32 = masked (old.zeroExtend 32) 0x00FFFFFF w 0 := by
  have hmask : (0x00FFFFFF : Word) = (0x00FFFFFF : BitVec 24).setWidth 32 := rfl
  rw [hmask, BitVec.zeroExtend_eq_setWidth, BitVec.zeroExtend_eq_setWidth, masked_setWidth, masked_all (by decide),
    BitVec.truncate_eq_setWidth, BitVec.setWidth_eq_extractLsb' (by decide : 24 ≤ 32)]

/-- A move to a register of set 1 writes it through its mask. -/
theorem readCp0Control_write_same (n : RegNum) (w : Word) (s : State) :
    readCp0Control (writeCp0Control n w s) n = (readCp0Control s n).map (masked · (cp0ControlMask n) w 0) := by
  unfold readCp0Control
  split
  case h_1 h =>
    obtain rfl : n = 18 := BitVec.eq_of_toNat_eq h
    exact congrArg some (word_write _ _)
  case h_2 h =>
    obtain rfl : n = 19 := BitVec.eq_of_toNat_eq h
    exact congrArg some (iplHi_write _ _)
  case h_3 h =>
    obtain rfl : n = 20 := BitVec.eq_of_toNat_eq h
    exact congrArg some (intControl_write _ _)
  case h_4 h =>
    obtain rfl : n = 26 := BitVec.eq_of_toNat_eq h
    exact congrArg some (masked_none rfl _ _ _).symm
  case h_5 h =>
    obtain rfl : n = 27 := BitVec.eq_of_toNat_eq h
    exact congrArg some (masked_none rfl _ _ _).symm
  case h_6 => rfl

theorem readCp0Control_write_other {n q : RegNum} (w : Word) (s : State) (hq : q ≠ n) :
    readCp0Control (writeCp0Control n w s) q = readCp0Control s q := by
  have hne {k : Nat} (h : q.toNat = k) : n.toNat ≠ k := fun hn => hq (BitVec.eq_of_toNat_eq (h.trans hn.symm))
  obtain ⟨hlo, hhi, hcontrol, h0, h1⟩ := writeCp0Control_fields n w s
  unfold readCp0Control
  split
  case h_1 h => rw [hlo (hne h)]
  case h_2 h => rw [hhi (hne h)]
  case h_3 h => rw [hcontrol (hne h)]
  case h_4 => rw [h0]
  case h_5 => rw [h1]
  case h_6 => rfl

/-- Of set 0 only `Cause` shows what a register of set 1 holds: the timer source, enabled by `IntControl`. -/
theorem readCp0_writeCp0Control {q : RegNum} (n : RegNum) (w : Word) (s : State) (hq : q ≠ 13) :
    readCp0 (writeCp0Control n w s) q = readCp0 s q := by
  rw [writeCp0Control_eq]
  unfold readCp0
  split
  case h_14 h => exact absurd (BitVec.eq_of_toNat_eq h) hq
  all_goals rfl

/-! ## The moves (rules R352 to R355, R362 to R364) -/

theorem readCp0_drew (s : State) (k : Nat) : readCp0 (s.drew k) = readCp0 s := readCp0_congr rfl rfl rfl rfl rfl

theorem getLsbD_low32 (v : Dword) {i : Nat} (h : i < 32) : (low32 v).getLsbD i = v.getLsbD i := by
  rw [low32, BitVec.truncate_eq_setWidth, BitVec.getLsbD_setWidth, decide_eq_true h, Bool.true_and]

theorem writeCp0_info_status (v : Dword) (s : State) : (writeCp0 7 v s).cp0.status =
    if 0x20 ≤ s.params.rev.toNat then { s.cp0.status with ie := v.getLsbD 0 } else s.cp0.status := by
  have hwrite : writeCp0 7 v s = if hasInfo s then
      { s with cp0 := { s.cp0 with status := { s.cp0.status with ie := (low32 v).getLsbD 0 } } } else s := rfl
  rw [hwrite, getLsbD_low32 v (by decide), hasInfo]
  simp only [decide_eq_true_eq]
  split <;> rfl

/-- A move to a register of set 0 that completes, after `k` free values were drawn. -/
theorem cp0Written_advance (n : RegNum) (v : Dword) (s : State) (k : Nat) :
    Cp0Written n v s (advance (writeCp0 n v (s.drew k))) := by
  have hw := writeCp0_writesOnly n v (s.drew k)
  have hs := writeCp0_keepsOutsideCp0 n v (s.drew k)
  have hne {m : RegNum} (h : n ≠ m) : n.toNat ≠ m.toNat := fun hn => h (BitVec.eq_of_toNat_eq hn)
  refine ⟨fun old hold => ?_, fun q hq ha => ?_, fun q => ?_, ?_, ?_, ?_, fun h => ?_, fun h => ?_, ?_, ?_, ?_, ?_,
    fun a => ?_, continues_advance s _ hs.pc hs.inDelaySlot hs.branchTarget, ?_⟩
  · rw [readCp0_advance, readCp0_writeCp0_same, readCp0_drew, hold]
    exact congrArg some (masked_register _ _ _)
  · rw [readCp0_advance, readCp0_writeCp0_other v _ hq ha, readCp0_drew]
  · rw [readCp0Control_advance, readCp0Control_congr hw.iplLo hw.iplHi hw.intControl hw.dErrAddr0 hw.dErrAddr1]
    rfl
  · rintro rfl
    rw [advance_cp0]
    rfl
  · rintro rfl
    rw [advance_cp0, writeCp0_info_status]
    rfl
  · rw [advance_timerPending]
    by_cases hn : n = 11
    · rw [if_pos hn, hn]
      rfl
    · rw [if_neg hn]
      exact hs.timerPending (hne hn)
  · rw [advance_fpu]
    by_cases hn : n = 12
    · have hfr := h.resolve_left (not_not.2 hn)
      rw [hn]
      exact writeStatus_fpu ((getLsbD_low32 v (by decide)).trans hfr)
    · exact hs.fpu (hne hn)
  · rw [advance_caches]
    by_cases hn : n = 16
    · have hte := h.resolve_left (not_not.2 hn)
      rw [hn]
      exact writeConfig_caches (hte.imp_left (getLsbD_low32 v (by decide)).trans)
    · exact hs.caches (hne hn)
  · exact readGpr_congr ((advance_gpr _).trans hs.gpr)
  · simp [KeepsHiLo, hs.hi, hs.lo]
  · simp [hs.tlb]
  · simp [hs.llBit]
  · simp [hs.mem]
  · simp [hs.intReg, hs.intPin, hs.nmiPin, hs.nmiLevel, hs.standby, hs.busIdle, hs.params, hs.pendingErrors,
      hs.events, hs.fcr31]

theorem sext32_eq_word (w : Word) : sext32 w = word (w.toNat : Int) := by
  rw [word, sext32, BitVec.signExtend, BitVec.toInt_eq_toNat_bmod]

theorem sext32_low32 (v : Dword) : sext32 (low32 v) = word (v.toNat : Int) := by
  rw [word, sext32, BitVec.signExtend, low32, BitVec.truncate_eq_setWidth, BitVec.toInt_setWidth]

theorem isWord_of_holds {t : State} {d : RegNum} {w : Word} (h : Holds t d (sext32 w)) : IsWord t d := by
  rw [IsWord, sval, h]
  split
  · decide
  · rw [sext32, BitVec.toInt_signExtend_of_le (by decide)]
    exact ⟨BitVec.le_toInt w, BitVec.toInt_lt⟩

theorem cp0Wide_iff (n : RegNum) : cp0Wide n = true ↔ n.toNat ∈ [2, 3, 4, 8, 10, 14, 18, 19, 20, 30] := by
  unfold cp0Wide
  split <;> simp_all

theorem gives_of_exec {i : Instr} {s : State} {d : RegNum} {v : Dword} (h : exec i s = writeResult d v s) :
    Gives i s d v := by
  obtain ⟨t, ht, hgives⟩ := writeResult_gives s d v
  exact ⟨t, h.trans ht, hgives⟩

/-- A move from a register of 32 bits that exists. -/
theorem gives_of_moveFromCp0 {i : Instr} {s : State} {d : RegNum} {x : Option Word} {w : Word}
    (h : exec i s = moveFromCp0 d x s) (hx : x = some w) : Gives i s d (sext32 w) :=
  gives_of_exec (by rw [h, hx, moveFromCp0])

/-- A move from a reserved register: a word, of which nothing more is known (10_state.md rule R62). -/
theorem free_of_moveFromCp0 {i : Instr} {s : State} {d : RegNum} {x : Option Word} (h : exec i s = moveFromCp0 d x s)
    (hx : x = none) : Does i s (fun t => OnlyGpr d s t ∧ IsWord t d) := by
  obtain ⟨t, ht, hholds, honly⟩ := writeResult_drew s 1 d (sext32 (low32 (s.free 0)))
  exact ⟨t, by rw [h, hx, moveFromCp0, ht], honly, isWord_of_holds hholds⟩

section Moves

variable {s : State} (hu : cp0Usable s = true) (rt rd : RegNum)
include hu

theorem exec_mfc0 : exec (.mfc0 rt rd) s = moveFromCp0 rt ((readCp0 s rd).map low32) s := requireCp0_usable hu _

theorem exec_cfc0 : exec (.cfc0 rt rd) s = moveFromCp0 rt (readCp0Control s rd) s := requireCp0_usable hu _

theorem exec_dmfc0_some (h64 : is64 s = true) {v : Dword} (h : (if cp0Wide rd then readCp0 s rd else none) = some v) :
    exec (.dmfc0 rt rd) s = writeResult rt v s :=
  (requireIs64_enabled h64 _).trans ((requireCp0_usable hu _).trans (by rw [h]))

theorem exec_dmfc0_none (h64 : is64 s = true) (h : (if cp0Wide rd then readCp0 s rd else none) = none) :
    exec (.dmfc0 rt rd) s = writeResult rt (s.free 0) (s.drew 1) :=
  (requireIs64_enabled h64 _).trans ((requireCp0_usable hu _).trans (by rw [h]))

theorem exec_dmtc0 (h64 : is64 s = true) : exec (.dmtc0 rt rd) s =
    if cp0Wide rd then complete (writeCp0 rd (readGpr s rt) s) else complete (writeCp0 rd (s.free 0) (s.drew 1)) :=
  (requireIs64_enabled h64 _).trans (requireCp0_usable hu _)

/-- `CTC0` writes its register through the mask and leaves the others. -/
theorem ctc0_does : Does (.ctc0 rt rd) s (fun t => OnlyCp0 s t ∧
    (∀ old, readCp0Control s rd = some old → readCp0Control t rd =
      some ((old &&& ~~~(cp0ControlMask rd)) ||| (low32 (readGpr s rt) &&& cp0ControlMask rd))) ∧
    (∀ q, q ≠ rd → readCp0Control t q = readCp0Control s q) ∧ (∀ q, q ≠ 13 → readCp0 t q = readCp0 s q)) := by
  refine does_of_cp0 hu rfl rfl ⟨?_, fun old hold => ?_, fun q hq => ?_, fun q hq => ?_⟩
  · rw [writeCp0Control_eq]
    exact onlyCp0_advance s 0 _
  · rw [readCp0Control_advance, readCp0Control_write_same, hold]
    exact congrArg some (masked_register _ _ _)
  · rw [readCp0Control_advance, readCp0Control_write_other _ s hq]
  · rw [readCp0_advance, readCp0_writeCp0Control rd _ s hq]

end Moves

/-- Settles O50: the moves from CP0 are `writeResult` of what the register reads; the moves to it are `writeCp0` and
`writeCp0Control`, which write a register through its mask. -/
theorem cp0Moves : Obligations.Cp0Moves := by
  intro s rt rd hu
  refine ⟨fun v hv => ?_, fun hnone => ?_, ?_, fun v hv => ?_, fun hnone => ?_, ctc0_does hu rt rd,
    fun h64 hwide => ⟨fun v hv => ?_, ?_⟩, fun h64 hnarrow => ⟨?_, ?_⟩⟩
  · rw [← sext32_low32]
    exact gives_of_moveFromCp0 (exec_mfc0 hu rt rd) (by rw [hv]; rfl)
  · exact free_of_moveFromCp0 (exec_mfc0 hu rt rd) (by rw [hnone]; rfl)
  · exact does_of_cp0 hu rfl rfl (cp0Written_advance rd _ s 0)
  · rw [← sext32_eq_word]
    exact gives_of_moveFromCp0 (exec_cfc0 hu rt rd) hv
  · exact free_of_moveFromCp0 (exec_cfc0 hu rt rd) hnone
  · exact gives_of_exec (exec_dmfc0_some hu rt rd h64 (by rw [if_pos ((cp0Wide_iff rd).2 hwide), hv]))
  · exact ⟨_, by rw [exec_dmtc0 hu rt rd h64, if_pos ((cp0Wide_iff rd).2 hwide)]; rfl, cp0Written_advance rd _ s 0⟩
  · obtain ⟨t, ht, -, honly⟩ := writeResult_drew s 1 rt (s.free 0)
    exact ⟨t, (exec_dmfc0_none hu rt rd h64 (if_neg (mt (cp0Wide_iff rd).1 hnarrow))).trans ht, honly⟩
  · exact ⟨_, by rw [exec_dmtc0 hu rt rd h64, if_neg (mt (cp0Wide_iff rd).1 hnarrow)]; rfl, s.free 0,
      cp0Written_advance rd _ s 1⟩

end Sys2Proof.Proofs

/-! # The `CACHE` instruction

Every code is `withCacheOperand` around an operation of its own: permission, translation, then the operation, and the link
breaks if the platform says so. What the stages before the operation answer is said once (`withCacheOperand_denied`,
`withCacheOperand_untranslated`, `withCacheOperand_of_reaches`). An operation changes the memory system and the CP0
registers only (`MemSide`), which gives `CacheFrame`; what is left of a statement is about the one line, the memory or the
CP0 registers the operation names. A discarding operation at the transparent level brings back only recorded values
(`discard_reverts`); at the explicit level each operation puts a few lines, and a line reaches main memory and the
tertiary cache by `writeBelow_sends`. -/

namespace Sys2Proof.Proofs

open Sys2Proof.Machine Sys2Proof.Safety Sys2Proof.Laws

/-! ## Permission, translation, operation -/

section Operand

variable {userForm : Bool} {base : RegNum} {offset : BitVec 16} {s : State} {pa : PAddr} {attr : BitVec 3}
  {op : Dword → PAddr → BitVec 3 → State → Except Stop State}

theorem withCacheOperand_denied (hcp0 : cp0Usable s = false) (hco : (userForm && s.cp0.status.co) = false) :
    withCacheOperand userForm base offset s op = raise (.cpU 0) s :=
  if_neg (by rw [hcp0, Bool.false_or]; exact Bool.eq_false_iff.1 hco)

theorem withCacheOperand_allowed (h : cp0Usable s = true ∨ (userForm = true ∧ s.cp0.status.co = true)) :
    withCacheOperand userForm base offset s op = onOk (Machine.translate .load (effAddr s base offset) s) (fun t =>
      onOk (op (effAddr s base offset) t.1 t.2 s) (fun u => complete (breakLink .cacheOp u))) :=
  if_pos (by simpa [State.status] using h)

theorem withCacheOperand_untranslated (h : cp0Usable s = true ∨ (userForm = true ∧ s.cp0.status.co = true)) {e : Stop}
    (ht : Machine.translate .load (effAddr s base offset) s = .error e) :
    withCacheOperand userForm base offset s op = e.answer := by
  rw [withCacheOperand_allowed h, ht]; rfl

theorem withCacheOperand_of_reaches (hr : CacheReaches userForm base offset s pa attr) :
    withCacheOperand userForm base offset s op =
      onOk (op (effAddr s base offset) pa attr s) (fun u => complete (breakLink .cacheOp u)) := by
  rw [withCacheOperand_allowed hr.1, hr.2]; rfl

/-- Whoever may execute every `CACHE` code may execute those `Status.CO` opens. -/
theorem cacheReaches_user (hr : CacheReaches false base offset s pa attr) : CacheReaches true base offset s pa attr :=
  ⟨.inl (hr.1.resolve_right fun h => Bool.false_ne_true h.1), hr.2⟩

end Operand

/-! ## Where the instruction stops -/

/-- The instruction is a `CACHE` code. -/
def CacheForm (userForm : Bool) (base : RegNum) (offset : BitVec 16) (i : Instr) : Prop :=
  ∃ op, ∀ s, exec i s = withCacheOperand userForm base offset s op

/-- The instruction is a `CACHE` code of the secondary cache. -/
def SecondaryForm (userForm : Bool) (base : RegNum) (offset : BitVec 16) (i : Instr) : Prop :=
  ∃ x : Dword → PAddr → BitVec 3 → State → Except Stop State, ∀ s, exec i s =
    withCacheOperand userForm base offset s (fun va pa attr s => needS s (x va pa attr s))

/-- The instruction is a `CACHE` code of the tertiary cache. -/
def TertiaryForm (base : RegNum) (offset : BitVec 16) (i : Instr) : Prop :=
  ∃ x : Dword → PAddr → BitVec 3 → State → Except Stop State, ∀ s, exec i s =
    withCacheOperand false base offset s (fun va pa attr s => needT s (x va pa attr s))

section Stops

variable {userForm : Bool} {base : RegNum} {offset : BitVec 16} {s : State} {pa : PAddr} {attr : BitVec 3} {i : Instr}

theorem CacheForm.denied (hi : CacheForm userForm base offset i) (hcp0 : cp0Usable s = false)
    (hco : (userForm && s.cp0.status.co) = false) : Raises i s (.cpU 0) := by
  obtain ⟨op, h⟩ := hi
  exact (h s).trans (withCacheOperand_denied hcp0 hco)

theorem CacheForm.untranslated (hi : CacheForm userForm base offset i)
    (h : cp0Usable s = true ∨ (userForm = true ∧ s.cp0.status.co = true)) {e : Exc}
    (ht : Machine.translate .load (effAddr s base offset) s = .error (.exc e s)) : Raises i s e := by
  obtain ⟨op, hop⟩ := hi
  exact (hop s).trans (withCacheOperand_untranslated h ht)

theorem SecondaryForm.absent (hi : SecondaryForm userForm base offset i)
    (hr : CacheReaches userForm base offset s pa attr) (hp : s.params.scPresent = false) :
    exec i s = .refused .cacheAbsent := by
  obtain ⟨x, h⟩ := hi
  rw [h, withCacheOperand_of_reaches hr, needS, if_neg (by rw [hp]; decide)]; rfl

theorem TertiaryForm.absent (hi : TertiaryForm base offset i) (hr : CacheReaches false base offset s pa attr)
    (hp : s.params.tcPresent = false) : exec i s = .refused .cacheAbsent := by
  obtain ⟨x, h⟩ := hi
  rw [h, withCacheOperand_of_reaches hr, needT, if_neg (by rw [hp]; decide)]; rfl

theorem noOperation_of_reaches (hr : CacheReaches false base offset s pa attr) :
    noOperation base offset s = .refused .cacheOpUndefined :=
  withCacheOperand_of_reaches hr

end Stops

/-- The check of `Page_Invalidate_T` is that of the address's low twelve bits (41_cache_instruction.md rule R395). -/
theorem pageAligned_iff (va : Dword) : (va.extractLsb' 0 12 != 0) = false ↔ va.toNat % 4096 = 0 := by
  simp [← BitVec.toNat_inj]

/-- Settles O53: every code is `withCacheOperand` around its operation, so the first stage that fails answers for it; the
operations of absent caches are `needS` and `needT`, those of the undefined codes are `noOperation`. -/
theorem cacheOperationsThatStop : Obligations.CacheOperationsThatStop := by
  intro s base offset writebacks undefined others
  have hwritebacks : ∀ i ∈ writebacks, CacheForm true base offset i := by
    intro i hi
    simp only [writebacks] at hi
    fin_cases hi <;> simp only [CacheForm, exec] <;> exact ⟨_, fun _ => rfl⟩
  have hundefined : ∀ i ∈ undefined, ∀ s, exec i s = noOperation base offset s := by
    intro i hi
    simp only [undefined] at hi
    fin_cases hi <;> exact fun _ => rfl
  have hothers : ∀ i ∈ others ++ undefined, CacheForm false base offset i := by
    intro i hi
    rcases List.mem_append.1 hi with hi | hi
    · simp only [others] at hi
      fin_cases hi <;> simp only [CacheForm, exec] <;> exact ⟨_, fun _ => rfl⟩
    · exact ⟨_, hundefined i hi⟩
  refine ⟨fun hcp0 => ⟨fun i hi => (hothers i hi).denied hcp0 rfl, fun hco i hi => (hwritebacks i hi).denied hcp0 hco⟩,
    fun e ht => ⟨fun hcp0 i hi => (hothers i hi).untranslated (.inl hcp0) ht,
      fun h i hi => (hwritebacks i hi).untranslated (h.imp_right fun hco => ⟨rfl, hco⟩) ht⟩,
    fun pa attr hr => ⟨fun i hi => (hundefined i hi s).trans (noOperation_of_reaches hr), fun hsc i hi => ?_,
      fun htc i hi => ?_, fun htc halign => ?_⟩⟩
  · have hform : ∃ userForm, SecondaryForm userForm base offset i ∧ CacheReaches userForm base offset s pa attr := by
      fin_cases hi <;> simp only [SecondaryForm, exec]
      iterate 4 exact ⟨false, ⟨_, fun _ => rfl⟩, hr⟩
      iterate 2 exact ⟨true, ⟨_, fun _ => rfl⟩, cacheReaches_user hr⟩
    obtain ⟨userForm, hform, hr⟩ := hform
    exact hform.absent hr hsc
  · have hform : TertiaryForm base offset i := by
      fin_cases hi <;> simp only [TertiaryForm, exec] <;> exact ⟨_, fun _ => rfl⟩
    exact hform.absent hr htc
  · have hpage : ((effAddr s base offset).extractLsb' 0 12 != 0) = true := by rwa [← Bool.not_eq_false, pageAligned_iff]
    exact (withCacheOperand_of_reaches hr : execCachePageInvalidateT base offset s = _).trans
      (by rw [needT, if_pos htc, if_pos hpage]; rfl)


/-! ## What every operation leaves alone -/

/-- The state in which a `CACHE` instruction completes, its operation having left `u`. -/
def cacheDone (u : State) : State := advance (breakLink .cacheOp u)

/-- Completing changes the program counter, the delay slot and the link bit: what a state says of its caches, its memory
and its CP0 registers it says of the completed one too. -/
theorem cacheDone_eq (u : State) :
    ∃ pc slot link, cacheDone u = { u with pc := pc, inDelaySlot := slot, llBit := link } := by
  unfold cacheDone advance breakLink
  split <;> split <;> exact ⟨_, _, _, rfl⟩

/-- An operation of a `CACHE` instruction changes the memory system and the CP0 registers only. -/
def CacheSide (s u : State) : Prop := MemSide s { u with cp0 := s.cp0 }

theorem cacheSide_of_memSide {s u : State} (h : MemSide s u) : CacheSide s u := by
  unfold CacheSide
  rw [← h.cp0]
  exact h

theorem CacheSide.putD {s u : State} (h : CacheSide s u) (k : Nat) (x : DLine) : CacheSide s (putD k x u) :=
  MemSide_trans h (MemSide_putD _ k x)

theorem CacheSide.putS {s u : State} (h : CacheSide s u) (k : Nat) (x : SLine) : CacheSide s (putS k x u) :=
  MemSide_trans h (MemSide_putS _ k x)

theorem CacheSide.setCh {s u : State} (h : CacheSide s u) (hit : Bool) : CacheSide s (setCh hit u) := h

/-- What every operation leaves alone, one that leaves the caches alone. -/
theorem cacheFrame_cacheDone {s u : State} (h : CacheSide s u) (hcaches : u.caches = s.caches) :
    CacheFrame s (cacheDone u) := by
  have hcont : Continues s (cacheDone u) := continues_advance s _ ((breakLink_pc u _).trans h.pc)
    ((breakLink_inDelaySlot u _).trans h.inDelaySlot) ((breakLink_branchTarget u _).trans h.branchTarget)
  have hlink : (cacheDone u).llBit = (s.llBit && !s.params.llBreak.contains .cacheOp) := by
    rw [cacheDone, advance_llBit, breakLink, ← show u.llBit = s.llBit from h.llBit, ← show u.params = s.params from h.params]
    split <;> simp_all
  obtain ⟨pc, slot, link, hdone⟩ := cacheDone_eq u
  rw [hdone] at hcont hlink ⊢
  exact ⟨fun q => readGpr_congr h.gpr q, ⟨h.hi, h.lo⟩, h.fpu, h.tlb, ⟨h.intReg, h.intPin, h.nmiPin, h.nmiLevel,
    h.timerPending, h.standby, h.busIdle, hcaches, h.params, h.pendingErrors, h.events⟩, hcont, hlink⟩

/-- The same of an operation that may change the caches. -/
theorem cacheFrame_butCaches {s u : State} (h : CacheSide s u) :
    CacheFrame s { cacheDone u with caches := s.caches } := by
  have hdone : { cacheDone u with caches := s.caches } = cacheDone { u with caches := s.caches } := by
    unfold cacheDone advance breakLink
    dsimp only
    split <;> split <;> rfl
  rw [hdone]
  exact cacheFrame_cacheDone { h with cachesWf := id } rfl

/-! ## What an operation does -/

section Operation

variable {userForm : Bool} {base : RegNum} {offset : BitVec 16} {s u : State} {pa : PAddr} {attr : BitVec 3}
  {op : Dword → PAddr → BitVec 3 → State → Except Stop State} {P : State → Prop}

/-- An answer is a next state that satisfies `P`; `Does i s P` says it of `exec i s`. -/
def Ends (o : Out) (P : State → Prop) : Prop := ∃ t, o = .next t ∧ P t

theorem Ends.imp {o : Out} {Q : State → Prop} (h : Ends o P) (hPQ : ∀ t, P t → Q t) : Ends o Q := by
  obtain ⟨t, ho, hP⟩ := h
  exact ⟨t, ho, hPQ t hP⟩

theorem withCacheOperand_next (hr : CacheReaches userForm base offset s pa attr)
    (hop : op (effAddr s base offset) pa attr s = .ok u) :
    withCacheOperand userForm base offset s op = .next (cacheDone u) := by
  rw [withCacheOperand_of_reaches hr, hop]; rfl

/-- What does not depend on the program counter, the delay slot or the link bit. -/
def Stable (P : State → Prop) : Prop :=
  ∀ u pc slot link, P u → P { u with pc := pc, inDelaySlot := slot, llBit := link }

theorem Stable.cacheDone (hstable : Stable P) (hP : P u) : P (cacheDone u) := by
  obtain ⟨pc, slot, link, hdone⟩ := cacheDone_eq u
  rw [hdone]
  exact hstable u pc slot link hP

/-- A `CACHE` instruction whose operation leaves the caches alone: what holds of the operation's state and does not depend on
how the instruction completes holds of the next state. -/
theorem ends_keepingCaches (hr : CacheReaches userForm base offset s pa attr)
    (hop : op (effAddr s base offset) pa attr s = .ok u) (hu : CacheSide s u) (hcaches : u.caches = s.caches)
    (hP : P u) (hstable : Stable P := by exact fun _ _ _ _ h => h) :
    Ends (withCacheOperand userForm base offset s op) (fun t => CacheFrame s t ∧ P t) :=
  ⟨_, withCacheOperand_next hr hop, cacheFrame_cacheDone hu hcaches, hstable.cacheDone hP⟩

/-- An answer at the explicit level: it changes the memory system and the CP0 registers only, these as stated. -/
def EndsExplicit (o : Out) (s : State) (cp0 : Cp0) (P : State → Prop) : Prop :=
  Ends o (fun t => CacheFrame s { t with caches := s.caches } ∧ t.cp0 = cp0 ∧ P t)

/-- A `CACHE` instruction whose operation may change the caches. -/
theorem endsExplicit_of_op {cp0 : Cp0} (hr : CacheReaches userForm base offset s pa attr)
    (hop : op (effAddr s base offset) pa attr s = .ok u) (hu : CacheSide s u) (hcp0 : u.cp0 = cp0)
    (hP : P u) (hstable : Stable P := by exact fun _ _ _ _ h => h) :
    EndsExplicit (withCacheOperand userForm base offset s op) s cp0 P := by
  have hcp0' : (cacheDone u).cp0 = cp0 := ((advance_cp0 _).trans (breakLink_cp0 u _)).trans hcp0
  exact ⟨_, withCacheOperand_next hr hop, cacheFrame_butCaches hu, hcp0', hstable.cacheDone hP⟩

end Operation

/-! ## The two levels -/

section Levels

variable {s : State} {transparent explicit x : Except Stop State}

theorem perLevel_transparent (h : Transparent s) : perLevel s transparent explicit = transparent :=
  if_neg (by rw [show s.params.explicitCaches = false from h]; decide)

theorem perLevel_explicit (h : s.params.explicitCaches = true) : perLevel s transparent explicit = explicit := if_pos h

theorem needS_present (h : s.params.scPresent = true) : needS s x = x := if_pos h

theorem needT_present (h : s.params.tcPresent = true) : needT s x = x := if_pos h

end Levels


/-! ## Transparent caches (41_cache_instruction.md rule R398) -/

theorem discardByte_caches (a : Nat) (s : State) : (discardByte a s).caches = s.caches := rfl

theorem discard_caches (p : Nat → Bool) (s : State) : (discard p s).caches = s.caches := by
  unfold Machine.discard
  induction staleAddrs p s.stale generalizing s with
  | nil => rfl
  | cons a as ih => exact (ih (discardByte a s)).trans (discardByte_caches a s)

/-- Only bytes that `p` selects are discarded. -/
theorem of_mem_staleAddrs {p : Nat → Bool} {stale : List Host.Cell} {a : Nat} (h : a ∈ staleAddrs p stale) : p a = true := by
  induction stale with
  | nil => cases h
  | cons c r ih =>
    unfold staleAddrs at h
    split at h
    · next hc =>
      rcases List.mem_cons.1 h with rfl | h
      · exact (Bool.and_eq_true _ _ ▸ hc).1
      · exact ih h
    · exact ih h

/-- A value the byte at `a` may have after a discard in `s`: the one it has, or one recorded as not yet written back. -/
def Recoverable (s : State) (a : Nat) (b : Byte) : Prop := b = Memory.read s.mem a ∨ (a, b) ∈ s.stale

/-- In `t` the selected bytes of memory and of the record are such values, and every other byte of memory is as in `s`. -/
structure Reverted (p : Nat → Bool) (s t : State) : Prop where
  wf : Memory.wf t.mem = true
  other : ∀ a, p a = false → Memory.read t.mem a = Memory.read s.mem a
  selected : ∀ a, p a = true → Recoverable s a (Memory.read t.mem a)
  record : ∀ a b, p a = true → (a, b) ∈ t.stale → Recoverable s a b

/-- A discarded byte gets one of the values held for it. -/
theorem read_discardByte (a : Nat) (s : State) (hw : Memory.wf s.mem = true) :
    Recoverable s a (Memory.read (discardByte a s).mem a) := by
  have hread : Memory.read (discardByte a s).mem a ∈
      Memory.read s.mem a :: (s.stale.filter (fun c => c.1 == a)).map (·.2) := by
    unfold discardByte
    dsimp only
    rw [Memory_read_write_same _ _ _ hw, List.getD_eq_getElem _ _ (Nat.mod_lt _ (by simp))]
    exact List.getElem_mem _
  rcases List.mem_cons.1 hread with h | h
  · exact .inl h
  · obtain ⟨⟨a', b⟩, hc, hb⟩ := List.mem_map.1 h
    obtain ⟨hmem, ha⟩ := List.mem_filter.1 hc
    obtain rfl : a' = a := eq_of_beq ha
    exact .inr (hb ▸ hmem)

theorem Reverted.discardByte {p : Nat → Bool} {s t : State} (h : Reverted p s t) {a : Nat} (ha : p a = true) :
    Reverted p s (discardByte a t) := by
  have hother (c : Nat) (hc : c ≠ a) : Memory.read (Machine.discardByte a t).mem c = Memory.read t.mem c :=
    Memory_read_write_other _ _ _ _ hc
  refine ⟨Memory_wf_write _ _ _ h.wf, fun c hc => ?_, fun c hc => ?_, fun c b hc hb => ?_⟩
  · rw [hother c (by rintro rfl; rw [ha] at hc; cases hc), h.other c hc]
  · by_cases hca : c = a
    · subst hca
      rcases read_discardByte c t h.wf with hb | hb
      · rw [hb]; exact h.selected c hc
      · exact h.record c _ hc hb
    · rw [hother c hca]; exact h.selected c hc
  · rcases List.mem_cons.1 hb with hb | hb
    · obtain ⟨rfl, rfl⟩ := Prod.mk.inj hb
      exact h.selected c hc
    · exact h.record c b hc hb

/-- Discarding brings back recorded values of the selected bytes only (log entry 25). -/
theorem discard_reverts (p : Nat → Bool) (s : State) (hw : Memory.wf s.mem = true) : Reverted p s (discard p s) := by
  have hfold (as : List Nat) (has : ∀ a ∈ as, p a = true) (t : State) (ht : Reverted p s t) :
      Reverted p s (as.foldl (fun t a => discardByte a t) t) := by
    induction as generalizing t with
    | nil => exact ht
    | cons a as ih => exact ih (fun b hb => has b (.tail a hb)) _ (ht.discardByte (has a (.head as)))
  exact hfold _ (fun a ha => of_mem_staleAddrs ha) s ⟨hw, fun _ _ => rfl, fun _ _ => .inl rfl, fun _ _ _ => .inr⟩

theorem losesOnlyStale_discard {p : Nat → Bool} {q : Nat → Prop} (hpq : ∀ a, p a = true → q a) {s : State}
    (hw : Memory.wf s.mem = true) : LosesOnlyStale q s (discard p s) := by
  intro a
  have h := discard_reverts p s hw
  cases ha : p a with
  | false => exact .inl (h.other a ha)
  | true => exact (h.selected a ha).imp_right fun hb => ⟨hpq a ha, _, hb, rfl⟩

section Transparent

variable {userForm : Bool} {base : RegNum} {offset : BitVec 16} {s u : State} {pa : PAddr} {attr : BitVec 3}
  {op : Dword → PAddr → BitVec 3 → State → Except Stop State}

/-- An operation that changes the record of earlier values at most. -/
theorem transparent_nothing (hr : CacheReaches userForm base offset s pa attr)
    (hop : op (effAddr s base offset) pa attr s = .ok u) (hu : ∃ stale, u = { s with stale := stale }) :
    Ends (withCacheOperand userForm base offset s op) (fun t => CacheFrame s t ∧ t.cp0 = s.cp0 ∧ KeepsMem s t) := by
  obtain ⟨stale, rfl⟩ := hu
  exact ends_keepingCaches hr hop (cacheSide_of_memSide (MemSide_setMem s s.mem stale id)) rfl ⟨rfl, fun _ => rfl⟩

/-- A primary writeback by address clears the record of its line, or leaves it. -/
theorem transparentHitD_eq (pa : PAddr) (s : State) : ∃ stale, transparentHitD pa s = { s with stale := stale } := by
  unfold transparentHitD
  split
  · exact ⟨_, rfl⟩
  · exact ⟨_, rfl⟩

/-- A tag load: `TagLo`, `TagHi` and `ECC` are free. -/
theorem transparent_tags (hr : CacheReaches userForm base offset s pa attr)
    (hop : op (effAddr s base offset) pa attr s = .ok (freeTags s)) :
    Ends (withCacheOperand userForm base offset s op) (fun t => CacheFrame s t ∧ KeepsMem s t ∧
      t.cp0 = { s.cp0 with tagLo := t.cp0.tagLo, tagHi := t.cp0.tagHi, ecc := t.cp0.ecc }) :=
  ends_keepingCaches hr hop (MemSide_drew s 3) rfl ⟨fun _ => rfl, rfl⟩

/-- A secondary writeback by address: `CH`, and the record of earlier values at most. -/
theorem transparent_writebackS (hr : CacheReaches userForm base offset s pa attr)
    (hop : op (effAddr s base offset) pa attr s = .ok u)
    (hu : ∃ stale, u = { setCh (freeHit s) (s.drew 2) with stale := stale }) :
    Ends (withCacheOperand userForm base offset s op) (fun t => (CacheFrame s t ∧
      t.cp0 = { s.cp0 with status := { s.cp0.status with ch := t.cp0.status.ch } }) ∧ KeepsMem s t) := by
  obtain ⟨stale, rfl⟩ := hu
  have hside : MemSide s { s.drew 2 with stale := stale } :=
    MemSide_trans (MemSide_drew s 2) (MemSide_setMem _ _ stale id)
  exact (ends_keepingCaches hr hop hside rfl
    (P := fun t => t.cp0 = { s.cp0 with status := { s.cp0.status with ch := t.cp0.status.ch } } ∧ KeepsMem s t)
    ⟨rfl, fun _ => rfl⟩).imp fun t ⟨hframe, hcp0, hmem⟩ => ⟨⟨hframe, hcp0⟩, hmem⟩

/-- A discarding operation loses only what its selection allows. -/
theorem transparent_discard (hr : CacheReaches userForm base offset s pa attr) {p : Nat → Bool} {q : Nat → Prop}
    (hop : op (effAddr s base offset) pa attr s = .ok (discard p s)) (hpq : ∀ a, p a = true → q a) :
    Ends (withCacheOperand userForm base offset s op) (fun t => CacheFrame s t ∧ t.cp0 = s.cp0 ∧
      (Memory.wf s.mem = true → LosesOnlyStale q s t)) :=
  ends_keepingCaches hr hop (cacheSide_of_memSide (MemSide_discard s p)) (discard_caches p s)
    ⟨(MemSide_discard s p).cp0, fun hw => losesOnlyStale_discard hpq hw⟩

/-- `Hit_Invalidate_S` discards, and sets `CH`. -/
theorem transparent_invalidateS (hr : CacheReaches userForm base offset s pa attr)
    (hop : op (effAddr s base offset) pa attr s = .ok (transparentInvalidateS pa s)) :
    Ends (withCacheOperand userForm base offset s op) (fun t => (CacheFrame s t ∧
      t.cp0 = { s.cp0 with status := { s.cp0.status with ch := t.cp0.status.ch } }) ∧
      (Memory.wf s.mem = true → LosesOnlyStale (fun a => a / 32 * 32 = pa.toNat / 32 * 32) s t)) := by
  have hdiscard := MemSide_discard (transparentCh s) (sameLine pa)
  have hside : CacheSide s (transparentInvalidateS pa s) :=
    MemSide_trans (MemSide_drew s 2) { hdiscard with cp0 := rfl }
  have hselect : ∀ a, sameLine pa a = true → a / 32 * 32 = pa.toNat / 32 * 32 := fun a ha => by
    rw [show a / 32 = pa.toNat / 32 from eq_of_beq ha]
  refine (ends_keepingCaches hr hop hside (discard_caches _ _)
    (P := fun t => t.cp0 = { s.cp0 with status := { s.cp0.status with ch := t.cp0.status.ch } } ∧
      (Memory.wf s.mem = true → LosesOnlyStale (fun a => a / 32 * 32 = pa.toNat / 32 * 32) s t))
    ⟨?_, fun hw => losesOnlyStale_discard (s := transparentCh s) hselect hw⟩).imp
      fun t ⟨hframe, hcp0, hmem⟩ => ⟨⟨hframe, hcp0⟩, hmem⟩
  show (transparentInvalidateS pa s).cp0 = { s.cp0 with status := { s.cp0.status with
    ch := (transparentInvalidateS pa s).cp0.status.ch } }
  rw [transparentInvalidateS, hdiscard.cp0]
  rfl

/-- `Create_Dirty_Exclusive_D` writes its line. -/
theorem transparentCreate_eq (pa : PAddr) (s : State) : ∃ mem stale,
    transparentCreate pa s = { s.drew 4 with mem := mem, stale := stale } ∧
      ∀ a, ¬(pa.toNat / 32 * 32 ≤ a ∧ a < pa.toNat / 32 * 32 + 32) → Memory.read mem a = Memory.read s.mem a :=
  ⟨_, _, by unfold transparentCreate; rfl, fun a ha => read_writeLine_other s.mem (lineAddr pa) a _ ha⟩

theorem transparent_create (hr : CacheReaches userForm base offset s pa attr)
    (hop : op (effAddr s base offset) pa attr s = .ok (transparentCreate pa s)) :
    Ends (withCacheOperand userForm base offset s op) (fun t => CacheFrame s t ∧ t.cp0 = s.cp0 ∧
      KeepsMemBut (pa.toNat / 32 * 32) 32 s t) := by
  have hside := cacheSide_of_memSide (MemSide_transparentCreate s pa)
  obtain ⟨mem, stale, hcreate, hmem⟩ := transparentCreate_eq pa s
  rw [hcreate] at hop hside
  exact ends_keepingCaches hr hop hside rfl ⟨rfl, hmem⟩

end Transparent


/-! ## Lines of the explicit caches -/

/-- Of two lines put under one number the later one stands. -/
theorem Lines_put_put {α : Type} (l : List (Nat × α)) (k : Nat) (x y : α) :
    Lines.put (Lines.put l k x) k y = Lines.put l k y := by
  induction l with
  | nil => simp [Lines.put]
  | cons c r ih =>
    obtain ⟨q, v⟩ := c
    by_cases hlt : k < q
    · simp [Lines.put, hlt]
    · by_cases heq : k = q
      · simp [Lines.put, heq]
      · simp [Lines.put, hlt, heq, ih]

theorem putD_putD (k : Nat) (x y : DLine) (s : State) : putD k y (putD k x s) = putD k y s := by
  simp only [putD, Lines_put_put]

theorem putI_putI (k : Nat) (x y : ILine) (s : State) : putI k y (putI k x s) = putI k y s := by
  simp only [putI, Lines_put_put]

theorem putS_putS (k : Nat) (x y : SLine) (s : State) : putS k y (putS k x s) = putS k y s := by
  simp only [putS, Lines_put_put]

theorem dLine_putD_same (s : State) (k : Nat) (x : DLine) : dLine (putD k x s) k = x := by rw [dLine_putD, if_pos rfl]
theorem iLine_putI_same (s : State) (k : Nat) (x : ILine) : iLine (putI k x s) k = x := by rw [iLine_putI, if_pos rfl]
theorem sLine_putS_same (s : State) (k : Nat) (x : SLine) : sLine (putS k x s) k = x := by rw [sLine_putS, if_pos rfl]
theorem tLine_putT_same (s : State) (k : Nat) (x : TLine) : tLine (putT k x s) k = x := by rw [tLine_putT, if_pos rfl]

theorem onlyLineD_putD (s : State) (k : Nat) (x : DLine) : OnlyLineD k s (putD k x s) :=
  ⟨fun j hj => by rw [dLine_putD, if_neg hj], rfl⟩
theorem onlyLineI_putI (s : State) (k : Nat) (x : ILine) : OnlyLineI k s (putI k x s) :=
  ⟨fun j hj => by rw [iLine_putI, if_neg hj], rfl⟩
theorem onlyLineS_putS (s : State) (k : Nat) (x : SLine) : OnlyLineS k s (putS k x s) :=
  ⟨fun j hj => by rw [sLine_putS, if_neg hj], rfl⟩
theorem onlyLineT_putT (s : State) (k : Nat) (x : TLine) : OnlyLineT k s (putT k x s) :=
  ⟨fun j hj => by rw [tLine_putT, if_neg hj], rfl⟩

/-! ### Parity and invalidation -/

/-- With `Status.CE` an operation changes the parity of the line it has put, and nothing else (41_cache_instruction.md rule
R397). -/
theorem modifyParityD_putD (va : Dword) (k : Nat) (x : DLine) (s : State) :
    ∃ par, modifyParityD va k (putD k x s) = putD k { x with par := par } s := by
  unfold modifyParityD
  split
  · exact ⟨_, by rw [dLine_putD_same, putD_putD]⟩
  · exact ⟨x.par, rfl⟩

theorem modifyParityS_putS (va : Dword) (k : Nat) (x : SLine) (s : State) :
    ∃ par, modifyParityS va k (putS k x s) = putS k { x with par := par } s := by
  unfold modifyParityS
  split
  · exact ⟨_, by rw [sLine_putS_same, putS_putS]⟩
  · exact ⟨x.par, rfl⟩

theorem modifyParityI_putI (va : Dword) (k : Nat) (x : ILine) (s : State) :
    ∃ par, modifyParityI va k (putI k x s) = putI k { x with par := par } s := by
  unfold modifyParityI
  split
  · exact ⟨_, by rw [iLine_putI_same, putI_putI]⟩
  · exact ⟨x.par, rfl⟩

/-- An operation that puts no line changes the parity of the one it names at most. -/
theorem modifyParityI_cases (va : Dword) (k : Nat) (s : State) :
    modifyParityI va k s = s ∨ ∃ par, modifyParityI va k s = putI k { iLine s k with par := par } s := by
  unfold modifyParityI
  split
  · exact .inr ⟨_, rfl⟩
  · exact .inl rfl

theorem modifyParityS_cases (va : Dword) (k : Nat) (s : State) :
    modifyParityS va k s = s ∨ ∃ par, modifyParityS va k s = putS k { sLine s k with par := par } s := by
  unfold modifyParityS
  split
  · exact .inr ⟨_, rfl⟩
  · exact .inl rfl

/-- A line marked invalid, its parity then modified. -/
theorem modifyParityD_invalidateD (va : Dword) (k : Nat) (s : State) :
    ∃ x : DLine, x.state = 0 ∧ modifyParityD va k (invalidateD k s) = putD k x s := by
  obtain ⟨par, h⟩ := modifyParityD_putD va k (DLine.seal { dLine s k with state := 0, w := false, l := false }) s
  exact ⟨_, rfl, h⟩

theorem modifyParityS_invalidateS (va : Dword) (k : Nat) (s : State) :
    ∃ x : SLine, x.state = 0 ∧ modifyParityS va k (invalidateS k s) = putS k x s := by
  obtain ⟨par, h⟩ := modifyParityS_putS va k (SLine.seal { sLine s k with state := 0, l := false }) s
  exact ⟨_, rfl, h⟩

/-! ### Lines selected by index (41_cache_instruction.md rule R383) -/

theorem indexP_eq (va : Dword) : indexP va = va.toNat / 2 ^ 12 % 4 * 128 + va.toNat / 32 % 128 := by
  simp [indexP, BitVec.extractLsb'_toNat, Nat.shiftRight_eq_div_pow]

theorem indexS_eq (pa : PAddr) : indexS pa = pa.toNat / 2 ^ 16 % 4 * 2048 + pa.toNat / 32 % 2048 := by
  simp [indexS, secondaryIndex, BitVec.extractLsb'_toNat, Nat.shiftRight_eq_div_pow]

theorem primaryField_eq (va : Dword) : (va.extractLsb' 5 7).toNat = va.toNat / 32 % 128 := by
  simp [BitVec.extractLsb'_toNat, Nat.shiftRight_eq_div_pow]

theorem secondaryIndex_eq (pa : PAddr) : secondaryIndex pa = pa.toNat / 32 % 2048 := by
  simp [secondaryIndex, BitVec.extractLsb'_toNat, Nat.shiftRight_eq_div_pow]

theorem dwordOf_eq (va : Dword) : dwordOf va = va.toNat / 8 % 4 := by
  simp [dwordOf, BitVec.extractLsb'_toNat, Nat.shiftRight_eq_div_pow]

/-! ### Lookups -/

/-- A line that a lookup of the data cache finds is a valid line of the address. -/
theorem lookupD_hit {s : State} {pa : PAddr} {d : Nat} (h : lookupD s pa = .ok (some d)) :
    d ∈ primaryWays pa ∧ (dLine s d).tag = pa.extractLsb' 12 24 ∧ (dLine s d).state = 3 := by
  unfold lookupD at h
  dsimp only at h
  split at h
  · cases h
  · have hfind := Except.ok.inj h
    obtain ⟨hway, htag⟩ := List.mem_filter.1 (List.mem_of_find?_eq_some hfind)
    have hstate := List.find?_some hfind
    exact ⟨hway, eq_of_beq htag, eq_of_beq hstate⟩

theorem newestS_eq {s : State} {pa : PAddr} {found : Option Nat} (h : lookupD s pa = .ok found) (k : Nat) :
    newestS k pa s = .ok (newestData s k found, modifiedLine s found) := by
  unfold newestS newestData modifiedLine
  rw [h]
  cases found with
  | none => rfl
  | some d => cases hw : (dLine s d).w <;> simp [Option.filter, hw]

/-- The line a lookup found, if it found one, invalidated. -/
def dropD (found : Option Nat) (s : State) : State :=
  match found with
  | some d => invalidateD d s
  | none => s

theorem invalidateMatchingD_eq {s : State} {pa : PAddr} {found : Option Nat} (h : lookupD s pa = .ok found) :
    invalidateMatchingD pa s = .ok (dropD found s) := by
  unfold invalidateMatchingD
  rw [h]
  cases found <;> rfl

/-! ## Below the caches -/

/-- A line that goes to RAM. -/
theorem mainWriteLine_ram {a : PAddr} {s : State} (v : BitVec 256) (hram : regionKind s a = .ram)
    (hw : Memory.wf s.mem = true) : ∃ mem, mainWriteLine a v s = .ok { s with mem := mem } ∧
      (Memory.wf mem = true) ∧ LineWritten s { s with mem := mem } a v := by
  have hwf := Memory_wf_writeLine s.mem (lineAddr a) v hw
  have hread := read_writeLine s.mem (lineAddr a) v hw
  have hwrite : mainWriteLine a v s = .ok { s with mem := Memory.writeLine s.mem (lineAddr a) v } := by
    rw [mainWriteLine, hram]
  generalize Memory.writeLine s.mem (lineAddr a) v = mem at hwf hread hwrite
  refine ⟨mem, hwrite, hwf, fun c hc => (hread c).trans (if_neg hc), fun j hj => (hread _).trans ?_⟩
  rw [if_pos ⟨Nat.le_add_right _ _, Nat.add_lt_add_left hj _⟩, lineAddr, Nat.add_sub_cancel_left]

/-- Nothing in the caches but tertiary lines changes. -/
def TertiaryOnly (s t : State) : Prop := { t.caches with tcache := s.caches.tcache } = s.caches

theorem TertiaryOnly.fields {s t : State} (h : TertiaryOnly s t) : t.caches.dcache = s.caches.dcache ∧
    t.caches.scache = s.caches.scache ∧ t.caches.epoch = s.caches.epoch := by
  unfold TertiaryOnly at h
  rw [← h]
  exact ⟨rfl, rfl, rfl⟩

theorem TertiaryOnly.dLine {s t : State} (h : TertiaryOnly s t) (k : Nat) : dLine t k = dLine s k := by
  obtain ⟨hd, -, he⟩ := h.fields
  unfold Machine.dLine
  rw [hd, he]

theorem TertiaryOnly.sLine {s t : State} (h : TertiaryOnly s t) (k : Nat) : sLine t k = sLine s k := by
  obtain ⟨-, hs, he⟩ := h.fields
  unfold Machine.sLine
  rw [hs, he]

theorem TertiaryOnly.lookupD {s t : State} (h : TertiaryOnly s t) (pa : PAddr) : lookupD t pa = lookupD s pa := by
  obtain ⟨hd, -, he⟩ := h.fields
  exact lookupD_congr s t pa hd he

/-- A line reaches RAM, and the tertiary cache where that holds it (20_memory.md rule R261). -/
theorem writeBelow_sends {a : PAddr} {s : State} (v : BitVec 256) (hram : regionKind s a = .ram)
    (hw : Memory.wf s.mem = true) (ht : tertiaryOn s = true → ∃ q, lookupT s a = .ok q) :
    ∃ t, writeBelow a v s = .ok t ∧ MemSide s t ∧ SentBelow a v s t ∧ TertiaryOnly s t := by
  have hside := writeBelow_side a v s
  obtain ⟨mem, hmain, -, hline⟩ := mainWriteLine_ram v hram hw
  unfold writeBelow at hside ⊢
  rw [hmain] at hside ⊢
  dsimp only at hside ⊢
  have hon : tertiaryOn { s with mem := mem } = tertiaryOn s := rfl
  have hlook : lookupT { s with mem := mem } a = lookupT s a := rfl
  rw [hon, hlook] at hside ⊢
  cases hT : tertiaryOn s with
  | false =>
    rw [hT] at hside
    exact ⟨_, rfl, hside, ⟨hline, fun q => ⟨fun h => Bool.noConfusion (hT.symm.trans h), fun _ => rfl⟩⟩, rfl⟩
  | true =>
    obtain ⟨found, hfound⟩ := ht hT
    rw [hT, hfound] at hside
    rw [hfound]
    cases found with
    | none =>
      refine ⟨_, rfl, hside, ⟨hline, fun q => ⟨fun _ h => ?_, fun _ => rfl⟩⟩, rfl⟩
      rw [hfound] at h
      cases h
    | some k =>
      refine ⟨_, rfl, hside, ⟨hline, fun q => ⟨fun _ h => ?_, fun h => ?_⟩⟩, rfl⟩
      · rw [hfound] at h
        obtain rfl : k = q := Option.some.inj (Except.ok.inj h)
        rw [tLine_putT_same]
        exact ⟨rfl, rfl, rfl⟩
      · rw [hfound] at h
        have hq : q ≠ k := fun e => h.elim (fun h => Bool.noConfusion (hT.symm.trans h)) fun h => h (e ▸ rfl)
        rw [tLine_putT, if_neg hq]
        rfl


/-! ## Tags (41_cache_instruction.md rule R389) -/

theorem getLsbD_tagLoWith (old new : Word) {mask : Word} {i : Nat} (h : mask.getLsbD i = true) :
    (tagLoWith old mask new).getLsbD i = new.getLsbD i := by
  simp [tagLoWith, h]

theorem extract_tagLoWith (old new : Word) {mask : Word} {k n : Nat} (h : ∀ i, i < n → mask.getLsbD (k + i) = true) :
    (tagLoWith old mask new).extractLsb' k n = new.extractLsb' k n := by
  apply BitVec.eq_of_getLsbD_eq
  intro i hi
  simp only [BitVec.getLsbD_extractLsb', getLsbD_tagLoWith old new (h i hi)]

/-- `TagLo` after a load of an instruction-cache tag (10_state.md rule R149). -/
theorem tagLo_instruction (old : Word) (preDec : BitVec 12) (state : BitVec 2) (l f p : Bool) :
    let lo := tagLoWith old 0xFFF000C7 (preDec ++ 0#12 ++ state ++ 0#3 ++ bv1 l ++ bv1 f ++ bv1 p)
    lo.extractLsb' 6 2 = state ∧ lo.getLsbD 2 = l ∧ lo.getLsbD 1 = f ∧ lo.getLsbD 0 = p := by
  refine ⟨?_, ?_, ?_, ?_⟩
  · rw [extract_tagLoWith _ _ (by decide)]
    apply BitVec.eq_of_getLsbD_eq
    intro i hi
    interval_cases i <;> simp only [BitVec.getLsbD_extractLsb', BitVec.getLsbD_append, bv1] <;> simp
  all_goals
    rw [getLsbD_tagLoWith _ _ (by decide)]
    simp only [BitVec.getLsbD_append, bv1]
    simp

/-- `TagLo` after a load of a data-cache tag (10_state.md rule R149). -/
theorem tagLo_data (old : Word) (state : BitVec 2) (sp b l f p : Bool) :
    let lo := tagLoWith old 0x000000EF (0#24 ++ state ++ bv1 sp ++ 0#1 ++ bv1 b ++ bv1 l ++ bv1 f ++ bv1 p)
    lo.extractLsb' 6 2 = state ∧ lo.getLsbD 5 = sp ∧ lo.getLsbD 3 = b ∧ lo.getLsbD 2 = l ∧ lo.getLsbD 1 = f ∧
      lo.getLsbD 0 = p := by
  refine ⟨?_, ?_, ?_, ?_, ?_, ?_⟩
  · rw [extract_tagLoWith _ _ (by decide)]
    apply BitVec.eq_of_getLsbD_eq
    intro i hi
    interval_cases i <;> simp only [BitVec.getLsbD_extractLsb', BitVec.getLsbD_append, bv1] <;> simp
  all_goals
    rw [getLsbD_tagLoWith _ _ (by decide)]
    simp only [BitVec.getLsbD_append, bv1]
    simp

/-- `TagLo` after a load of a secondary tag (10_state.md rule R149). -/
theorem tagLo_secondary (old : Word) (state : BitVec 3) (sp l f p : Bool) :
    (tagLoWith old 0x000001E7 (0#23 ++ state ++ bv1 sp ++ 0#2 ++ bv1 l ++ bv1 f ++ bv1 p)).extractLsb' 6 3 = state := by
  rw [extract_tagLoWith _ _ (by decide)]
  apply BitVec.eq_of_getLsbD_eq
  intro i hi
  interval_cases i <;> simp only [BitVec.getLsbD_extractLsb', BitVec.getLsbD_append, bv1] <;> simp

/-- `TagLo` after a load of a tertiary tag (10_state.md rule R149). -/
theorem tagLo_tertiary (old : Word) (state : BitVec 2) :
    (tagLoWith old 0x00000180 (state.zeroExtend 32 <<< 7)).extractLsb' 7 2 = state := by
  rw [extract_tagLoWith _ _ (by decide)]
  apply BitVec.eq_of_getLsbD_eq
  intro i hi
  interval_cases i <;> simp

/-- The parity bits of a doubleword in the byte order of the mode stream (10_state.md rule R147). -/
theorem getLsbD_byteOrderBits (big : Bool) (b : BitVec 8) {j : Nat} (hj : j < 8) :
    (byteOrderBits big b).getLsbD j = b.getLsbD (if big then 7 - j else j) := by
  cases big with
  | false => rfl
  | true => interval_cases j <;> simp only [byteOrderBits, bv1, if_true, BitVec.getLsbD_append] <;> simp

theorem getLsbD_parOfD (s : State) (va : Dword) (x : DLine) {j : Nat} (hj : j < 8) : (parOfD s va x).getLsbD j =
    x.par.getLsbD (va.toNat / 8 % 4 * 8 + if s.params.bigEndian then 7 - j else j) := by
  have hlt : (if s.params.bigEndian then 7 - j else j) < 8 := by split <;> omega
  rw [parOfD, getLsbD_byteOrderBits _ _ hj, dwordOf_eq, Nat.mul_comm]
  simp [hlt]

section LoadTag

variable {userForm : Bool} {base : RegNum} {offset : BitVec 16} {s : State} {pa : PAddr} {attr : BitVec 3}
  {op : Dword → PAddr → BitVec 3 → State → Except Stop State}

/-- A tag load, after `n` free values were drawn: what is stated of the three registers it loads holds of the next state. -/
theorem ends_setTags (hr : CacheReaches userForm base offset s pa attr) {lo hi : Word} {par : BitVec 8} {n : Nat}
    {P : Word → BitVec 8 → Prop} (hop : op (effAddr s base offset) pa attr s = .ok (setTags lo hi par (s.drew n)))
    (hP : P lo par) :
    Ends (withCacheOperand userForm base offset s op) (fun t => CacheFrame s t ∧ KeepsMem s t ∧
      t.cp0 = { s.cp0 with tagLo := t.cp0.tagLo, tagHi := t.cp0.tagHi, ecc := { s.cp0.ecc with par := t.cp0.ecc.par } } ∧
      P t.cp0.tagLo t.cp0.ecc.par) :=
  ends_keepingCaches hr hop (MemSide_drew s n) rfl ⟨fun _ => rfl, rfl, hP⟩

variable (he : s.params.explicitCaches = true)
include he

theorem explicit_indexLoadTagI (hr : CacheReaches false base offset s pa attr) {k : Nat}
    (hk : indexP (effAddr s base offset) = k) :
    Does (.cacheIndexLoadTagI base offset) s (fun t => CacheFrame s t ∧ KeepsMem s t ∧
      t.cp0.tagLo.extractLsb' 6 2 = (iLine s k).state ∧ t.cp0.tagLo.getLsbD 2 = (iLine s k).l ∧
      t.cp0.tagLo.getLsbD 1 = (iLine s k).f ∧ t.cp0.tagLo.getLsbD 0 = (iLine s k).p ∧
      t.cp0 = { s.cp0 with tagLo := t.cp0.tagLo, tagHi := t.cp0.tagHi, ecc := { s.cp0.ecc with par := t.cp0.ecc.par } }) := by
  have h : Ends (execCacheIndexLoadTagI base offset s) _ := ends_setTags (n := 1) hr (perLevel_explicit he)
    (P := fun lo _ => lo.extractLsb' 6 2 = (iLine s k).state ∧ lo.getLsbD 2 = (iLine s k).l ∧
      lo.getLsbD 1 = (iLine s k).f ∧ lo.getLsbD 0 = (iLine s k).p)
    (by rw [hk]; exact tagLo_instruction _ _ _ _ _ _)
  exact h.imp fun t ⟨hframe, hmem, hcp0, hstate, hl, hf, hp⟩ => ⟨hframe, hmem, hstate, hl, hf, hp, hcp0⟩

theorem explicit_indexLoadTagD (hr : CacheReaches false base offset s pa attr) {k : Nat}
    (hk : indexP (effAddr s base offset) = k) :
    Does (.cacheIndexLoadTagD base offset) s (fun t => CacheFrame s t ∧ KeepsMem s t ∧
      t.cp0.tagLo.extractLsb' 6 2 = (dLine s k).state ∧ t.cp0.tagLo.getLsbD 5 = (dLine s k).sp ∧
      t.cp0.tagLo.getLsbD 3 = (dLine s k).b ∧ t.cp0.tagLo.getLsbD 2 = (dLine s k).l ∧
      t.cp0.tagLo.getLsbD 1 = (dLine s k).f ∧ t.cp0.tagLo.getLsbD 0 = (dLine s k).p ∧
      t.cp0 = { s.cp0 with tagLo := t.cp0.tagLo, tagHi := t.cp0.tagHi, ecc := { s.cp0.ecc with par := t.cp0.ecc.par } } ∧
      ∀ j, j < 8 → t.cp0.ecc.par.getLsbD j = (dLine s k).par.getLsbD
        ((effAddr s base offset).toNat / 8 % 4 * 8 + if s.params.bigEndian then 7 - j else j)) := by
  have h : Ends (execCacheIndexLoadTagD base offset s) _ := ends_setTags (n := 0) hr (perLevel_explicit he)
    (P := fun lo par => (lo.extractLsb' 6 2 = (dLine s k).state ∧ lo.getLsbD 5 = (dLine s k).sp ∧
        lo.getLsbD 3 = (dLine s k).b ∧ lo.getLsbD 2 = (dLine s k).l ∧ lo.getLsbD 1 = (dLine s k).f ∧
        lo.getLsbD 0 = (dLine s k).p) ∧
      ∀ j, j < 8 → par.getLsbD j = (dLine s k).par.getLsbD
        ((effAddr s base offset).toNat / 8 % 4 * 8 + if s.params.bigEndian then 7 - j else j))
    (by rw [hk]; exact ⟨tagLo_data _ _ _ _ _ _ _, fun j hj => getLsbD_parOfD s _ _ hj⟩)
  exact h.imp fun t ⟨hframe, hmem, hcp0, ⟨hstate, hsp, hb, hl, hf, hp⟩, hpar⟩ =>
    ⟨hframe, hmem, hstate, hsp, hb, hl, hf, hp, hcp0, hpar⟩

theorem explicit_indexLoadTagS (hr : CacheReaches false base offset s pa attr) (hpresent : s.params.scPresent = true)
    {j : Nat} (hj : indexS pa = j) :
    Does (.cacheIndexLoadTagS base offset) s (fun t => CacheFrame s t ∧ KeepsMem s t ∧
      t.cp0.tagLo.extractLsb' 6 3 = (sLine s j).state ∧
      t.cp0 = { s.cp0 with tagLo := t.cp0.tagLo, tagHi := t.cp0.tagHi, ecc := { s.cp0.ecc with par := t.cp0.ecc.par } }) := by
  have h : Ends (execCacheIndexLoadTagS base offset s) _ :=
    ends_setTags (n := 1) hr ((needS_present hpresent).trans (perLevel_explicit he))
      (P := fun lo _ => lo.extractLsb' 6 3 = (sLine s j).state) (by rw [hj]; exact tagLo_secondary _ _ _ _ _ _)
  exact h.imp fun t ⟨hframe, hmem, hcp0, hstate⟩ => ⟨hframe, hmem, hstate, hcp0⟩

theorem explicit_indexLoadTagT (hr : CacheReaches false base offset s pa attr) (hpresent : s.params.tcPresent = true) :
    Does (.cacheIndexLoadTagT base offset) s (fun t => CacheFrame s t ∧ KeepsMem s t ∧
      t.cp0.tagLo.extractLsb' 7 2 = (tLine s (tertiaryIndex s pa)).state ∧
      t.cp0 = { s.cp0 with tagLo := t.cp0.tagLo, tagHi := t.cp0.tagHi, ecc := { s.cp0.ecc with par := t.cp0.ecc.par } }) := by
  have h : Ends (execCacheIndexLoadTagT base offset s) _ :=
    ends_setTags (n := 1) hr ((needT_present hpresent).trans (perLevel_explicit he))
      (P := fun lo _ => lo.extractLsb' 7 2 = (tLine s (tertiaryIndex s pa)).state) (tagLo_tertiary _ _)
  exact h.imp fun t ⟨hframe, hmem, hcp0, hstate⟩ => ⟨hframe, hmem, hstate, hcp0⟩

end LoadTag


/-! ## Explicit caches: the primary lines -/

section OneLine

variable {userForm : Bool} {base : RegNum} {offset : BitVec 16} {s u : State} {pa : PAddr} {attr : BitVec 3}
  {op : Dword → PAddr → BitVec 3 → State → Except Stop State} {cp0 : Cp0} {P Q : State → Prop}

theorem EndsExplicit.imp {o : Out} (h : EndsExplicit o s cp0 P) (hPQ : ∀ t, P t → Q t) : EndsExplicit o s cp0 Q :=
  Ends.imp h fun t ⟨hframe, hcp0, hP⟩ => ⟨hframe, hcp0, hPQ t hP⟩

/-- An operation that leaves memory and the caches alone. -/
theorem endsExplicit_same (hr : CacheReaches userForm base offset s pa attr)
    (hop : op (effAddr s base offset) pa attr s = .ok { s with cp0 := cp0 }) :
    EndsExplicit (withCacheOperand userForm base offset s op) s cp0 (fun t => KeepsMem s t ∧ t.caches = s.caches) :=
  endsExplicit_of_op hr hop (MemSide_refl s) rfl ⟨fun _ => rfl, rfl⟩

/-- An operation that puts one data-cache line, after `u` was reached without a change of the caches: what `Q` says of the
memory of `u` stays true. -/
theorem endsExplicit_putD (hr : CacheReaches userForm base offset s pa attr) {k : Nat} {x : DLine}
    (hop : op (effAddr s base offset) pa attr s = .ok (putD k x u)) (hu : MemSide s u) (hcaches : u.caches = s.caches)
    (hQ : Q { s with mem := u.mem }) :
    EndsExplicit (withCacheOperand userForm base offset s op) s s.cp0
      (fun t => Q { s with mem := t.mem } ∧ OnlyLineD k s t ∧ dLine t k = x) := by
  have honly : OnlyLineD k s (putD k x u) := by
    have h := onlyLineD_putD u k x
    unfold OnlyLineD at h ⊢
    rw [hcaches] at h
    exact ⟨fun j hj => (h.1 j hj).trans (by unfold dLine; rw [hcaches]), h.2⟩
  exact endsExplicit_of_op hr hop ((cacheSide_of_memSide hu).putD k x) hu.cp0 ⟨hQ, honly, dLine_putD_same u k x⟩

/-- As `endsExplicit_putD`, for an instruction-cache line. -/
theorem endsExplicit_putI (hr : CacheReaches userForm base offset s pa attr) {k n : Nat} {x : ILine}
    (hop : op (effAddr s base offset) pa attr s = .ok (putI k x (s.drew n))) :
    EndsExplicit (withCacheOperand userForm base offset s op) s s.cp0
      (fun t => KeepsMem s t ∧ OnlyLineI k s t ∧ iLine t k = x) :=
  endsExplicit_of_op hr hop (cacheSide_of_memSide (MemSide_trans (MemSide_drew s n) (MemSide_putI _ k x))) rfl
    ⟨fun _ => rfl, onlyLineI_putI (s.drew n) k x, iLine_putI_same _ k x⟩

end OneLine

/-- A bypass line goes to main memory (20_memory.md rule R269). -/
theorem writebackD_bypass {x : DLine} {a : PAddr} {s : State}
    (h : x.b = true ∧ regionKind s a = .ram ∧ Memory.wf s.mem = true) :
    ∃ u, writebackD a x s = .ok u ∧ MemSide s u ∧ u.caches = s.caches ∧
      LineWritten s { s with mem := u.mem } a x.data := by
  obtain ⟨hb, hram, hw⟩ := h
  obtain ⟨mem, hmain, hwf, hline⟩ := mainWriteLine_ram x.data hram hw
  have hside : MemSide s { s with mem := mem } := MemSide_setMem s mem s.stale fun _ => hwf
  exact ⟨_, (if_pos hb).trans hmain, hside, rfl, hline⟩

/-- RAM and ROM answer a read (20_memory.md rule R251). -/
theorem readable_of_region {a : PAddr} {s : State} (fetch : Bool) (h : regionKind s a = .ram ∨ regionKind s a = .rom) :
    readable fetch a s = .ok () := by
  unfold readable
  rcases h with h | h <;> rw [h]

theorem mainReadLine_of_region {a : PAddr} {s : State} (fetch : Bool)
    (h : regionKind s a = .ram ∨ regionKind s a = .rom) :
    mainReadLine fetch a s = .ok (Memory.readLine s.mem (lineAddr a)) := by
  rw [mainReadLine, readable_of_region fetch h]

section Primary

variable {base : RegNum} {offset : BitVec 16} {s u : State} {pa : PAddr} {attr : BitVec 3} {k : Nat} {Q : State → Prop}
  (he : s.params.explicitCaches = true)
include he

theorem explicit_hitWritebackD_miss (hr : CacheReaches true base offset s pa attr) (hmiss : lookupD s pa = .ok none) :
    EndsExplicit (execCacheHitWritebackD base offset s) s s.cp0 (fun t => KeepsMem s t ∧ t.caches = s.caches) :=
  endsExplicit_same hr ((perLevel_explicit he).trans (by rw [hmiss]))

theorem explicit_hitWritebackInvalidateD_miss (hr : CacheReaches true base offset s pa attr)
    (hmiss : lookupD s pa = .ok none) :
    EndsExplicit (execCacheHitWritebackInvalidateD base offset s) s s.cp0
      (fun t => KeepsMem s t ∧ t.caches = s.caches) :=
  endsExplicit_same hr ((perLevel_explicit he).trans (by rw [hmiss]))

/-- `Hit_Writeback_D` on a hit, after a writeback, if one is due, reached `u`. -/
theorem explicit_hitWritebackD_hit (hr : CacheReaches true base offset s pa attr) (hhit : lookupD s pa = .ok (some k))
    (hwb : (if (dLine s k).w then writebackD (dLineAddr (dLine s k) k) (dLine s k) s else .ok s) = .ok u)
    (hu : MemSide s u) (hcaches : u.caches = s.caches) (hQ : Q { s with mem := u.mem }) :
    EndsExplicit (execCacheHitWritebackD base offset s) s s.cp0 (fun t => Q { s with mem := t.mem } ∧ OnlyLineD k s t ∧
      (dLine t k).w = false ∧ (dLine t k).state = 3 ∧ (dLine t k).data = (dLine s k).data) := by
  obtain ⟨par, hput⟩ := modifyParityD_putD (effAddr s base offset) k { dLine s k with w := false } u
  have h : EndsExplicit (execCacheHitWritebackD base offset s) s s.cp0 _ :=
    endsExplicit_putD hr ((perLevel_explicit he).trans (by simp only [hhit, hwb, hput]; rfl)) hu hcaches hQ
  refine h.imp fun t ⟨hmem, honly, hline⟩ => ⟨hmem, honly, ?_⟩
  rw [hline]
  exact ⟨rfl, (lookupD_hit hhit).2.2, rfl⟩

/-- As `explicit_hitWritebackD_hit`, for `Hit_Writeback_Invalidate_D`. -/
theorem explicit_hitWritebackInvalidateD_hit (hr : CacheReaches true base offset s pa attr)
    (hhit : lookupD s pa = .ok (some k))
    (hwb : (if (dLine s k).w then writebackD (dLineAddr (dLine s k) k) (dLine s k) s else .ok s) = .ok u)
    (hu : MemSide s u) (hcaches : u.caches = s.caches) (hQ : Q { s with mem := u.mem }) :
    EndsExplicit (execCacheHitWritebackInvalidateD base offset s) s s.cp0 (fun t => Q { s with mem := t.mem } ∧
      OnlyLineD k s t ∧ (dLine t k).state = 0) := by
  obtain ⟨x, hstate, hput⟩ := modifyParityD_invalidateD (effAddr s base offset) k u
  have h : EndsExplicit (execCacheHitWritebackInvalidateD base offset s) s s.cp0 _ :=
    endsExplicit_putD hr ((perLevel_explicit he).trans (by simp only [hhit, hwb, hput]; rfl)) hu hcaches hQ
  exact h.imp fun t ⟨hmem, honly, hline⟩ => ⟨hmem, honly, by rw [hline, hstate]⟩

/-- As `explicit_hitWritebackD_hit`, for `Index_Writeback_Invalidate_D`. -/
theorem explicit_indexWritebackInvalidateD (hr : CacheReaches false base offset s pa attr)
    (hk : indexP (effAddr s base offset) = k) (hpending : (dLine s k).state ≠ 1)
    (hwb : (if (dLine s k).state != 0 && (dLine s k).w then writebackD (dLineAddr (dLine s k) k) (dLine s k) s
      else .ok s) = .ok u)
    (hu : MemSide s u) (hcaches : u.caches = s.caches) (hQ : Q { s with mem := u.mem }) :
    EndsExplicit (execCacheIndexWritebackInvalidateD base offset s) s s.cp0 (fun t => Q { s with mem := t.mem } ∧
      OnlyLineD k s t ∧ (dLine t k).state = 0) := by
  obtain ⟨x, hstate, hput⟩ := modifyParityD_invalidateD (effAddr s base offset) k u
  have h : EndsExplicit (execCacheIndexWritebackInvalidateD base offset s) s s.cp0 _ :=
    endsExplicit_putD hr ((perLevel_explicit he).trans (by
      simp only [hk, beq_eq_false_iff_ne.2 hpending, Bool.false_and, Bool.false_eq_true, if_false, hwb, hput]; rfl))
      hu hcaches hQ
  exact h.imp fun t ⟨hmem, honly, hline⟩ => ⟨hmem, honly, by rw [hline, hstate]⟩

theorem explicit_indexStoreTagD (hr : CacheReaches false base offset s pa attr)
    (hk : indexP (effAddr s base offset) = k) :
    EndsExplicit (execCacheIndexStoreTagD base offset s) s s.cp0 (fun t => KeepsMem s t ∧ OnlyLineD k s t ∧
      (dLine t k).state = s.cp0.tagLo.extractLsb' 6 2 ∧ (dLine t k).l = s.cp0.tagLo.getLsbD 2 ∧
      (dLine t k).b = s.cp0.tagLo.getLsbD 3 ∧ (dLine t k).w = false ∧ (dLine t k).data = (dLine s k).data) := by
  subst hk
  have h : EndsExplicit (execCacheIndexStoreTagD base offset s) s s.cp0 _ :=
    endsExplicit_putD (Q := KeepsMem s) hr (perLevel_explicit he) (MemSide_refl s) rfl fun _ => rfl
  refine h.imp fun t ⟨hmem, honly, hline⟩ => ⟨hmem, honly, ?_⟩
  rw [hline]
  exact ⟨rfl, rfl, rfl, rfl, rfl⟩

theorem explicit_hitInvalidateD_miss (hr : CacheReaches false base offset s pa attr) (hmiss : lookupD s pa = .ok none) :
    EndsExplicit (execCacheHitInvalidateD base offset s) s s.cp0 (fun t => KeepsMem s t ∧ t.caches = s.caches) :=
  endsExplicit_same hr ((perLevel_explicit he).trans (invalidateMatchingD_eq hmiss))

theorem explicit_hitInvalidateD_hit (hr : CacheReaches false base offset s pa attr)
    (hhit : lookupD s pa = .ok (some k)) :
    EndsExplicit (execCacheHitInvalidateD base offset s) s s.cp0 (fun t => KeepsMem s t ∧ OnlyLineD k s t ∧
      (dLine t k).state = 0) := by
  have h : EndsExplicit (execCacheHitInvalidateD base offset s) s s.cp0 _ :=
    endsExplicit_putD (Q := KeepsMem s) hr ((perLevel_explicit he).trans (invalidateMatchingD_eq hhit)) (MemSide_refl s)
      rfl fun _ => rfl
  exact h.imp fun t ⟨hmem, honly, hline⟩ => ⟨hmem, honly, by rw [hline]; rfl⟩

theorem explicit_createDirtyExclusiveD_miss (hr : CacheReaches false base offset s pa attr)
    (hmiss : lookupD s pa = .ok none) (hclean : CleanWays s pa) :
    EndsExplicit (execCacheCreateDirtyExclusiveD base offset s) s s.cp0 (fun t => KeepsMem s t ∧
      ∃ d, HoldsLineD pa true s t d) := by
  have h : EndsExplicit (execCacheCreateDirtyExclusiveD base offset s) s s.cp0 _ :=
    endsExplicit_putD (Q := KeepsMem s) hr
      ((perLevel_explicit he).trans (by simp only [hmiss, evictD_clean pa false s hclean]; rfl))
      (MemSide_trans (MemSide_drew s 2) (MemSide_drew _ 5)) rfl fun _ => rfl
  refine h.imp fun t ⟨hmem, honly, hline⟩ => ⟨hmem, _, slotD_ways pa false s, honly, ?_⟩
  rw [hline]
  exact ⟨rfl, rfl, rfl⟩

theorem explicit_createDirtyExclusiveD_hit (hr : CacheReaches false base offset s pa attr)
    (hhit : lookupD s pa = .ok (some k)) :
    EndsExplicit (execCacheCreateDirtyExclusiveD base offset s) s s.cp0 (fun t => KeepsMem s t ∧
      HoldsLineD pa true s t k) := by
  obtain ⟨hway, htag, -⟩ := lookupD_hit hhit
  have h : EndsExplicit (execCacheCreateDirtyExclusiveD base offset s) s s.cp0 _ :=
    endsExplicit_putD (Q := KeepsMem s) hr ((perLevel_explicit he).trans (by simp only [hhit]; rfl)) (MemSide_refl s) rfl
      fun _ => rfl
  refine h.imp fun t ⟨hmem, honly, hline⟩ => ⟨hmem, hway, honly, ?_⟩
  rw [hline]
  exact ⟨htag, rfl, rfl⟩

/-! ### The instruction cache -/

theorem explicit_indexInvalidateI (hr : CacheReaches false base offset s pa attr)
    (hk : indexP (effAddr s base offset) = k) :
    EndsExplicit (execCacheIndexInvalidateI base offset s) s s.cp0 (fun t => KeepsMem s t ∧ OnlyLineI k s t ∧
      (iLine t k).state = 0) := by
  subst hk
  have h : EndsExplicit (execCacheIndexInvalidateI base offset s) s s.cp0 _ :=
    endsExplicit_putI (n := 0) hr (perLevel_explicit he)
  exact h.imp fun t ⟨hmem, honly, hline⟩ => ⟨hmem, honly, by rw [hline]; rfl⟩

theorem explicit_indexStoreTagI (hr : CacheReaches false base offset s pa attr)
    (hk : indexP (effAddr s base offset) = k) :
    EndsExplicit (execCacheIndexStoreTagI base offset s) s s.cp0 (fun t => KeepsMem s t ∧ OnlyLineI k s t ∧
      (iLine t k).state = s.cp0.tagLo.extractLsb' 6 2 ∧ (iLine t k).l = s.cp0.tagLo.getLsbD 2 ∧
      (iLine t k).data = (iLine s k).data) := by
  subst hk
  have h : EndsExplicit (execCacheIndexStoreTagI base offset s) s s.cp0 _ :=
    endsExplicit_putI (n := 0) hr (perLevel_explicit he)
  refine h.imp fun t ⟨hmem, honly, hline⟩ => ⟨hmem, honly, ?_⟩
  rw [hline]
  exact ⟨rfl, rfl, rfl⟩

theorem explicit_hitInvalidateI_miss (hr : CacheReaches false base offset s pa attr) (hmiss : lookupI s pa = .ok none) :
    EndsExplicit (execCacheHitInvalidateI base offset s) s s.cp0 (fun t => KeepsMem s t ∧ t.caches = s.caches) :=
  endsExplicit_same hr ((perLevel_explicit he).trans (by rw [hmiss]))

theorem explicit_hitInvalidateI_hit (hr : CacheReaches false base offset s pa attr)
    (hhit : lookupI s pa = .ok (some k)) :
    EndsExplicit (execCacheHitInvalidateI base offset s) s s.cp0 (fun t => KeepsMem s t ∧ OnlyLineI k s t ∧
      (iLine t k).state = 0) := by
  have h : EndsExplicit (execCacheHitInvalidateI base offset s) s s.cp0 _ :=
    endsExplicit_putI (n := 0) hr ((perLevel_explicit he).trans (by rw [hhit]; rfl))
  exact h.imp fun t ⟨hmem, honly, hline⟩ => ⟨hmem, honly, by rw [hline]; rfl⟩

theorem explicit_hitWritebackI_miss (hr : CacheReaches true base offset s pa attr) (hmiss : lookupI s pa = .ok none) :
    EndsExplicit (execCacheHitWritebackI base offset s) s s.cp0 (fun t => KeepsMem s t ∧ t.caches = s.caches) :=
  endsExplicit_same hr ((perLevel_explicit he).trans (by rw [hmiss]))

/-- Memory is rewritten with what it holds, so only parity can change (41_cache_instruction.md rule R396). -/
theorem explicit_hitWritebackI_hit (hr : CacheReaches true base offset s pa attr)
    (hhit : lookupI s pa = .ok (some k)) :
    EndsExplicit (execCacheHitWritebackI base offset s) s s.cp0 (fun t => KeepsMem s t ∧ OnlyLineI k s t ∧
      { iLine t k with par := (iLine s k).par } = iLine s k) := by
  rcases modifyParityI_cases (effAddr s base offset) k s with hput | ⟨par, hput⟩
  · have h : EndsExplicit (execCacheHitWritebackI base offset s) s s.cp0 _ :=
      endsExplicit_of_op hr ((perLevel_explicit he).trans (by simp only [hhit, hput])) (MemSide_refl s) rfl
        (P := fun t => KeepsMem s t ∧ OnlyLineI k s t ∧ { iLine t k with par := (iLine s k).par } = iLine s k)
        ⟨fun _ => rfl, ⟨fun _ _ => rfl, rfl⟩, rfl⟩
    exact h
  · have h : EndsExplicit (execCacheHitWritebackI base offset s) s s.cp0 _ :=
      endsExplicit_putI (n := 0) hr ((perLevel_explicit he).trans (by simp only [hhit, hput]; rfl))
    exact h.imp fun t ⟨hmem, honly, hline⟩ => ⟨hmem, honly, by rw [hline]⟩

/-- A bypass fill reads main memory (20_memory.md rule R262). -/
theorem explicit_fillI (hr : CacheReaches false base offset s pa attr) (hmiss : lookupI s pa = .ok none) (hattr : attr = 7)
    (hregion : regionKind s pa = .ram ∨ regionKind s pa = .rom) :
    EndsExplicit (execCacheFillI base offset s) s s.cp0 (fun t => KeepsMem s t ∧ ∃ d ∈ primaryWays pa,
      OnlyLineI d s t ∧ (iLine t d).state = 2 ∧ (iLine t d).tag = pa.extractLsb' 12 24 ∧
      ∀ j, j < 32 → lineByte (iLine t d).data j = Memory.read s.mem (pa.toNat / 32 * 32 + j)) := by
  subst hattr
  have hfill : ∃ slot, slot.line ∈ primaryWays pa ∧ fillI pa 7 true s =
      .ok (slot.line, putI slot.line (newI pa slot (Memory.readLine s.mem (lineAddr pa))) (s.drew 2)) :=
    ⟨slotI pa (true && s.cp0.ecc.i) s, slotI_ways _ _ _, by
      simp only [fillI, fillSource, mainReadLine_of_region _ hregion, bne_self_eq_false, Bool.false_eq_true, if_false]⟩
  obtain ⟨slot, hway, hfill⟩ := hfill
  obtain ⟨par, hput⟩ := modifyParityI_putI (effAddr s base offset) slot.line
    (newI pa slot (Memory.readLine s.mem (lineAddr pa))) (s.drew 2)
  have h : EndsExplicit (execCacheFillI base offset s) s s.cp0 _ :=
    endsExplicit_putI (n := 2) hr ((perLevel_explicit he).trans (by simp only [hmiss, hfill, hput]; rfl))
  refine h.imp fun t ⟨hmem, honly, hline⟩ => ⟨hmem, _, hway, honly, ?_⟩
  rw [hline]
  exact ⟨rfl, rfl, fun j hj => readLine_byte _ _ j hj⟩

end Primary

/-! ## Explicit caches: the secondary lines -/

/-- `Status.CH` set, as a secondary Hit operation sets it (41_cache_instruction.md rule R392). -/
def withCh (hit : Bool) (cp0 : Cp0) : Cp0 := { cp0 with status := { cp0.status with ch := hit } }

theorem setCh_eq {s u : State} (hcp0 : u.cp0 = s.cp0) (hit : Bool) :
    setCh hit u = { u with cp0 := withCh hit s.cp0 } := by
  rw [← hcp0]; rfl

/-- The line a lookup found, if it found one, is put. -/
def putFound (found : Option Nat) (y : Nat → DLine) (s : State) : State :=
  match found with
  | some d => putD d (y d) s
  | none => s

theorem MemSide_putFound (found : Option Nat) (y : Nat → DLine) (s : State) : MemSide s (putFound found y s) := by
  cases found with
  | none => exact MemSide_refl s
  | some d => exact MemSide_putD s d (y d)

theorem sentBelow_put {a : PAddr} {v : BitVec 256} {s u : State} (h : SentBelow a v s u) (j : Nat) (x : SLine)
    (found : Option Nat) (y : Nat → DLine) (cp0 : Cp0) :
    SentBelow a v s { putS j x (putFound found y u) with cp0 := cp0 } := by
  cases found <;> exact h

theorem nothingSent_put (s : State) (j : Nat) (x : SLine) (found : Option Nat) (y : Nat → DLine) (cp0 : Cp0) :
    NothingSent s { putS j x (putFound found y s) with cp0 := cp0 } := by
  cases found <;> exact ⟨fun _ => rfl, fun _ => rfl⟩

theorem cachesBut_put {s u : State} (h : TertiaryOnly s u) (j : Nat) (x : SLine) (found : Option Nat) (y : Nat → DLine) :
    CachesBut found j s (putS j x (putFound found y u)) := by
  have hcaches : { u.caches with dcache := s.caches.dcache, scache := s.caches.scache, tcache := s.caches.tcache }
      = s.caches := by
    unfold TertiaryOnly at h
    rw [← h]
  have hs (i : Nat) (hi : i ≠ j) : sLine (putS j x (putFound found y u)) i = sLine s i := by
    rw [sLine_putS, if_neg hi, ← h.sLine i]
    cases found <;> rfl
  refine ⟨fun i hi => ?_, hs, ?_⟩
  · cases found with
    | none => exact h.dLine i
    | some d =>
      exact (dLine_putD u d i (y d)).trans ((if_neg fun hid : i = d => hi (congrArg some hid.symm)).trans (h.dLine i))
  · cases found <;> exact hcaches

theorem cachesBut_of_onlyLineS {j : Nat} {s t : State} (h : OnlyLineS j s t) :
    CachesBut none j s t ∧ ∀ q, tLine t q = tLine s q := by
  obtain ⟨hs, hcaches⟩ := h
  have hd (i : Nat) : dLine t i = dLine s i := by unfold dLine; rw [← hcaches]
  have ht (q : Nat) : tLine t q = tLine s q := by unfold tLine; rw [← hcaches]
  exact ⟨⟨fun i _ => hd i, hs, by rw [← hcaches]⟩, ht⟩

/-- Lines that differ in their parity only. -/
theorem fields_of_sameButPar {x y : SLine} {par : BitVec 4} (h : { x with par := par } = y) :
    x.state = y.state ∧ x.data = y.data := by
  subst h; exact ⟨rfl, rfl⟩

theorem dirtyS_iff (state : BitVec 3) : dirtyS state = true ↔ state = 5 ∨ state = 7 := by simp [dirtyS]

theorem not_dirtyS {state : BitVec 3} (h : ¬(state = 5 ∨ state = 7)) : dirtyS state = false :=
  Bool.eq_false_iff.2 fun hdirty => h ((dirtyS_iff state).1 hdirty)

/-- After a secondary Hit operation the matching data-cache line is invalid (41_cache_instruction.md rules R392, R393). -/
theorem invalidateMatchingD_afterS {s u : State} {pa : PAddr} {found : Option Nat} (hcp0 : u.cp0 = s.cp0)
    (hlook : lookupD u pa = .ok found) (j : Nat) (x : SLine) : ∃ y : Nat → DLine, (∀ d, (y d).state = 0) ∧
      invalidateMatchingD pa (setCh true (putS j x u)) =
        .ok { putS j x (putFound found y u) with cp0 := withCh true s.cp0 } := by
  have hlook' : lookupD (setCh true (putS j x u)) pa = .ok found := (lookupD_congr u _ pa rfl rfl).trans hlook
  refine ⟨fun d => DLine.seal { dLine u d with state := 0, w := false, l := false }, fun _ => rfl, ?_⟩
  rw [invalidateMatchingD_eq hlook', setCh_eq (s := s) (by exact hcp0)]
  cases found <;> rfl

section SecondaryLine

variable {userForm : Bool} {base : RegNum} {offset : BitVec 16} {s u : State} {pa : PAddr} {attr : BitVec 3} {j : Nat}
  {x : SLine} {op : Dword → PAddr → BitVec 3 → State → Except Stop State} {cp0 : Cp0} {Q : State → Prop}

/-- An operation that puts one secondary line. -/
theorem endsExplicit_putS (hr : CacheReaches userForm base offset s pa attr)
    (hop : op (effAddr s base offset) pa attr s = .ok { putS j x s with cp0 := cp0 }) :
    EndsExplicit (withCacheOperand userForm base offset s op) s cp0
      (fun t => KeepsMem s t ∧ OnlyLineS j s t ∧ sLine t j = x) :=
  endsExplicit_of_op hr hop ((cacheSide_of_memSide (MemSide_refl s)).putS j x) rfl
    ⟨fun _ => rfl, onlyLineS_putS s j x, sLine_putS_same s j x⟩

/-- An operation that puts one secondary line and the data-cache line found, after `u` was reached with no other change of
the caches than tertiary lines: what `Q` says of what lies below stays true. -/
theorem endsExplicit_putSD (hr : CacheReaches userForm base offset s pa attr) {found : Option Nat} {y : Nat → DLine}
    (hop : op (effAddr s base offset) pa attr s = .ok { putS j x (putFound found y u) with cp0 := cp0 })
    (hu : MemSide s u) (hbelow : TertiaryOnly s u) (hQ : Q { putS j x (putFound found y u) with cp0 := cp0 })
    (hstable : Stable Q := by exact fun _ _ _ _ h => h) :
    EndsExplicit (withCacheOperand userForm base offset s op) s cp0 (fun t => Q t ∧ CachesBut found j s t ∧
      sLine t j = x ∧ ∀ d, found = some d → dLine t d = y d) := by
  have hside : CacheSide s (putS j x (putFound found y u)) :=
    (cacheSide_of_memSide (MemSide_trans hu (MemSide_putFound found y u))).putS j x
  have hd : ∀ d, found = some d → dLine (putS j x (putFound found y u)) d = y d := by
    rintro d rfl
    exact dLine_putD_same u d (y d)
  exact endsExplicit_of_op hr hop hside rfl ⟨hQ, cachesBut_put hbelow j x found y, sLine_putS_same _ j x, hd⟩
    fun t pc slot link ⟨hq, hrest⟩ => ⟨hstable t pc slot link hq, hrest⟩

end SecondaryLine

section Secondary

variable {base : RegNum} {offset : BitVec 16} {s : State} {pa : PAddr} {attr : BitVec 3} {j : Nat} {found : Option Nat}
  (he : s.params.explicitCaches = true) (hp : s.params.scPresent = true)
include he hp

/-- The explicit operation of a secondary code. -/
theorem secondary_explicit {transparent explicit : Except Stop State} :
    needS s (perLevel s transparent explicit) = explicit :=
  (needS_present hp).trans (perLevel_explicit he)

theorem explicit_indexStoreTagS (hr : CacheReaches false base offset s pa attr) (hj : indexS pa = j) :
    EndsExplicit (execCacheIndexStoreTagS base offset s) s s.cp0 (fun t => KeepsMem s t ∧ OnlyLineS j s t ∧
      (sLine t j).state = s.cp0.tagLo.extractLsb' 6 3 ∧ (sLine t j).data = (sLine s j).data) := by
  subst hj
  have h : EndsExplicit (execCacheIndexStoreTagS base offset s) s s.cp0 _ :=
    endsExplicit_putS hr (secondary_explicit he hp)
  refine h.imp fun t ⟨hmem, honly, hline⟩ => ⟨hmem, honly, ?_⟩
  rw [hline]
  exact ⟨rfl, rfl⟩

theorem explicit_indexWritebackInvalidateS_clean (hr : CacheReaches false base offset s pa attr) (hj : indexS pa = j)
    (hclean : dirtyS (sLine s j).state = false) :
    EndsExplicit (execCacheIndexWritebackInvalidateS base offset s) s s.cp0 (fun t => KeepsMem s t ∧ OnlyLineS j s t ∧
      (sLine t j).state = 0) := by
  obtain ⟨x, hstate, hput⟩ := modifyParityS_invalidateS (effAddr s base offset) j s
  have h : EndsExplicit (execCacheIndexWritebackInvalidateS base offset s) s s.cp0 _ :=
    endsExplicit_putS hr ((secondary_explicit he hp).trans
      (by simp only [hj, hclean, Bool.false_eq_true, if_false, hput]; rfl))
  exact h.imp fun t ⟨hmem, honly, hline⟩ => ⟨hmem, honly, by rw [hline, hstate]⟩

theorem explicit_indexWritebackInvalidateS_dirty (hr : CacheReaches false base offset s pa attr) (hj : indexS pa = j)
    (hdirty : dirtyS (sLine s j).state = true) (hram : regionKind s (sLineAddr (sLine s j) j) = .ram)
    (hw : Memory.wf s.mem = true)
    (ht : tertiaryOn s = true → ∃ q, lookupT s (sLineAddr (sLine s j) j) = .ok q) :
    EndsExplicit (execCacheIndexWritebackInvalidateS base offset s) s s.cp0 (fun t =>
      SentBelow (sLineAddr (sLine s j) j) (sLine s j).data s t ∧ CachesBut none j s t ∧ (sLine t j).state = 0) := by
  obtain ⟨u, hwrite, hside, hsent, hbelow⟩ := writeBelow_sends (sLine s j).data hram hw ht
  obtain ⟨x, hstate, hput⟩ := modifyParityS_invalidateS (effAddr s base offset) j u
  have hcp0 : putS j x u = { putS j x (putFound none (dLine u) u) with cp0 := s.cp0 } := by
    rw [← hside.cp0]; rfl
  have h : EndsExplicit (execCacheIndexWritebackInvalidateS base offset s) s s.cp0 _ :=
    endsExplicit_putSD hr ((secondary_explicit he hp).trans
      (by simp only [hj, hdirty, if_true, hwrite, hput, hcp0]; rfl)) hside hbelow (sentBelow_put hsent ..)
  exact h.imp fun t ⟨hsent, hcaches, hline, _⟩ => ⟨hsent, hcaches, by rw [hline, hstate]⟩

theorem explicit_hitInvalidateS_miss (hr : CacheReaches false base offset s pa attr) (hmiss : lookupS s pa = none) :
    EndsExplicit (execCacheHitInvalidateS base offset s) s (withCh false s.cp0)
      (fun t => KeepsMem s t ∧ t.caches = s.caches) :=
  endsExplicit_same hr ((secondary_explicit he hp).trans (by rw [hmiss]; rfl))

theorem explicit_hitInvalidateS_hit (hr : CacheReaches false base offset s pa attr) (hhit : lookupS s pa = some j)
    (hlook : lookupD s pa = .ok found) :
    EndsExplicit (execCacheHitInvalidateS base offset s) s (withCh true s.cp0) (fun t => NothingSent s t ∧
      CachesBut found j s t ∧ (sLine t j).state = 0 ∧ ∀ d, found = some d → (dLine t d).state = 0) := by
  obtain ⟨y, hy, hdrop⟩ := invalidateMatchingD_afterS (s := s) rfl hlook j
    (SLine.seal { sLine s j with state := 0, l := false })
  have h : EndsExplicit (execCacheHitInvalidateS base offset s) s (withCh true s.cp0) _ :=
    endsExplicit_putSD hr ((secondary_explicit he hp).trans (by rw [hhit]; exact hdrop)) (MemSide_refl s) rfl
      (nothingSent_put s ..)
  exact h.imp fun t ⟨hsent, hcaches, hline, hd⟩ =>
    ⟨hsent, hcaches, by rw [hline]; rfl, fun d hfound => by rw [hd d hfound, hy]⟩

theorem explicit_hitWritebackS_miss (hr : CacheReaches true base offset s pa attr) (hmiss : lookupS s pa = none) :
    EndsExplicit (execCacheHitWritebackS base offset s) s (withCh false s.cp0)
      (fun t => KeepsMem s t ∧ t.caches = s.caches) :=
  endsExplicit_same hr ((secondary_explicit he hp).trans (by rw [hmiss]; rfl))

theorem explicit_hitWritebackInvalidateS_miss (hr : CacheReaches true base offset s pa attr)
    (hmiss : lookupS s pa = none) :
    EndsExplicit (execCacheHitWritebackInvalidateS base offset s) s (withCh false s.cp0)
      (fun t => KeepsMem s t ∧ t.caches = s.caches) :=
  endsExplicit_same hr ((secondary_explicit he hp).trans (by rw [hmiss]; rfl))

/-- A line the processor does not own is not written back: only its parity can change. -/
theorem explicit_hitWritebackS_clean (hr : CacheReaches true base offset s pa attr) (hhit : lookupS s pa = some j)
    (hclean : dirtyS (sLine s j).state = false) :
    EndsExplicit (execCacheHitWritebackS base offset s) s (withCh true s.cp0) (fun t => KeepsMem s t ∧
      OnlyLineS j s t ∧ { sLine t j with par := (sLine s j).par } = sLine s j) := by
  rcases modifyParityS_cases (effAddr s base offset) j s with hput | ⟨par, hput⟩
  · have h : EndsExplicit (execCacheHitWritebackS base offset s) s (withCh true s.cp0) _ :=
      endsExplicit_of_op hr ((secondary_explicit he hp).trans
          (by simp only [hhit, hclean, Bool.false_eq_true, if_false, hput]))
        ((cacheSide_of_memSide (MemSide_refl s)).setCh true) rfl
        (P := fun t => KeepsMem s t ∧ OnlyLineS j s t ∧ { sLine t j with par := (sLine s j).par } = sLine s j)
        ⟨fun _ => rfl, ⟨fun _ _ => rfl, rfl⟩, rfl⟩
    exact h
  · have h : EndsExplicit (execCacheHitWritebackS base offset s) s (withCh true s.cp0) _ :=
      endsExplicit_putS hr ((secondary_explicit he hp).trans
        (by simp only [hhit, hclean, Bool.false_eq_true, if_false, hput]; rfl))
    exact h.imp fun t ⟨hmem, honly, hline⟩ => ⟨hmem, honly, by rw [hline]⟩

/-- An owned line goes below with the newest data, which it takes itself (log entry 26). -/
theorem explicit_hitWritebackS_dirty (hr : CacheReaches true base offset s pa attr) (hhit : lookupS s pa = some j)
    (hlook : lookupD s pa = .ok found) (hdirty : dirtyS (sLine s j).state = true)
    (hram : regionKind s (sLineAddr (sLine s j) j) = .ram) (hw : Memory.wf s.mem = true)
    (ht : tertiaryOn s = true → ∃ q, lookupT s (sLineAddr (sLine s j) j) = .ok q) :
    EndsExplicit (execCacheHitWritebackS base offset s) s (withCh true s.cp0) (fun t =>
      SentBelow (sLineAddr (sLine s j) j) (newestData s j found) s t ∧ CachesBut (modifiedLine s found) j s t ∧
      (sLine t j).state = 4 ∧ (sLine t j).data = newestData s j found ∧ (sLine t j).tag = (sLine s j).tag ∧
      ∀ d, modifiedLine s found = some d → dLine t d = { dLine s d with w := false }) := by
  obtain ⟨u, hwrite, hside, hsent, hbelow⟩ := writeBelow_sends (newestData s j found) hram hw ht
  have hnewest := newestS_eq hlook j
  obtain ⟨par, hput⟩ := modifyParityS_putS (effAddr s base offset) j
    (SLine.seal { sLine u j with state := 4, par := dwordParity (newestData s j found), data := newestData s j found })
    (putFound (modifiedLine s found) (fun d => { dLine u d with w := false }) u)
  have hop : EndsExplicit (execCacheHitWritebackS base offset s) s (withCh true s.cp0) _ :=
    endsExplicit_putSD hr ((secondary_explicit he hp).trans (by
      simp only [hhit, hdirty, if_true, hnewest, hwrite]
      rw [← setCh_eq (u := putS j _ (putFound (modifiedLine s found) _ u))
        (((MemSide_putFound _ _ u).cp0).trans hside.cp0), ← hput]
      cases modifiedLine s found <;> rfl)) hside hbelow (sentBelow_put hsent ..)
  refine hop.imp fun t ⟨hsent, hcaches, hline, hd⟩ => ⟨hsent, hcaches, ?_, ?_, ?_, fun d hfound => ?_⟩
  · rw [hline]; rfl
  · rw [hline]; rfl
  · rw [hline, hbelow.sLine j]; rfl
  · rw [hd d hfound, hbelow.dLine d]

/-- The line leaves both caches; what was modified of it goes below. -/
theorem explicit_hitWritebackInvalidateS_sent (hr : CacheReaches true base offset s pa attr)
    (hhit : lookupS s pa = some j) (hlook : lookupD s pa = .ok found)
    (hdirty : (dirtyS (sLine s j).state || (modifiedLine s found).isSome) = true)
    (hram : regionKind s (sLineAddr (sLine s j) j) = .ram) (hw : Memory.wf s.mem = true)
    (ht : tertiaryOn s = true → ∃ q, lookupT s (sLineAddr (sLine s j) j) = .ok q) :
    EndsExplicit (execCacheHitWritebackInvalidateS base offset s) s (withCh true s.cp0) (fun t =>
      SentBelow (sLineAddr (sLine s j) j) (newestData s j found) s t ∧ CachesBut found j s t ∧ (sLine t j).state = 0 ∧
      ∀ d, found = some d → (dLine t d).state = 0) := by
  obtain ⟨u, hwrite, hside, hsent, hbelow⟩ := writeBelow_sends (newestData s j found) hram hw ht
  have hnewest := newestS_eq hlook j
  obtain ⟨x, hstate, hput⟩ := modifyParityS_invalidateS (effAddr s base offset) j u
  obtain ⟨y, hy, hdrop⟩ := invalidateMatchingD_afterS hside.cp0 ((hbelow.lookupD pa).trans hlook) j x
  have h : EndsExplicit (execCacheHitWritebackInvalidateS base offset s) s (withCh true s.cp0) _ :=
    endsExplicit_putSD hr ((secondary_explicit he hp).trans
      (by simp only [hhit, hnewest, hdirty, if_true, hwrite, hput, hdrop]; rfl)) hside hbelow (sentBelow_put hsent ..)
  exact h.imp fun t ⟨hsent, hcaches, hline, hd⟩ =>
    ⟨hsent, hcaches, by rw [hline, hstate], fun d hfound => by rw [hd d hfound, hy]⟩

theorem explicit_hitWritebackInvalidateS_unsent (hr : CacheReaches true base offset s pa attr)
    (hhit : lookupS s pa = some j) (hlook : lookupD s pa = .ok found)
    (hclean : (dirtyS (sLine s j).state || (modifiedLine s found).isSome) = false) :
    EndsExplicit (execCacheHitWritebackInvalidateS base offset s) s (withCh true s.cp0) (fun t => NothingSent s t ∧
      CachesBut found j s t ∧ (sLine t j).state = 0 ∧ ∀ d, found = some d → (dLine t d).state = 0) := by
  have hnewest := newestS_eq hlook j
  obtain ⟨x, hstate, hput⟩ := modifyParityS_invalidateS (effAddr s base offset) j s
  obtain ⟨y, hy, hdrop⟩ := invalidateMatchingD_afterS (s := s) rfl hlook j x
  have h : EndsExplicit (execCacheHitWritebackInvalidateS base offset s) s (withCh true s.cp0) _ :=
    endsExplicit_putSD hr ((secondary_explicit he hp).trans
      (by simp only [hhit, hnewest, hclean, Bool.false_eq_true, if_false, hput, hdrop]; rfl)) (MemSide_refl s) rfl
      (nothingSent_put s ..)
  exact h.imp fun t ⟨hsent, hcaches, hline, hd⟩ =>
    ⟨hsent, hcaches, by rw [hline, hstate], fun d hfound => by rw [hd d hfound, hy]⟩

/-- With no line of the address in the data cache the secondary line alone changes. -/
theorem explicit_hitWritebackInvalidateS_alone (hr : CacheReaches true base offset s pa attr)
    (hhit : lookupS s pa = some j) (hlook : lookupD s pa = .ok none) (hclean : dirtyS (sLine s j).state = false) :
    EndsExplicit (execCacheHitWritebackInvalidateS base offset s) s (withCh true s.cp0) (fun t => KeepsMem s t ∧
      OnlyLineS j s t ∧ (sLine t j).state = 0) := by
  have hnewest : newestS j pa s = .ok (newestData s j none, none) := newestS_eq hlook j
  obtain ⟨x, hstate, hput⟩ := modifyParityS_invalidateS (effAddr s base offset) j s
  obtain ⟨y, -, hdrop⟩ := invalidateMatchingD_afterS (s := s) rfl hlook j x
  have h : EndsExplicit (execCacheHitWritebackInvalidateS base offset s) s (withCh true s.cp0) _ :=
    endsExplicit_putS hr ((secondary_explicit he hp).trans
      (by simp only [hhit, hnewest, hclean, Option.isSome_none, Bool.or_false, Bool.false_eq_true, if_false, hput, hdrop]
          rfl))
  exact h.imp fun t ⟨hmem, honly, hline⟩ => ⟨hmem, honly, by rw [hline, hstate]⟩

end Secondary

/-! ## Explicit caches: the tertiary lines -/

/-- The tags of the selected tertiary lines are written from `TagLo`, and nothing else changes. -/
structure TagsStored (p : Nat → Prop) (s t : State) : Prop where
  rest : { t with caches := { t.caches with tcache := s.caches.tcache } } = s
  stored : ∀ q, p q → (tLine t q).state = s.cp0.tagLo.extractLsb' 7 2
  other : ∀ q, ¬p q → tLine t q = tLine s q

theorem tLine_storeTagT (k q : Nat) (s : State) : tLine (storeTagT k s) q = if q = k then
    { tLine s k with tag := (Config.tagHiDecode 2 s.cp0.tagHi).extractLsb' 7 17
                     state := s.cp0.tagLo.extractLsb' 7 2 } else tLine s q :=
  tLine_putT s k q _

/-- Storing a sequence of tags; the index of an address depends on the platform only. -/
theorem tagsStored_foldl (address : Nat → PAddr) (is : List Nat) (s : State) :
    TagsStored (fun q => ∃ i ∈ is, tertiaryIndex s (address i) = q) s
      (is.foldl (fun s i => storeTagT (tertiaryIndex s (address i)) s) s) := by
  induction is generalizing s with
  | nil => exact ⟨rfl, fun q ⟨_, hi, _⟩ => absurd hi List.not_mem_nil, fun _ _ => rfl⟩
  | cons i is ih =>
    obtain ⟨hrest, hstored, hother⟩ := ih (storeTagT (tertiaryIndex s (address i)) s)
    rw [List.foldl_cons]
    generalize is.foldl _ (storeTagT (tertiaryIndex s (address i)) s) = t at hrest hstored hother
    refine ⟨congrArg (fun u : State => { u with caches := { u.caches with tcache := s.caches.tcache } }) hrest,
      fun q hq => ?_, fun q hq => ?_⟩
    · by_cases hlater : ∃ i ∈ is, tertiaryIndex s (address i) = q
      · exact hstored q hlater
      · obtain ⟨i', hi', rfl⟩ := hq
        rcases List.mem_cons.1 hi' with rfl | hi'
        · rw [hother _ hlater, tLine_storeTagT, if_pos rfl]
        · exact absurd ⟨i', hi', rfl⟩ hlater
    · have hlater : ¬∃ i ∈ is, tertiaryIndex s (address i) = q := fun ⟨i', hi', h⟩ => hq ⟨i', .tail _ hi', h⟩
      rw [hother q hlater, tLine_storeTagT, if_neg fun h => hq ⟨i, .head _, h.symm⟩]

theorem not_misaligned {va : Dword} (hpage : va.toNat % 4096 = 0) : ¬(va.extractLsb' 0 12 != 0) = true := by
  rw [(pageAligned_iff va).2 hpage]; decide

section Tertiary

variable {base : RegNum} {offset : BitVec 16} {s : State} {pa : PAddr} {attr : BitVec 3}
  (he : s.params.explicitCaches = true) (hp : s.params.tcPresent = true)
  (hr : CacheReaches false base offset s pa attr)
include he hp hr

theorem explicit_flashInvalidateT :
    EndsExplicit (execCacheFlashInvalidateT base offset s) s s.cp0 (fun t => KeepsMem s t ∧
      (∀ i, (tLine t i).state = 0) ∧ { t.caches with
        tcache := s.caches.tcache, tcEpoch := s.caches.tcEpoch, tcInvalid := s.caches.tcInvalid } = s.caches) := by
  refine endsExplicit_of_op hr ((needT_present hp).trans (perLevel_explicit he))
    (cacheSide_of_memSide (MemSide_setCaches s _ fun hwf => ?_)) rfl ⟨fun _ => rfl, fun _ => rfl, rfl⟩
  simp only [Caches.wf, Bool.and_eq_true] at hwf ⊢
  exact ⟨hwf.1, rfl⟩

theorem explicit_indexStoreTagT :
    EndsExplicit (execCacheIndexStoreTagT base offset s) s s.cp0 (fun t => KeepsMem s t ∧
      OnlyLineT (tertiaryIndex s pa) s t ∧ (tLine t (tertiaryIndex s pa)).state = s.cp0.tagLo.extractLsb' 7 2 ∧
      (tLine t (tertiaryIndex s pa)).data = (tLine s (tertiaryIndex s pa)).data) := by
  refine endsExplicit_of_op hr ((needT_present hp).trans (perLevel_explicit he))
    (cacheSide_of_memSide (MemSide_putT s _ _)) rfl ⟨fun _ => rfl, onlyLineT_putT s _ _, ?_⟩
  rw [storeTagT, tLine_putT_same]
  exact ⟨rfl, rfl⟩

theorem explicit_pageInvalidateT (hpage : (effAddr s base offset).toNat % 4096 = 0) :
    EndsExplicit (execCachePageInvalidateT base offset s) s s.cp0 (fun t => KeepsMem s t ∧
      (∀ i, i < 128 → (tLine t (tertiaryIndex s (pa + BitVec.ofNat 36 (32 * i)))).state =
        s.cp0.tagLo.extractLsb' 7 2) ∧
      (∀ q, (∀ i, i < 128 → tertiaryIndex s (pa + BitVec.ofNat 36 (32 * i)) ≠ q) → tLine t q = tLine s q) ∧
      { t.caches with tcache := s.caches.tcache } = s.caches) := by
  have htags := tagsStored_foldl (fun i => pa + BitVec.ofNat 36 (32 * i)) (List.range 128) s
  have hside := MemSide_foldl (fun s i => storeTagT (tertiaryIndex s (pa + BitVec.ofNat 36 (32 * i))) s)
    (fun t _ => MemSide_putT t _ _) (List.range 128) s
  obtain ⟨u, hu⟩ : ∃ u, (List.range 128).foldl
    (fun s i => storeTagT (tertiaryIndex s (pa + BitVec.ofNat 36 (32 * i))) s) s = u := ⟨_, rfl⟩
  rw [hu] at htags hside
  obtain ⟨hrest, hstored, hother⟩ := htags
  have hmem : u.mem = s.mem := by rw [← hrest]
  refine endsExplicit_of_op hr
    ((needT_present hp).trans ((if_neg (not_misaligned hpage)).trans ((perLevel_explicit he).trans (congrArg Except.ok hu))))
    (cacheSide_of_memSide hside) hside.cp0 ⟨fun a => by rw [hmem], fun i hi => hstored _ ⟨i, List.mem_range.2 hi, rfl⟩,
      fun q hq => hother q fun ⟨i, hi, h⟩ => hq i (List.mem_range.1 hi) h, congrArg State.caches hrest⟩

end Tertiary

/-! ## The operations settled -/

/-- Settles O52: each operation is a lemma of its own, at the transparent level by the bytes it may bring back, at the
explicit level by the lines it puts and what it sends below. -/
theorem cacheOperations : Obligations.CacheOperations := by
  intro s base offset pa attr va line
  refine ⟨fun ht => ?_, fun he => ?_⟩
  · -- Transparent caches: first the operations `Status.CO` opens, then the others.
    intro nothing tags hits discards
    refine ⟨fun hr => ?_, fun hr => ?_⟩
    · refine ⟨?_, ?_, ?_, fun hsc => ⟨?_, ?_⟩⟩
      · show Ends (execCacheHitWritebackI base offset s) _
        exact transparent_nothing hr (perLevel_transparent ht) ⟨_, rfl⟩
      · show Ends (execCacheHitWritebackD base offset s) _
        exact transparent_nothing hr (perLevel_transparent ht) (transparentHitD_eq pa s)
      · show Ends (execCacheHitWritebackInvalidateD base offset s) _
        exact transparent_nothing hr (perLevel_transparent ht) (transparentHitD_eq pa s)
      · show Ends (execCacheHitWritebackS base offset s) _
        exact transparent_writebackS hr ((needS_present hsc).trans (perLevel_transparent ht))
          (transparentWritebackS_eq pa s)
      · show Ends (execCacheHitWritebackInvalidateS base offset s) _
        exact transparent_writebackS hr ((needS_present hsc).trans (perLevel_transparent ht))
          (transparentWritebackInvalidateS_eq pa s)
    · refine ⟨?_, ?_, ?_, ?_, fun hregion => ?_, ?_, ?_, ?_, ?_, ?_, fun hsc => ⟨?_, ?_, ?_, ?_⟩,
        fun htc => ⟨?_, ?_, ?_, fun hpage => ?_⟩⟩
      · show Ends (execCacheIndexInvalidateI base offset s) _
        exact transparent_nothing hr (perLevel_transparent ht) ⟨_, rfl⟩
      · show Ends (execCacheIndexWritebackInvalidateD base offset s) _
        exact transparent_nothing hr (perLevel_transparent ht) ⟨_, rfl⟩
      · show Ends (execCacheIndexStoreTagI base offset s) _
        exact transparent_nothing hr (perLevel_transparent ht) ⟨_, rfl⟩
      · show Ends (execCacheHitInvalidateI base offset s) _
        exact transparent_nothing hr (perLevel_transparent ht) ⟨_, rfl⟩
      · show Ends (execCacheFillI base offset s) _
        exact transparent_nothing hr
          ((perLevel_transparent ht).trans (by rw [readable_of_region false hregion])) ⟨_, rfl⟩
      · show Ends (execCacheIndexLoadTagI base offset s) _
        exact transparent_tags hr (perLevel_transparent ht)
      · show Ends (execCacheIndexLoadTagD base offset s) _
        exact transparent_tags hr (perLevel_transparent ht)
      · show Ends (execCacheIndexStoreTagD base offset s) _
        exact transparent_discard hr (perLevel_transparent ht) fun a ha => (eq_of_beq ha).trans (primaryField_eq va)
      · show Ends (execCacheHitInvalidateD base offset s) _
        exact transparent_discard hr (perLevel_transparent ht) fun a ha => congrArg (· * 32) (eq_of_beq ha)
      · show Ends (execCacheCreateDirtyExclusiveD base offset s) _
        exact transparent_create hr (perLevel_transparent ht)
      · show Ends (execCacheIndexWritebackInvalidateS base offset s) _
        exact transparent_nothing hr ((needS_present hsc).trans (perLevel_transparent ht)) ⟨_, rfl⟩
      · show Ends (execCacheIndexLoadTagS base offset s) _
        exact transparent_tags hr ((needS_present hsc).trans (perLevel_transparent ht))
      · show Ends (execCacheIndexStoreTagS base offset s) _
        exact transparent_discard hr ((needS_present hsc).trans (perLevel_transparent ht)) fun a ha =>
          (eq_of_beq ha).trans (secondaryIndex_eq pa)
      · show Ends (execCacheHitInvalidateS base offset s) _
        exact transparent_invalidateS hr ((needS_present hsc).trans (perLevel_transparent ht))
      · show Ends (execCacheFlashInvalidateT base offset s) _
        exact transparent_discard hr ((needT_present htc).trans (perLevel_transparent ht)) fun _ _ => trivial
      · show Ends (execCacheIndexLoadTagT base offset s) _
        exact transparent_tags hr ((needT_present htc).trans (perLevel_transparent ht))
      · show Ends (execCacheIndexStoreTagT base offset s) _
        exact transparent_discard hr ((needT_present htc).trans (perLevel_transparent ht)) fun a ha => eq_of_beq ha
      · show Ends (execCachePageInvalidateT base offset s) _
        exact transparent_discard hr ((needT_present htc).trans
          ((if_neg (not_misaligned hpage)).trans (perLevel_transparent ht))) fun a ha => eq_of_beq ha
  · -- Explicit caches, in the same order.
    intro does k same ch toMemory writable
    have hk : indexP va = k := indexP_eq va
    have hj : indexS pa = pa.toNat / 2 ^ 16 % 4 * 2048 + pa.toNat / 32 % 2048 := indexS_eq pa
    refine ⟨fun hr => ?_, fun hr => ?_⟩
    · refine ⟨fun hmiss => ⟨?_, ?_⟩, fun d hhit => ⟨fun hw => ?_, fun hw hmem => ?_⟩, fun hmiss => ?_, fun d hhit => ?_,
        fun hsc hmiss => ⟨?_, ?_⟩, fun hsc j found hhit hlook => ⟨fun hclean => ?_, ?_, ?_, ?_⟩,
        fun hsc j hhit hstate hlook => ⟨?_, ?_⟩⟩
      · exact explicit_hitWritebackD_miss he hr hmiss
      · exact explicit_hitWritebackInvalidateD_miss he hr hmiss
      · have hwb := Bool.eq_false_iff.1 hw
        exact ⟨explicit_hitWritebackD_hit (Q := KeepsMem s) he hr hhit (if_neg hwb) (MemSide_refl s) rfl fun _ => rfl,
          explicit_hitWritebackInvalidateD_hit (Q := KeepsMem s) he hr hhit (if_neg hwb) (MemSide_refl s) rfl
            fun _ => rfl⟩
      · obtain ⟨u, hwrite, hside, hcaches, hline⟩ := writebackD_bypass hmem
        exact ⟨explicit_hitWritebackD_hit (Q := fun t => LineWritten s t _ _) he hr hhit ((if_pos hw).trans hwrite) hside
            hcaches hline,
          explicit_hitWritebackInvalidateD_hit (Q := fun t => LineWritten s t _ _) he hr hhit ((if_pos hw).trans hwrite)
            hside hcaches hline⟩
      · exact explicit_hitWritebackI_miss he hr hmiss
      · exact explicit_hitWritebackI_hit he hr hhit
      · exact explicit_hitWritebackS_miss he hsc hr hmiss
      · exact explicit_hitWritebackInvalidateS_miss he hsc hr hmiss
      · refine (explicit_hitWritebackS_clean he hsc hr hhit (not_dirtyS hclean)).imp fun t ⟨hmem, honly, hline⟩ => ?_
        obtain ⟨hcaches, hbelow⟩ := cachesBut_of_onlyLineS honly
        exact ⟨⟨hmem, hbelow⟩, hcaches, hline⟩
      · rintro howned ⟨hram, hw, ht⟩
        exact explicit_hitWritebackS_dirty he hsc hr hhit hlook ((dirtyS_iff _).2 howned) hram hw ht
      · rintro hmodified ⟨hram, hw, ht⟩
        refine explicit_hitWritebackInvalidateS_sent he hsc hr hhit hlook ?_ hram hw ht
        rwa [Bool.or_eq_true, dirtyS_iff, Option.isSome_iff_ne_none]
      · intro hclean hmodified
        refine explicit_hitWritebackInvalidateS_unsent he hsc hr hhit hlook ?_
        rw [not_dirtyS hclean, hmodified]; rfl
      · refine (explicit_hitWritebackS_clean he hsc hr hhit (by rw [hstate]; rfl)).imp fun t ⟨hmem, honly, hline⟩ => ?_
        obtain ⟨hkeeps, hdata⟩ := fields_of_sameButPar hline
        exact ⟨hmem, honly, hkeeps.trans hstate, hdata⟩
      · exact explicit_hitWritebackInvalidateS_alone he hsc hr hhit hlook (by rw [hstate]; rfl)
    · refine ⟨?_, ?_, ?_, ?_, ?_, fun hw hstate => ?_, fun hw hstate hmem => ?_, fun hmiss => ?_, fun d hhit => ?_,
        fun hmiss hattr hregion => ?_, fun hmiss => ⟨?_, fun hclean => ?_⟩, fun d hhit => ⟨?_, ?_⟩,
        fun hsc => ⟨?_, ?_, fun h5 h7 => ?_, ?_, fun hmiss => ?_, fun i found hhit hlook => ?_⟩,
        fun htc => ⟨?_, ?_, ?_, fun hpage => ?_⟩⟩
      · exact explicit_indexInvalidateI he hr hk
      · exact explicit_indexStoreTagI he hr hk
      · exact explicit_indexStoreTagD he hr hk
      · exact explicit_indexLoadTagI he hr hk
      · exact explicit_indexLoadTagD he hr hk
      · refine explicit_indexWritebackInvalidateD (Q := KeepsMem s) he hr hk hstate (if_neg ?_) (MemSide_refl s) rfl
          fun _ => rfl
        rw [hw, Bool.and_false]; decide
      · obtain ⟨u, hwrite, hside, hcaches, hline⟩ := writebackD_bypass hmem
        refine explicit_indexWritebackInvalidateD (Q := fun t => LineWritten s t _ _) he hr hk ?_
          ((if_pos ?_).trans hwrite) hside hcaches hline
        · rw [hstate]; decide
        · rw [hstate, hw]; decide
      · exact explicit_hitInvalidateI_miss he hr hmiss
      · exact explicit_hitInvalidateI_hit he hr hhit
      · exact explicit_fillI he hr hmiss hattr hregion
      · exact explicit_hitInvalidateD_miss he hr hmiss
      · exact explicit_createDirtyExclusiveD_miss he hr hmiss hclean
      · exact explicit_hitInvalidateD_hit he hr hhit
      · exact explicit_createDirtyExclusiveD_hit he hr hhit
      · exact explicit_indexStoreTagS he hsc hr hj
      · exact explicit_indexLoadTagS he hr hsc hj
      · exact explicit_indexWritebackInvalidateS_clean he hsc hr hj (not_dirtyS fun h => h.elim h5 h7)
      · rintro howned ⟨hram, hw, ht⟩
        exact explicit_indexWritebackInvalidateS_dirty he hsc hr hj ((dirtyS_iff _).2 howned) hram hw ht
      · exact explicit_hitInvalidateS_miss he hsc hr hmiss
      · exact explicit_hitInvalidateS_hit he hsc hr hhit hlook
      · exact explicit_flashInvalidateT he htc hr
      · exact explicit_indexStoreTagT he htc hr
      · exact explicit_indexLoadTagT he hr htc
      · exact explicit_pageInvalidateT he htc hr hpage

end Sys2Proof.Proofs

/-! # Loads and stores

A load or a store is a translation, a Watch check and an access to memory or the data cache, in this order. What the access
answers is said once: for a read by `Reads` (`reads_direct`, `reads_hit`, `reads_miss`), for a write by
`memWrite_direct` and the clauses of `storesThrough_of_memWrite`. An instruction then differs from another in its address,
its count and in what it does with the value, which are numbers (`extendFrom_eq`, `mergeLeft_eq`, `mergeRight_eq`). The
traps depend on the address and the count only, so `LoadsVia` and `StoresVia` say what all forms have in common. -/

namespace Sys2Proof.Proofs

open Sys2Proof.Machine Sys2Proof.Safety Sys2Proof.Laws

/-! ## Bytes in a byte order as numbers -/

/-- Where byte `i` of `n` bytes in address order stands in the number they make, counted from its least significant one
(20_memory.md rule R252). -/
def byteRank (big : Bool) (n i : Nat) : Nat := if big then n - 1 - i else i

/-- Bytes that are those of a number make that number. -/
theorem numberAt_of_bytes (big : Bool) (m : List Host.Cell) (a n v : Nat)
    (h : ∀ i, i < n → (Memory.read m (a + i)).toNat = v / 256 ^ byteRank big n i % 256) :
    numberAt big m a n = v % 256 ^ n := by
  induction n generalizing v with
  | zero => rw [numberAt, pow_zero, Nat.mod_one]
  | succ n ih =>
    have hlast := h n (Nat.lt_succ_self n)
    cases big with
    | true =>
      have hinit : numberAt true m a n = v / 256 % 256 ^ n := ih _ fun i hi => by
        rw [h i (by omega), Nat.div_div_eq_div_mul, ← pow_succ']
        simp only [byteRank, if_true, show n + 1 - 1 - i = n - 1 - i + 1 by omega]
      rw [numberAt, if_pos rfl, hinit, hlast, byteRank, if_pos rfl, Nat.add_sub_cancel, Nat.sub_self, pow_zero, Nat.div_one,
        pow_succ', Nat.mod_mul, Nat.mul_comm, Nat.add_comm]
    | false =>
      have hinit : numberAt false m a n = v % 256 ^ n := ih _ fun i hi => h i (by omega)
      rw [numberAt, if_neg Bool.false_ne_true, hinit, hlast, byteRank, if_neg Bool.false_ne_true, pow_succ, Nat.mod_mul,
        Nat.mul_comm, Nat.add_comm]

/-- The bytes of a value in the opposite order. -/
theorem reverseBytes_byte (n i : Nat) (hn : n ≤ 8) (hi : i < n) (v : Dword) :
    (reverseBytes n v).toNat / 256 ^ i % 256 = v.toNat / 256 ^ (n - 1 - i) % 256 := by
  induction n generalizing v with
  | zero => omega
  | succ n ih =>
    have hlt := reverseBytes_lt n (by omega) (v >>> 8)
    rw [reverseBytes_toNat_succ n (by omega), Nat.add_sub_cancel]
    rcases Nat.lt_succ_iff_lt_or_eq.1 hi with hi | rfl
    · have hpow : 256 ^ n = 256 ^ i * (256 * 256 ^ (n - 1 - i)) := by
        rw [← pow_succ', ← pow_add, show i + (n - 1 - i + 1) = n by omega]
      rw [hpow, show v.toNat % 256 * (256 ^ i * (256 * 256 ^ (n - 1 - i))) =
          256 ^ i * (256 * (v.toNat % 256 * 256 ^ (n - 1 - i))) by ring,
        Nat.mul_add_div (by positivity), Nat.mul_add_mod, ih (by omega) hi, BitVec.toNat_ushiftRight,
        Nat.shiftRight_eq_div_pow, Nat.div_div_eq_div_mul, ← pow_succ', show n - 1 - i + 1 = n - i by omega]
    · rw [Nat.mul_comm, Nat.mul_add_div (by positivity), Nat.div_eq_of_lt hlt, Nat.sub_self, pow_zero, Nat.div_one,
        Nat.add_zero, Nat.mod_mod]

/-- The bytes of a value in the processor's byte order. -/
theorem orderBytes_byte (big : Bool) (n i : Nat) (hn : n ≤ 8) (hi : i < n) (v : Dword) :
    (orderBytes big n v).toNat / 256 ^ i % 256 = v.toNat / 256 ^ byteRank big n i % 256 := by
  cases big with
  | true => exact reverseBytes_byte n i hn hi v
  | false => rfl

theorem two_pow_eight_mul (n : Nat) : 2 ^ (8 * n) = 256 ^ n := by rw [pow_mul]; rfl

theorem extractByte_toNat (v : Dword) (i : Nat) : (v.extractLsb' (8 * i) 8).toNat = v.toNat / 256 ^ i % 256 := by
  rw [BitVec.extractLsb'_toNat, Nat.shiftRight_eq_div_pow, two_pow_eight_mul]

/-- A value stored in the processor's byte order is the number the bytes make (20_memory.md rule R252). -/
theorem numberAt_writeBytes (big : Bool) (m : List Host.Cell) (a n : Nat) (hn : n ≤ 8) (v : Dword)
    (hw : Memory.wf m = true) :
    numberAt big (Memory.writeBytes m a n (orderBytes big n v)) a n = v.toNat % 256 ^ n := by
  refine numberAt_of_bytes big _ a n _ fun i hi => ?_
  rw [Memory_read_writeBytes_same n m a i _ hi hw, ← orderBytes_byte big n i hn hi v, BitVec.truncate_eq_setWidth,
    BitVec.toNat_setWidth, BitVec.toNat_ushiftRight, Nat.shiftRight_eq_div_pow, two_pow_eight_mul]

/-- The same of a value stored into a line. -/
theorem lineNumber_lineWrite (big : Bool) (x : BitVec 256) (off n : Nat) (hn : n ≤ 8) (h : off + n ≤ 32) (v : Dword) :
    lineNumber big (lineWrite x off n (orderBytes big n v)) off n = v.toNat % 256 ^ n := by
  rw [lineNumber_eq big _ off n h]
  refine numberAt_of_bytes big _ off n _ fun i hi => ?_
  rw [read_lineMemory _ _ (by omega), lineWrite_byte x off n (off + i) _ hn h (by omega), if_pos (by omega),
    Nat.add_sub_cancel_left, extractByte_toNat, orderBytes_byte big n i hn hi v]

theorem lineNumber_lt (big : Bool) (x : BitVec 256) (off n : Nat) (h : off + n ≤ 32) : lineNumber big x off n < 256 ^ n := by
  rw [lineNumber_eq big x off n h]
  exact numberAt_lt big _ off n

/-! ## What a load does with the value read -/

/-- Sign extension of the low `n` bits. -/
theorem extendFrom_eq (n : Nat) (v : Dword) :
    Machine.extendFrom n v = BitVec.ofInt 64 ((v.toNat : Int).bmod (2 ^ n)) := by
  rw [Machine.extendFrom, BitVec.signExtend, BitVec.truncate_eq_setWidth, BitVec.toInt_setWidth]

theorem eq_ofNat_of_toNat {v : Dword} {x : Nat} (h : v.toNat = x) : v = BitVec.ofNat 64 x := by
  rw [← h, BitVec.ofNat_toNat, BitVec.setWidth_eq]

/-- A merged word depends on the low 32 bits of the number. -/
theorem wordMerge_ofNat (x : Nat) : wordMerge (BitVec.ofNat 64 x) = word (x : Int) := by
  have hlow : low32 (BitVec.ofNat 64 x) = BitVec.ofNat 32 x := BitVec.setWidth_ofNat_of_le (by decide) x
  rw [wordMerge, hlow, sext32_eq_word, word, word, BitVec.toNat_ofNat, Int.natCast_mod, Int.emod_bmod]

/-- The bits of a "left" or "right" load that come from the register. -/
theorem getLsbD_lowMask {k : Nat} (hk : k ≤ 8) (i : Nat) : (lowMask k).getLsbD i = decide (i < 8 * k) := by
  have hpow : 2 ^ (8 * k) ≤ 2 ^ 64 := Nat.pow_le_pow_right (by decide) (by omega)
  have hpos : 0 < 2 ^ (8 * k) := by positivity
  rw [BitVec.getLsbD, lowMask, BitVec.toNat_ofNat, Nat.mod_eq_of_lt (by omega), Nat.testBit_two_pow_sub_one]

/-- A "left" load keeps the low bytes of the register (43_load_store.md rules R430, R434). -/
theorem mergeLeft_eq {k : Nat} (hk : k ≤ 8) (x r : Dword) :
    mergeLeft k x r = BitVec.ofNat 64 (x.toNat * 256 ^ k + r.toNat % 256 ^ k) := by
  have hlow : (r &&& lowMask k).toNat = r.toNat % 256 ^ k := by
    refine Nat.eq_of_testBit_eq fun i => ?_
    rw [← two_pow_eight_mul, Nat.testBit_mod_two_pow]
    exact (BitVec.getLsbD_and ..).trans (by rw [getLsbD_lowMask hk, Bool.and_comm]; rfl)
  have hdisjoint : x <<< (8 * k) &&& (r &&& lowMask k) = 0#64 := by
    refine BitVec.eq_of_getLsbD_eq fun i _ => ?_
    rw [BitVec.getLsbD_and, BitVec.getLsbD_and, getLsbD_lowMask hk, BitVec.getLsbD_shiftLeft, BitVec.getLsbD_zero]
    by_cases h : i < 8 * k <;> simp [h]
  apply BitVec.eq_of_toNat_eq
  rw [mergeLeft, ← BitVec.add_eq_or_of_and_eq_zero _ _ hdisjoint, BitVec.toNat_add, hlow, BitVec.toNat_shiftLeft,
    Nat.shiftLeft_eq, two_pow_eight_mul, BitVec.toNat_ofNat, Nat.mod_add_mod]

/-- A "right" load keeps the high bytes of the register (rules R431, R435). -/
theorem mergeRight_eq {n sh k : Nat} (hk : k ≤ 8) (hsh : n - sh = k) (x r : Dword) (hx : x.toNat < 256 ^ k) :
    mergeRight n sh x r = BitVec.ofNat 64 (x.toNat + r.toNat / 256 ^ k * 256 ^ k) := by
  have hhigh : r &&& ~~~lowMask k = r >>> (8 * k) <<< (8 * k) := by
    refine BitVec.eq_of_getLsbD_eq fun i hi => ?_
    rw [BitVec.getLsbD_and, BitVec.getLsbD_not, getLsbD_lowMask hk, BitVec.getLsbD_shiftLeft, BitVec.getLsbD_ushiftRight]
    by_cases h : i < 8 * k
    · simp [h]
    · simp [h, hi, Nat.add_sub_cancel' (Nat.le_of_not_lt h)]
  have hdisjoint : x &&& r >>> (8 * k) <<< (8 * k) = 0#64 := by
    refine BitVec.eq_of_getLsbD_eq fun i _ => ?_
    rw [BitVec.getLsbD_and, BitVec.getLsbD_shiftLeft, BitVec.getLsbD_zero]
    by_cases h : i < 8 * k
    · simp [h]
    · rw [BitVec.getLsbD, Nat.testBit_lt_two_pow (hx.trans_le ?_), Bool.false_and]
      rw [← two_pow_eight_mul]
      exact Nat.pow_le_pow_right (by decide) (by omega)
  apply BitVec.eq_of_toNat_eq
  rw [mergeRight, hsh, hhigh, ← BitVec.add_eq_or_of_and_eq_zero _ _ hdisjoint, BitVec.toNat_add, BitVec.toNat_shiftLeft,
    Nat.shiftLeft_eq, BitVec.toNat_ushiftRight, Nat.shiftRight_eq_div_pow, two_pow_eight_mul, BitVec.toNat_ofNat,
    Nat.add_mod_mod]

/-! ## The data cache -/

/-- The state after a miss has filled a line of the data cache from memory over an unmodified one (20_memory.md rules R263,
R268). -/
def dataFilled (pa : PAddr) (attr : BitVec 3) (load : Bool) (s : State) : State :=
  let slot := slotD pa (load && s.cp0.ecc.d) s
  putD slot.line (newD pa attr false slot (Memory.readLine s.mem (lineAddr pa))) (s.drew 2)

/-- The line a miss fills. -/
def filledSlot (pa : PAddr) (load : Bool) (s : State) : Nat := (slotD pa (load && s.cp0.ecc.d) s).line

theorem fillD_missesCleanly {s : State} {pa : PAddr} {attr : BitVec 3} (load : Bool) (h : MissesCleanly s pa attr) :
    fillD pa attr load s = .ok (filledSlot pa load s, dataFilled pa attr load s) := fillD_clean pa attr load s h

section Filled

variable (s : State) (pa : PAddr) (attr : BitVec 3) (load : Bool)

theorem dLine_dataFilled : dLine (dataFilled pa attr load s) (filledSlot pa load s) =
    newD pa attr false (slotD pa (load && s.cp0.ecc.d) s) (Memory.readLine s.mem (lineAddr pa)) := dLine_putD_same _ _ _

theorem dataFilled_side : MemSide s (dataFilled pa attr load s) := MemSide_trans (MemSide_drew s 2) (MemSide_putD _ _ _)

theorem holdsLineD_dataFilled : HoldsLineD pa false s (dataFilled pa attr load s) (filledSlot pa load s) := by
  have honly : OnlyLineD (filledSlot pa load s) s (dataFilled pa attr load s) := onlyLineD_putD (s.drew 2) _ _
  refine ⟨slotD_ways pa _ s, honly, ?_⟩
  rw [dLine_dataFilled]
  exact ⟨rfl, rfl, rfl⟩

theorem dataFilled_byte {j : Nat} (hj : j < 32) :
    lineByte (dLine (dataFilled pa attr load s) (filledSlot pa load s)).data j =
      Memory.read s.mem (pa.toNat / 32 * 32 + j) := by
  rw [dLine_dataFilled]
  exact readLine_byte s.mem (lineAddr pa) j hj

theorem lineFilled_dataFilled : LineFilled pa s (dataFilled pa attr load s) :=
  ⟨_, holdsLineD_dataFilled s pa attr load, fun _ hj => dataFilled_byte s pa attr load hj⟩

end Filled

/-- The line an address falls into decides what is filled. -/
theorem lineFilled_sameLine {a b : PAddr} (h : a.toNat / 32 = b.toNat / 32) {s t : State} (hf : LineFilled a s t) :
    LineFilled b s t := by
  obtain ⟨k, ⟨hway, honly, htag, hstate, hw⟩, hbytes⟩ := hf
  rw [primaryWays, primaryIndex, sameLine_field a b h 5 7 (by decide)] at hway
  rw [sameLine_field a b h 12 24 (by decide)] at htag
  rw [h] at hbytes
  exact ⟨k, ⟨hway, honly, htag, hstate, hw⟩, hbytes⟩

/-- A store into a line puts the bytes of the value there and leaves the others (20_memory.md rules R252, R268). -/
theorem lineStored_storeLine (s : State) (k : Nat) {pa : PAddr} {n : Nat} (hn : n ≤ 8) (hoff : pa.toNat % 32 + n ≤ 32)
    (d : Dword) (dirty : Bool) :
    LineStored s (storeLine k pa n (orderBytes (bigEndianCpu s) n d) dirty s) k pa n d.toNat dirty := by
  refine ⟨onlyLineD_putD s k _, ?_, fun j hj hout => ?_, ?_⟩ <;> rw [storeLine, dLine_putD_same]
  · exact lineNumber_lineWrite (bigEndianCpu s) (dLine s k).data (pa.toNat % 32) n hn hoff d
  · exact (lineWrite_byte (dLine s k).data (pa.toNat % 32) n j _ hn hoff hj).trans (if_neg hout)
  · exact ⟨rfl, rfl, rfl⟩

theorem OnlyLineD.trans {k : Nat} {s t u : State} (h : OnlyLineD k s t) (h' : OnlyLineD k t u) : OnlyLineD k s u :=
  ⟨fun j hj => (h'.1 j hj).trans (h.1 j hj), by rw [← h.2, ← h'.2]⟩

/-! ## Reads -/

/-- A read of `n` bytes at `pa` answers a value whose number is `x`, and leaves the state `u`. -/
def Reads (n : Nat) (pa : PAddr) (attr : BitVec 3) (s : State) (x : Nat) (u : State) : Prop :=
  ∃ v, loadAt n pa attr s = .ok (v, u) ∧ v.toNat = x ∧ x < 256 ^ n

section Reads

variable {s : State} {pa : PAddr} {attr : BitVec 3} {n : Nat}

theorem watchData_unwatched {kind : AccessKind} (hw : watchMatch s kind pa n = (false, false)) :
    watchData kind pa n s = .ok () := by
  rw [watchData, hw]; rfl

theorem watchData_watched {kind : AccessKind} {w1 w2 : Bool} (hw : watchMatch s kind pa n = (w1, w2))
    (h : (w1 || w2) = true) : watchData kind pa n s = .error (.exc (.dwe w1 w2) s) := by
  rw [watchData, hw]; exact if_pos h

theorem loadAt_unwatched (hw : watchMatch s .load pa n = (false, false)) {raw : Dword} {u : State}
    (h : memRead pa n attr s = .ok (raw, u)) : loadAt n pa attr s = .ok (orderBytes (bigEndianCpu s) n raw, u) := by
  rw [loadAt, watchData_unwatched hw]
  simp only [h]

theorem reads_direct (hd : Direct s attr) (hr : regionKind s pa = .ram ∨ regionKind s pa = .rom)
    (hw : watchMatch s .load pa n = (false, false)) (hn : n ≤ 8) :
    Reads n pa attr s (numberAt (bigEndianCpu s) s.mem pa.toNat n) s := by
  have hread : memRead pa n attr s = .ok (Memory.readBytes s.mem pa.toNat n, s) := by
    simp [memRead, throughCache_of_direct hd, readable_memory false hr]
  exact ⟨_, loadAt_unwatched hw hread, orderBytes_readBytes _ _ _ n hn, numberAt_lt _ _ _ n⟩

theorem reads_hit (ht : ThroughCaches s attr) {k : Nat} (hk : lookupD s pa = .ok (some k))
    (hw : watchMatch s .load pa n = (false, false)) (hn : n ≤ 8) (hoff : pa.toNat % 32 + n ≤ 32) :
    Reads n pa attr s (lineNumber (bigEndianCpu s) (dLine s k).data (pa.toNat % 32) n) s := by
  have hread : memRead pa n attr s = .ok (lineRead (dLine s k).data (lineOffset pa) n, s) := by
    simp [memRead, throughCache_of_throughCaches ht, cachedRead, hk]
  exact ⟨_, loadAt_unwatched hw hread, orderBytes_lineRead _ _ _ n hn hoff, lineNumber_lt _ _ _ n hoff⟩

theorem reads_miss (ht : ThroughCaches s attr) (hm : MissesCleanly s pa attr)
    (hw : watchMatch s .load pa n = (false, false)) (hn : n ≤ 8) (hoff : pa.toNat % 32 + n ≤ 32) :
    Reads n pa attr s (numberAt (bigEndianCpu s) s.mem pa.toNat n) (dataFilled pa attr true s) := by
  have hread : memRead pa n attr s =
      .ok (lineRead (Memory.readLine s.mem (lineAddr pa)) (lineOffset pa) n, dataFilled pa attr true s) := by
    simp only [memRead, throughCache_of_throughCaches ht, cachedRead, hm.1, fillD_missesCleanly true hm, dLine_dataFilled,
      if_true]
    rfl
  have hnumber : lineNumber (bigEndianCpu s) (Memory.readLine s.mem (lineAddr pa)) (lineOffset pa) n =
      numberAt (bigEndianCpu s) s.mem pa.toNat n :=
    (lineNumber_readLine _ _ _ _ n hoff).trans (by rw [lineAddr, Nat.div_add_mod'])
  exact ⟨_, loadAt_unwatched hw hread, (orderBytes_lineRead _ _ _ n hn hoff).trans hnumber, numberAt_lt _ _ _ n⟩

end Reads

/-! ## Writes -/

section Writes

variable {s t : State} {pa : PAddr} {attr : BitVec 3} {n : Nat}

theorem memoryStored_of_written (hn : n ≤ 8) (hram : regionKind s pa = .ram) {d : Dword}
    (hmem : t.mem = Memory.writeBytes s.mem pa.toNat n (orderBytes (bigEndianCpu s) n d)) :
    MemoryStored s t pa n d.toNat := by
  refine ⟨fun b hb => ?_, fun _ hwf => ?_, fun h => absurd hram h⟩
  · rw [hmem, Memory_read_writeBytes_other _ _ _ _ _ hb]
  · rw [hmem, numberAt_writeBytes _ _ _ n hn d hwf]

theorem memoryStored_of_lost (hlost : regionKind s pa ≠ .ram) (hmem : t.mem = s.mem) (v : Nat) :
    MemoryStored s t pa n v :=
  ⟨fun _ _ => by rw [hmem], fun h => absurd h hlost, fun _ _ => by rw [hmem]⟩

theorem mainWrite_stores (hn : n ≤ 8) (hdev : regionKind s pa ≠ .device) (d : Dword) : ∃ m,
    mainWrite pa n (orderBytes (bigEndianCpu s) n d) s = .ok { s with mem := m } ∧
      MemoryStored s { s with mem := m } pa n d.toNat := by
  unfold mainWrite
  split
  · next h => exact ⟨_, rfl, memoryStored_of_written hn h rfl⟩
  · next h => exact ⟨s.mem, rfl, memoryStored_of_lost (by rw [h]; decide) rfl _⟩
  · next h => exact ⟨s.mem, rfl, memoryStored_of_lost (by rw [h]; decide) rfl _⟩
  · next h => exact absurd h hdev

theorem memWrite_direct (hd : Direct s attr) (hn : n ≤ 8) (hdev : regionKind s pa ≠ .device) (d : Dword) : ∃ u,
    memWrite pa n (orderBytes (bigEndianCpu s) n d) attr s = .ok u ∧ u.caches = s.caches ∧
      MemoryStored s u pa n d.toNat := by
  rw [memWrite, throughCache_of_direct hd, if_neg Bool.false_ne_true]
  split
  · obtain ⟨m, hwrite, hstored⟩ := mainWrite_stores hn hdev d
    exact ⟨_, hwrite, rfl, hstored⟩
  · split
    · next h => exact absurd h hdev
    · next h => exact ⟨s, rfl, rfl, memoryStored_of_lost (by rw [h]; decide) rfl _⟩
    · next h => exact ⟨s, rfl, rfl, memoryStored_of_lost (by rw [h]; decide) rfl _⟩
    · next h => exact ⟨_, rfl, rfl, memoryStored_of_written hn h rfl⟩

theorem memWrite_device (hd : Direct s attr) (hdev : regionKind s pa = .device) (v : Dword) :
    memWrite pa n v attr s = .error (.refused .deviceAccess) := by
  rw [memWrite, throughCache_of_direct hd, if_neg Bool.false_ne_true]
  split
  · rw [mainWrite, hdev]
  · rw [hdev]

end Writes

/-! ## Completing over a changed memory system -/

/-- What does not depend on the registers, the link or the program counter. -/
def OfMemSystem (P : State → Prop) : Prop :=
  ∀ u gpr cp0 link pc slot, P u → P { u with gpr := gpr, cp0 := cp0, llBit := link, pc := pc, inDelaySlot := slot }

theorem advance_eq (u : State) : ∃ pc slot, advance u = { u with pc := pc, inDelaySlot := slot } := by
  unfold advance; split <;> exact ⟨_, _, rfl⟩

theorem writeGpr_eq (u : State) (r : RegNum) (v : Dword) : ∃ gpr, writeGpr u r v = { u with gpr := gpr } := by
  unfold writeGpr; split <;> exact ⟨_, rfl⟩

theorem OfMemSystem.advance {P : State → Prop} (hP : OfMemSystem P) {u : State} (h : P u) : P (advance u) := by
  obtain ⟨pc, slot, hdone⟩ := advance_eq u
  rw [hdone]
  exact hP u _ _ _ _ _ h

theorem OfMemSystem.written {P : State → Prop} (hP : OfMemSystem P) {u : State} (h : P u) (r : RegNum) (v : Dword) :
    P (Machine.advance (writeGpr u r v)) := by
  obtain ⟨gpr, hwrite⟩ := writeGpr_eq u r v
  rw [hwrite]
  exact hP.advance (hP u _ _ _ _ _ h)

section Frames

variable {s u : State} (h : MemSide s u)
include h

theorem onlyMemSystem_advance : OnlyMemSystem s (advance u) :=
  ⟨fun q => readGpr_congr (by simp [h.gpr]) q, by simp [KeepsHiLo, h.hi, h.lo], by simp [h.fpu],
    by simp [KeepsControl, h.cp0, h.tlb], by simp [h.llBit],
    by simp [KeepsRest, h.intReg, h.intPin, h.nmiPin, h.nmiLevel, h.timerPending, h.standby, h.busIdle, h.params,
      h.pendingErrors, h.events],
    continues_advance s u h.pc h.inDelaySlot h.branchTarget⟩

theorem keepsGprBut_writeResult (d : RegNum) (v : Dword) : KeepsGprBut d s (advance (writeGpr u d v)) := fun q hq => by
  rw [readGpr_congr (advance_gpr _) q, readGpr_writeGpr_other u d q v hq, readGpr_congr h.gpr q]

/-- A result written after an access: nothing outside the destination and the memory system changes. -/
theorem gprAndMemSystem_writeResult (d : RegNum) (v : Dword) : GprAndMemSystem d v s (advance (writeGpr u d v)) :=
  ⟨holds_writeResult u d v, keepsGprBut_writeResult h d v, by simp [KeepsHiLo, h.hi, h.lo], by simp [h.fpu],
    by simp [KeepsControl, h.cp0, h.tlb], by simp [h.llBit],
    by simp [KeepsRest, h.intReg, h.intPin, h.nmiPin, h.nmiLevel, h.timerPending, h.standby, h.busIdle, h.params,
      h.pendingErrors, h.events],
    continues_advance s _ (by simp [h.pc]) (by simp [h.inDelaySlot]) (by simp [h.branchTarget])⟩

end Frames

theorem keepsRest_of_caches {s t : State} (h : KeepsRest s { t with caches := s.caches }) (hc : t.caches = s.caches) :
    KeepsRest s t := by rw [← hc] at h; exact h

/-! ## Loads -/

/-- A load that fills a line: what it writes, and what it leaves alone. -/
theorem does_filling {i : Instr} {s : State} {rt : RegNum} {v : Dword} {pa : PAddr} {attr : BitVec 3}
    (h : exec i s = writeResult rt v (dataFilled pa attr true s)) {b : PAddr} (hb : pa.toNat / 32 = b.toNat / 32) :
    Does i s (fun t => Holds t rt v ∧ OnlyGprAndCaches rt s t ∧ LineFilled b s t) := by
  have hfilled : OfMemSystem (fun t => KeepsMem s t ∧ LineFilled b s t) := fun _ _ _ _ _ _ h => h
  obtain ⟨hmem, hline⟩ := hfilled.written (u := dataFilled pa attr true s)
    ⟨fun _ => rfl, lineFilled_sameLine hb (lineFilled_dataFilled s pa attr true)⟩ rt v
  obtain ⟨hholds, hgpr, hhilo, hfpu, hcontrol, hlink, hrest, hcont⟩ :=
    gprAndMemSystem_writeResult (dataFilled_side s pa attr true) rt v
  exact ⟨_, h, hholds, ⟨hgpr, hhilo, hfpu, hcontrol, hlink, hrest, hmem, hcont⟩, hline⟩

theorem loadInto_ok {rt : RegNum} {x : Except Stop (Dword × State)} {extend : Dword → Dword} {v : Dword} {u : State}
    (h : x = .ok (v, u)) : loadInto rt x extend = writeResult rt (extend v) u := by rw [h]; rfl

theorem loadData_of_translate {n : Nat} {va : Dword} {s : State} {pa : PAddr} {attr : BitVec 3}
    (h : translateAligned .load n va s = .ok (pa, attr)) : loadData n va s = loadAt n pa attr s := by
  rw [loadData, h]

/-! ## Addresses in lines and units -/

theorem translate_of_aligned {kind : AccessKind} {n : Nat} {va : Dword} {s : State} {x : PAddr × BitVec 3}
    (h : translateAligned kind n va s = .ok x) : va.toNat % n = 0 ∧ Machine.translate kind va s = .ok x := by
  unfold translateAligned at h
  split at h
  · next ha => exact ⟨beq_iff_eq.1 ha, h⟩
  · cases h

theorem le_eight {n : Nat} (hn : n ∈ [1, 2, 4, 8]) : n ≤ 8 := by fin_cases hn <;> decide

/-- The bytes of an aligned access lie in one line. -/
theorem offset_of_aligned {kind : AccessKind} {n : Nat} {va : Dword} {s : State} {pa : PAddr} {attr : BitVec 3}
    (h : translateAligned kind n va s = .ok (pa, attr)) (hn : n ∈ [1, 2, 4, 8]) : pa.toNat % 32 + n ≤ 32 := by
  obtain ⟨halign, htr⟩ := translate_of_aligned h
  have hoff := translate_offset kind va s pa attr htr
  fin_cases hn <;> omega

section Aligned

variable {n : Nat} {va : Dword} {s : State} {pa : PAddr} {attr : BitVec 3}

theorem loadReaches_reads (hd : Direct s attr) (hn : n ∈ [1, 2, 4, 8]) (h : LoadReaches n va s pa attr) :
    translateAligned .load n va s = .ok (pa, attr) ∧
      Reads n pa attr s (numberAt (bigEndianCpu s) s.mem pa.toNat n) s := by
  obtain ⟨htr, hregion, hw⟩ := h
  exact ⟨htr, reads_direct hd hregion hw (le_eight hn)⟩

theorem accessCached_hit {k : Nat} (hk : lookupD s pa = .ok (some k)) (hn : n ∈ [1, 2, 4, 8])
    (h : AccessCached .load n va s pa attr) : translateAligned .load n va s = .ok (pa, attr) ∧
      Reads n pa attr s (lineNumber (bigEndianCpu s) (dLine s k).data (pa.toNat % 32) n) s := by
  obtain ⟨ht, htr, hw⟩ := h
  exact ⟨htr, reads_hit ht hk hw (le_eight hn) (offset_of_aligned htr hn)⟩

theorem accessCached_miss (hm : MissesCleanly s pa attr) (hn : n ∈ [1, 2, 4, 8])
    (h : AccessCached .load n va s pa attr) : translateAligned .load n va s = .ok (pa, attr) ∧
      Reads n pa attr s (numberAt (bigEndianCpu s) s.mem pa.toNat n) (dataFilled pa attr true s) := by
  obtain ⟨ht, htr, hw⟩ := h
  exact ⟨htr, reads_miss ht hm hw (le_eight hn) (offset_of_aligned htr hn)⟩

end Aligned

/-- A sign-extending load. -/
theorem Reads.signed {n : Nat} {va : Dword} {s u : State} {pa : PAddr} {attr : BitVec 3} {x : Nat}
    (h : Reads n pa attr s x u) (htr : translateAligned .load n va s = .ok (pa, attr)) (rt : RegNum) :
    loadInto rt (loadData n va s) (Machine.extendFrom (8 * n)) =
      writeResult rt (BitVec.ofInt 64 ((x : Int).bmod (256 ^ n))) u := by
  obtain ⟨v, hload, rfl, -⟩ := h
  rw [loadInto_ok ((loadData_of_translate htr).trans hload), extendFrom_eq, two_pow_eight_mul]

/-- A load that extends with zeros. -/
theorem Reads.unsigned {n : Nat} {va : Dword} {s u : State} {pa : PAddr} {attr : BitVec 3} {x : Nat}
    (h : Reads n pa attr s x u) (htr : translateAligned .load n va s = .ok (pa, attr)) (rt : RegNum) :
    loadInto rt (loadData n va s) id = writeResult rt (BitVec.ofNat 64 x) u := by
  obtain ⟨v, hload, hx, -⟩ := h
  rw [loadInto_ok ((loadData_of_translate htr).trans hload), eq_ofNat_of_toNat hx, id]

/-- Settles O41: each load writes the number of the bytes read, extended, over the state its read leaves. -/
theorem alignedLoads : Obligations.AlignedLoads := by
  intro s base rt offset pa attr va loads
  have key : ∀ (x : Nat → Nat) (reaches : Nat → Prop) (gives : Instr → Dword → Prop) (u : State),
      (∀ n, n ∈ [1, 2, 4, 8] → reaches n → translateAligned .load n va s = .ok (pa, attr) ∧ Reads n pa attr s (x n) u) →
      (∀ i v, exec i s = writeResult rt v u → gives i v) → loads x reaches gives := by
    intro x reaches gives u hreads hgives
    refine ⟨fun hr => ?_, fun hr => ?_, fun hr => ?_, fun hr h64 => ?_, fun hr h64 => ?_⟩ <;>
      obtain ⟨htr, hread⟩ := hreads _ (by decide) hr
    · exact ⟨hgives _ _ (hread.signed htr rt), hgives _ _ (hread.unsigned htr rt)⟩
    · exact ⟨hgives _ _ (hread.signed htr rt), hgives _ _ (hread.unsigned htr rt)⟩
    · exact hgives _ _ (hread.signed htr rt)
    · exact hgives _ _ ((requireIs64_enabled h64 _).trans (hread.unsigned htr rt))
    · exact hgives _ _ ((requireIs64_enabled h64 _).trans (hread.unsigned htr rt))
  clear_value loads
  exact ⟨fun hd => key _ _ _ s (fun _ hn => loadReaches_reads hd hn) fun _ _ => gives_of_exec,
    fun k hk => key _ _ _ s (fun _ hn => accessCached_hit hk hn) fun _ _ => gives_of_exec,
    fun hm => key _ _ _ (dataFilled pa attr true s) (fun _ hn => accessCached_miss hm hn) fun _ _ h => does_filling h rfl⟩

/-! ## Stores -/

/-- An instruction completes over the state an access left: `frame` says what it writes and what it leaves alone. -/
def CompletesOver (i : Instr) (s : State) (frame : State → Prop) (u : State) : Prop :=
  ∃ t, exec i s = .next t ∧ frame t ∧ ∀ P, OfMemSystem P → P u → P t

theorem CompletesOver.does {i : Instr} {s u : State} {frame P : State → Prop} (h : CompletesOver i s frame u) (hu : P u)
    (hP : OfMemSystem P := by exact fun _ _ _ _ _ _ h => h) : Does i s (fun t => frame t ∧ P t) := by
  obtain ⟨t, hexec, hframe, hkeep⟩ := h
  exact ⟨t, hexec, hframe, hkeep P hP hu⟩

theorem completesOver_complete {i : Instr} {s u : State} (hu : MemSide s u) (h : exec i s = complete u) :
    CompletesOver i s (OnlyMemSystem s) u :=
  ⟨_, h, onlyMemSystem_advance hu, fun _ hP => hP.advance⟩

theorem completesOver_writeResult {i : Instr} {s u : State} {d : RegNum} {v : Dword} (hu : MemSide s u)
    (h : exec i s = writeResult d v u) : CompletesOver i s (GprAndMemSystem d v s) u :=
  ⟨_, h, gprAndMemSystem_writeResult hu d v, fun _ hP hu => hP.written hu d v⟩

theorem memWrite_memSide {pa : PAddr} {n : Nat} {v : Dword} {attr : BitVec 3} {s u : State}
    (h : memWrite pa n v attr s = .ok u) : MemSide s u := OpSide_of_eq h (memWrite_side pa n v attr s)

/-! ### Writes through the data cache (20_memory.md rules R263, R264, R266, R268) -/

section Through

variable {s : State} {pa : PAddr} {attr : BitVec 3} {n : Nat} (d : Dword)

theorem memWrite_hit_writeback (ht : ThroughCaches s attr) {k : Nat} (hk : lookupD s pa = .ok (some k))
    (hattr : attr = 3 ∨ attr = 7) (v : Dword) : memWrite pa n v attr s = .ok (storeLine k pa n v true s) := by
  rw [memWrite, throughCache_of_throughCaches ht, if_pos rfl, cachedWrite, hk]
  rcases hattr with rfl | rfl <;> rfl

theorem memWrite_hit_through (ht : ThroughCaches s attr) {k : Nat} (hk : lookupD s pa = .ok (some k))
    (hattr : attr = 0 ∨ attr = 1) {v : Dword} {m : List Host.Cell} (hm : mainWrite pa n v s = .ok { s with mem := m }) :
    memWrite pa n v attr s = .ok (storeLine k pa n v false { s with mem := m }) := by
  rw [memWrite, throughCache_of_throughCaches ht, if_pos rfl, cachedWrite, hk]
  rcases hattr with rfl | rfl <;> simp [hm]

theorem memWrite_miss_around (ht : ThroughCaches s 0) (hk : lookupD s pa = .ok none) (v : Dword) :
    memWrite pa n v 0 s = mainWrite pa n v s := by
  rw [memWrite, throughCache_of_throughCaches ht, if_pos rfl, cachedWrite, hk]
  rfl

theorem storeMissFill_missesCleanly (h : MissesCleanly s pa attr) :
    storeMissFill pa attr s = .ok (some (filledSlot pa false s), dataFilled pa attr false s) := by
  rw [storeMissFill, fillD_missesCleanly false h]

theorem memWrite_miss_through (ht : ThroughCaches s attr) (h : MissesCleanly s pa attr) (hattr : attr = 1) {v : Dword}
    {m : List Host.Cell} (hm : mainWrite pa n v s = .ok { s with mem := m }) :
    memWrite pa n v attr s = .ok (dataFilled pa attr false { s with mem := m }) := by
  have hfill := storeMissFill_missesCleanly (s := { s with mem := m }) h
  have h0 : (attr == 0) = false := by rw [hattr]; rfl
  simp only [memWrite, throughCache_of_throughCaches ht, cachedWrite, h.1, h0, beq_iff_eq.2 hattr, hm, hfill, if_true,
    Bool.false_eq_true, if_false]

theorem memWrite_miss_writeback (ht : ThroughCaches s attr) (h : MissesCleanly s pa attr) (hattr : attr = 3 ∨ attr = 7)
    (v : Dword) : memWrite pa n v attr s =
      .ok (storeLine (filledSlot pa false s) pa n v true (dataFilled pa attr false s)) := by
  obtain ⟨h0, h1⟩ : (attr == 0) = false ∧ (attr == 1) = false := by rcases hattr with rfl | rfl <;> exact ⟨rfl, rfl⟩
  simp only [memWrite, throughCache_of_throughCaches ht, cachedWrite, h.1, h0, h1, storeMissFill_missesCleanly h, if_true,
    Bool.false_eq_true, if_false]

/-- The line of a store that misses with allocation, written back later. -/
theorem holdsLineD_storeLine (hn : n ≤ 8) (hoff : pa.toNat % 32 + n ≤ 32) :
    let k := filledSlot pa false s
    let t := storeLine k pa n (orderBytes (bigEndianCpu s) n d) true (dataFilled pa attr false s)
    HoldsLineD pa true s t k ∧ lineNumber (bigEndianCpu s) (dLine t k).data (pa.toNat % 32) n = d.toNat % 256 ^ n ∧
      ∀ j, j < 32 → ¬(pa.toNat % 32 ≤ j ∧ j < pa.toNat % 32 + n) →
        lineByte (dLine t k).data j = Memory.read s.mem (pa.toNat / 32 * 32 + j) := by
  intro k t
  obtain ⟨hway, honly, htag, hstate, -⟩ := holdsLineD_dataFilled s pa attr false
  obtain ⟨honly', hnumber, hbytes, htag', hstate', hw'⟩ :=
    lineStored_storeLine (dataFilled pa attr false s) k hn hoff d true
  exact ⟨⟨hway, OnlyLineD.trans honly honly', htag'.trans htag, hstate'.trans hstate, hw'.trans (Bool.or_true _)⟩, hnumber,
    fun j hj hout => (hbytes j hj hout).trans (dataFilled_byte s pa attr false hj)⟩

/-- A store whose instruction completes over the state the write leaves, through the data cache. -/
theorem storesThrough_of_memWrite {i : Instr} {frame : State → Prop} (ht : ThroughCaches s attr) (hn : n ≤ 8)
    (hoff : pa.toNat % 32 + n ≤ 32)
    (hi : ∀ u, memWrite pa n (orderBytes (bigEndianCpu s) n d) attr s = .ok u → CompletesOver i s frame u) :
    StoresThrough i s frame pa attr n d.toNat := by
  refine ⟨fun k hk => ⟨fun hattr => ?_, fun hattr hdev => ?_⟩, fun hk hattr hdev => ?_, fun hmiss =>
    ⟨fun hattr => ?_, fun hattr => ?_⟩⟩
  · exact (hi _ (memWrite_hit_writeback ht hk hattr _)).does
      (P := fun t => LineStored s t k pa n d.toNat true ∧ KeepsMem s t) ⟨lineStored_storeLine s k hn hoff d true, fun _ => rfl⟩
  · obtain ⟨m, hmain, hstored⟩ := mainWrite_stores hn hdev d
    exact (hi _ (memWrite_hit_through ht hk hattr hmain)).does
      (P := fun t => LineStored s t k pa n d.toNat false ∧ MemoryStored s t pa n d.toNat)
      ⟨lineStored_storeLine { s with mem := m } k hn hoff d false, hstored⟩
  · subst hattr
    obtain ⟨m, hmain, hstored⟩ := mainWrite_stores hn hdev d
    exact (hi _ ((memWrite_miss_around ht hk _).trans hmain)).does
      (P := fun t => t.caches = s.caches ∧ MemoryStored s t pa n d.toNat) ⟨rfl, hstored⟩
  · have hdev : regionKind s pa ≠ .device := by
      obtain ⟨-, -, h | h, -⟩ := hmiss <;> rw [h] <;> decide
    obtain ⟨m, hmain, hstored⟩ := mainWrite_stores hn hdev d
    refine (hi _ (memWrite_miss_through ht hmiss hattr hmain)).does (P := fun t => MemoryStored s t pa n d.toNat ∧
      ∃ k, HoldsLineD pa false s t k ∧
        ∀ j, j < 32 → lineByte (dLine t k).data j = Memory.read t.mem (pa.toNat / 32 * 32 + j)) ⟨hstored, ?_⟩
    exact lineFilled_dataFilled { s with mem := m } pa attr false
  · exact (hi _ (memWrite_miss_writeback ht hmiss hattr _)).does (P := fun t => KeepsMem s t ∧ ∃ k, HoldsLineD pa true s t k ∧
      lineNumber (bigEndianCpu s) (dLine t k).data (pa.toNat % 32) n = d.toNat % 256 ^ n ∧
      ∀ j, j < 32 → ¬(pa.toNat % 32 ≤ j ∧ j < pa.toNat % 32 + n) →
        lineByte (dLine t k).data j = Memory.read s.mem (pa.toNat / 32 * 32 + j))
      ⟨fun _ => rfl, _, holdsLineD_storeLine d hn hoff⟩

end Through

/-! ### Plain stores -/

theorem storeAt_unwatched {n : Nat} {pa : PAddr} {attr : BitVec 3} {s : State}
    (hw : watchMatch s .store pa n = (false, false)) (d : Dword) :
    storeAt n pa attr d s = memWrite pa n (orderBytes (bigEndianCpu s) n d) attr s := by
  rw [storeAt, watchData_unwatched hw]

theorem storeData_of_translate {n : Nat} {va : Dword} {s : State} {pa : PAddr} {attr : BitVec 3}
    (h : translateAligned .store n va s = .ok (pa, attr)) (d : Dword) : storeData n va d s = storeAt n pa attr d s := by
  rw [storeData, h]

section Plain

variable {i : Instr} {s : State} {pa : PAddr} {attr : BitVec 3} {n : Nat} {d : Dword}
  (h : exec i s = storeDone (storeAt n pa attr d s)) (hw : watchMatch s .store pa n = (false, false))
include h hw

theorem completesOver_store {u : State} (hu : memWrite pa n (orderBytes (bigEndianCpu s) n d) attr s = .ok u) :
    CompletesOver i s (OnlyMemSystem s) u :=
  completesOver_complete (memWrite_memSide hu) (by rw [h, storeAt_unwatched hw, hu]; rfl)

theorem stores_direct (hd : Direct s attr) (hn : n ≤ 8) (hdev : regionKind s pa ≠ .device) : Stores i s pa n d.toNat := by
  obtain ⟨u, hu, hcaches, hstored⟩ := memWrite_direct hd hn hdev d
  obtain ⟨t, hexec, ⟨hgpr, hhilo, hfpu, hcontrol, hlink, hrest, hcont⟩, hcaches, hother, hram, hlost⟩ :=
    (completesOver_store h hw hu).does (P := fun t => t.caches = s.caches ∧ MemoryStored s t pa n d.toNat)
      ⟨hcaches, hstored⟩
  exact ⟨t, hexec, ⟨hgpr, hhilo, hfpu, hcontrol, hlink, keepsRest_of_caches hrest hcaches, hother, hcont⟩, hram, hlost⟩

theorem storesThrough_store (ht : ThroughCaches s attr) (hn : n ≤ 8) (hoff : pa.toNat % 32 + n ≤ 32) :
    StoresThrough i s (OnlyMemSystem s) pa attr n d.toNat :=
  storesThrough_of_memWrite d ht hn hoff fun _ hu => completesOver_store h hw hu

end Plain

/-- Settles O42: every store of `n` bytes is `storeData n`, on memory or through the data cache. -/
theorem alignedStores : Obligations.AlignedStores := by
  intro s base rt offset pa attr va
  have key : ∀ (i : Instr) (n : Nat), n ∈ [1, 2, 4, 8] → exec i s = storeDone (storeData n va (readGpr s rt) s) →
      (Direct s attr → StoreReaches n va s pa attr → Stores i s pa n (uval s rt)) ∧
        StoresCached i s va pa attr n (uval s rt) := by
    refine fun i n hn h => ⟨fun hd ⟨htr, hdev, hw⟩ => ?_, fun ⟨ht, htr, hw⟩ => ?_⟩ <;> rw [storeData_of_translate htr] at h
    · exact stores_direct h hw hd (le_eight hn) hdev
    · exact storesThrough_store h hw ht (le_eight hn) (offset_of_aligned htr hn)
  have hsb := key (.sb base rt offset) 1 (by decide) rfl
  have hsh := key (.sh base rt offset) 2 (by decide) rfl
  have hsw := key (.sw base rt offset) 4 (by decide) rfl
  have hsd := fun h64 => key (.sd base rt offset) 8 (by decide) (requireIs64_enabled h64 _)
  exact ⟨fun hd => ⟨hsb.1 hd, hsh.1 hd, hsw.1 hd, fun hr h64 => (hsd h64).1 hd hr⟩, hsb.2, hsh.2, hsw.2,
    fun h64 => (hsd h64).2⟩

/-! ## Parts of a unit (43_load_store.md rule R429) -/

/-- `k` bytes from `a` lie in the line of an address. -/
structure InLine (pa : PAddr) (a k : Nat) : Prop where
  toNat : (BitVec.ofNat 36 a).toNat = a
  line : a / 32 = pa.toNat / 32
  fits : a % 32 + k ≤ 32
  count : k ≤ 8

section Parts

variable {n : Nat} (hn : n ∈ [4, 8]) (s : State) (va : Dword)
include hn

theorem unit_pos : 0 < n := by fin_cases hn <;> decide

theorem leftShift_eq : leftShift s n va = n - leftBytes (bigEndianCpu s) n va := by
  have hlt := Nat.mod_lt va.toNat (unit_pos hn)
  unfold leftShift leftBytes unitOffset
  split <;> omega

theorem leftCount_eq : leftCount s n va = leftBytes (bigEndianCpu s) n va := by
  have hlt := Nat.mod_lt va.toNat (unit_pos hn)
  unfold leftCount leftShift leftBytes unitOffset
  split <;> omega

theorem rightShift_eq : n - rightShift s n va = rightBytes (bigEndianCpu s) n va := by
  have hlt := Nat.mod_lt va.toNat (unit_pos hn)
  unfold rightShift leftShift rightBytes unitOffset
  split <;> omega

variable {s va} {pa : PAddr} {attr : BitVec 3} {kind : AccessKind}

/-- The bytes from an address up to the end of its unit at most. -/
theorem inLine_address {k : Nat} (hk : pa.toNat % n + k ≤ n) : InLine pa pa.toNat k := by
  refine ⟨by rw [BitVec.ofNat_toNat, BitVec.setWidth_eq], rfl, ?_, ?_⟩ <;> fin_cases hn <;> omega

/-- The bytes from the start of the unit. -/
theorem inLine_start {k : Nat} (hk : k ≤ n) : InLine pa (pa.toNat - pa.toNat % n) k := by
  have hlt := pa.isLt
  refine ⟨by rw [BitVec.toNat_ofNat]; omega, ?_, ?_, ?_⟩ <;> fin_cases hn <;> omega

variable
  (htr : Machine.translate kind va s = .ok (pa, attr))
include htr

/-- Translation keeps the offset in a unit. -/
theorem unitOffset_le : va.toNat % n ≤ pa.toNat ∧ pa.toNat % n = va.toNat % n := by
  have hoff := translate_offset kind va s pa attr htr
  fin_cases hn <;> omega

theorem subOffset_eq : pa - BitVec.ofNat 36 (unitOffset n va) = BitVec.ofNat 36 (pa.toNat - va.toNat % n) := by
  have hle := (unitOffset_le hn htr).1
  apply BitVec.eq_of_toNat_eq
  rw [unitOffset, BitVec.toNat_sub, BitVec.toNat_ofNat, BitVec.toNat_ofNat]
  omega

theorem leftStart_eq : leftStart s n va pa = BitVec.ofNat 36 (leftFirst (bigEndianCpu s) n va pa) := by
  unfold leftStart leftFirst
  split
  · rw [BitVec.ofNat_toNat, BitVec.setWidth_eq]
  · exact subOffset_eq hn htr

theorem rightStart_eq : rightStart s n va pa = BitVec.ofNat 36 (rightFirst (bigEndianCpu s) n va pa) := by
  unfold rightStart rightFirst
  split
  · exact subOffset_eq hn htr
  · rw [BitVec.ofNat_toNat, BitVec.setWidth_eq]

theorem left_inLine : InLine pa (leftFirst (bigEndianCpu s) n va pa) (leftBytes (bigEndianCpu s) n va) := by
  have hlt := Nat.mod_lt va.toNat (unit_pos hn)
  have hmod := (unitOffset_le hn htr).2
  unfold leftFirst leftBytes
  split
  · exact inLine_address hn (by omega)
  · rw [← hmod] at hlt ⊢
    exact inLine_start hn hlt

theorem right_inLine : InLine pa (rightFirst (bigEndianCpu s) n va pa) (rightBytes (bigEndianCpu s) n va) := by
  have hlt := Nat.mod_lt va.toNat (unit_pos hn)
  have hmod := (unitOffset_le hn htr).2
  unfold rightFirst rightBytes
  split
  · rw [← hmod] at hlt ⊢
    exact inLine_start hn hlt
  · exact inLine_address hn (by omega)

theorem loadLeft_eq (hkind : kind = .load) : loadLeft n va s =
    loadAt (leftBytes (bigEndianCpu s) n va) (BitVec.ofNat 36 (leftFirst (bigEndianCpu s) n va pa)) attr s := by
  subst hkind
  rw [← leftStart_eq hn htr, ← leftCount_eq hn, loadLeft, htr]

theorem loadRight_eq (hkind : kind = .load) : loadRight n va s =
    loadAt (rightBytes (bigEndianCpu s) n va) (BitVec.ofNat 36 (rightFirst (bigEndianCpu s) n va pa)) attr s := by
  subst hkind
  rw [← rightStart_eq hn htr, ← rightShift_eq hn, loadRight, htr]
  rfl

theorem storeLeft_eq (hkind : kind = .store) (d : Dword) : storeLeft n va d s =
    storeAt (leftBytes (bigEndianCpu s) n va) (BitVec.ofNat 36 (leftFirst (bigEndianCpu s) n va pa)) attr
      (d >>> (8 * leftShift s n va)) s := by
  subst hkind
  rw [← leftStart_eq hn htr, ← leftCount_eq hn, storeLeft, htr]

theorem storeRight_eq (hkind : kind = .store) (d : Dword) : storeRight n va d s =
    storeAt (rightBytes (bigEndianCpu s) n va) (BitVec.ofNat 36 (rightFirst (bigEndianCpu s) n va pa)) attr d s := by
  subst hkind
  rw [← rightStart_eq hn htr, ← rightShift_eq hn, storeRight, htr]
  rfl

end Parts

theorem wordDatum_toNat (s : State) (r : RegNum) : (wordDatum s r).toNat = lowval s r := by
  rw [wordDatum, low32, BitVec.truncate_eq_setWidth, BitVec.toNat_setWidth, BitVec.toNat_setWidth, lowval]
  omega

/-! ## Unaligned loads -/

section Merges

variable {n : Nat} (hn : n ∈ [4, 8]) {s u : State} {va : Dword} {x : Nat}
include hn

/-- What a "left" load makes of the bytes it reads and the register. -/
theorem mergeLeft_read {pa : PAddr} {attr : BitVec 3} (htr : Machine.translate .load va s = .ok (pa, attr))
    (h : Reads (leftBytes (bigEndianCpu s) n va) (BitVec.ofNat 36 (leftFirst (bigEndianCpu s) n va pa)) attr s x u)
    (rt : RegNum) (r : Dword) (extend : Dword → Dword) :
    loadInto rt (loadLeft n va s) (fun v => extend (mergeLeft (leftShift s n va) v r)) =
      writeResult rt (extend (BitVec.ofNat 64 (x * 256 ^ (n - leftBytes (bigEndianCpu s) n va) +
        r.toNat % 256 ^ (n - leftBytes (bigEndianCpu s) n va)))) u := by
  obtain ⟨v, hload, rfl, -⟩ := h
  have hle : n - leftBytes (bigEndianCpu s) n va ≤ 8 := by fin_cases hn <;> omega
  rw [loadInto_ok ((loadLeft_eq hn htr rfl).trans hload), leftShift_eq hn, mergeLeft_eq hle]

/-- The same of a "right" load. -/
theorem mergeRight_read {pa : PAddr} {attr : BitVec 3} (htr : Machine.translate .load va s = .ok (pa, attr))
    (h : Reads (rightBytes (bigEndianCpu s) n va) (BitVec.ofNat 36 (rightFirst (bigEndianCpu s) n va pa)) attr s x u)
    (rt : RegNum) (r : Dword) (extend : Dword → Dword) :
    loadInto rt (loadRight n va s) (fun v => extend (mergeRight n (rightShift s n va) v r)) =
      writeResult rt (extend (BitVec.ofNat 64 (x +
        r.toNat / 256 ^ rightBytes (bigEndianCpu s) n va * 256 ^ rightBytes (bigEndianCpu s) n va))) u := by
  obtain ⟨v, hload, rfl, hlt⟩ := h
  have hle := (right_inLine hn htr).count
  rw [loadInto_ok ((loadRight_eq hn htr rfl).trans hload), mergeRight_eq hle (rightShift_eq hn s va) v r hlt]

end Merges

/-- Settles O43: each load merges the number of the bytes read into the register, over the state its read leaves. -/
theorem unalignedLoads : Obligations.UnalignedLoads := by
  intro s base rt offset pa attr va big loads
  have key : ∀ (x : Nat → Nat → Nat) (reaches : Nat → Nat → Prop) (gives : Instr → Dword → Prop) (u : Nat → State),
      (∀ a k, reaches a k → Machine.translate .load va s = .ok (pa, attr) ∧
        (InLine pa a k → Reads k (BitVec.ofNat 36 a) attr s (x a k) (u a))) →
      (∀ a k i v, reaches a k → InLine pa a k → exec i s = writeResult rt v (u a) → gives i v) → loads x reaches gives := by
    intro x reaches gives u hreads hgives
    refine ⟨fun hr => ?_, fun hr => ?_, fun hr h64 => ?_, fun hr h64 => ?_⟩ <;> obtain ⟨htr, hread⟩ := hreads _ _ hr
    · have hin := left_inLine (n := 4) (by decide) htr
      have h := mergeLeft_read (by decide) htr (hread hin) rt (wordDatum s rt) wordMerge
      rw [wordMerge_ofNat, wordDatum_toNat] at h
      exact hgives _ _ _ _ hr hin h
    · have hin := right_inLine (n := 4) (by decide) htr
      have h := mergeRight_read (by decide) htr (hread hin) rt (wordDatum s rt) wordMerge
      rw [wordMerge_ofNat, wordDatum_toNat] at h
      exact hgives _ _ _ _ hr hin h
    · have hin := left_inLine (n := 8) (by decide) htr
      have h := mergeLeft_read (by decide) htr (hread hin) rt (readGpr s rt) id
      exact hgives _ _ _ _ hr hin ((requireIs64_enabled h64 _).trans h)
    · have hin := right_inLine (n := 8) (by decide) htr
      have h := mergeRight_read (by decide) htr (hread hin) rt (readGpr s rt) id
      exact hgives _ _ _ _ hr hin ((requireIs64_enabled h64 _).trans h)
  clear_value loads
  refine ⟨fun hd => key _ _ _ (fun _ => s) ?_ fun _ _ _ _ _ _ => gives_of_exec,
    fun line hk => key _ _ _ (fun _ => s) ?_ fun _ _ _ _ _ _ => gives_of_exec,
    key _ _ _ (fun a => dataFilled (BitVec.ofNat 36 a) attr true s) ?_ fun a k i v _ hin h => ?_⟩
  · refine fun a k ⟨htr, hregion, hw⟩ => ⟨htr, fun hin => ?_⟩
    have h := reads_direct ‹_› hregion hw hin.count
    rwa [hin.toNat] at h
  · refine fun a k ⟨ht, htr, hw⟩ => ⟨htr, fun hin => ?_⟩
    have hk' : lookupD s (BitVec.ofNat 36 a) = .ok (some line) :=
      (lookupD_sameLine s _ _ (by rw [hin.toNat, hin.line])).trans hk
    have h := reads_hit ht hk' hw hin.count (by rw [hin.toNat]; exact hin.fits)
    rwa [hin.toNat] at h
  · refine fun a k ⟨⟨ht, htr, hw⟩, hm⟩ => ⟨htr, fun hin => ?_⟩
    have h := reads_miss ht hm hw hin.count (by rw [hin.toNat]; exact hin.fits)
    rwa [hin.toNat] at h
  · exact does_filling h (by rw [hin.toNat, hin.line])

/-! ## Unaligned stores -/

/-- Settles O44: each store is `storeAt` on its part of the unit. -/
theorem unalignedStores : Obligations.UnalignedStores := by
  intro s base rt offset pa attr va big stores
  have key : ∀ (reaches : Nat → Nat → Prop) (does : Instr → PAddr → Nat → Nat → Prop),
      (∀ a k, reaches a k → Machine.translate .store va s = .ok (pa, attr)) →
      (∀ a k i d, reaches a k → InLine pa a k → exec i s = storeDone (storeAt k (BitVec.ofNat 36 a) attr d s) →
        does i (BitVec.ofNat 36 a) k d.toNat) → stores reaches does := by
    intro reaches does htranslates hdoes
    have shifted : ∀ n, n ∈ [4, 8] → ∀ d : Dword,
        (d >>> (8 * leftShift s n va)).toNat = d.toNat / 256 ^ (n - leftBytes big n va) := fun n hn d => by
      rw [BitVec.toNat_ushiftRight, Nat.shiftRight_eq_div_pow, two_pow_eight_mul, leftShift_eq hn]
    refine ⟨fun hr => ?_, fun hr => ?_, fun hr h64 => ?_, fun hr h64 => ?_⟩ <;> have htr := htranslates _ _ hr
    · have h := hdoes _ _ (.swl base rt offset) _ hr (left_inLine (by decide) htr)
        (congrArg storeDone (storeLeft_eq (by decide) htr rfl (wordDatum s rt)))
      rwa [shifted 4 (by decide), wordDatum_toNat] at h
    · have h := hdoes _ _ (.swr base rt offset) _ hr (right_inLine (by decide) htr)
        (congrArg storeDone (storeRight_eq (by decide) htr rfl (wordDatum s rt)))
      rwa [wordDatum_toNat] at h
    · have h := hdoes _ _ (.sdl base rt offset) _ hr (left_inLine (by decide) htr)
        ((requireIs64_enabled h64 _).trans (congrArg storeDone (storeLeft_eq (by decide) htr rfl (readGpr s rt))))
      rwa [shifted 8 (by decide)] at h
    · exact hdoes _ _ (.sdr base rt offset) _ hr (right_inLine (by decide) htr)
        ((requireIs64_enabled h64 _).trans (congrArg storeDone (storeRight_eq (by decide) htr rfl (readGpr s rt))))
  clear_value stores
  refine ⟨fun hd => key _ _ (fun _ _ ⟨htr, _⟩ => htr) fun a k i d ⟨_, hdev, hw⟩ hin h => ?_,
    key _ _ (fun _ _ ⟨_, htr, _⟩ => htr) fun a k i d ⟨ht, _, hw⟩ hin h => ?_⟩
  · exact stores_direct h hw hd hin.count hdev
  · exact storesThrough_store h hw ht hin.count (by rw [hin.toNat]; exact hin.fits)

/-! ## Load-linked and store-conditional (rules R440 to R443) -/

theorem linkField_eq (pa : PAddr) : pa.extractLsb' 4 32 = BitVec.ofNat 32 (pa.toNat / 16) :=
  BitVec.eq_of_toNat_eq ((extractLsb'_toNat_div pa 4 32).trans (BitVec.toNat_ofNat ..).symm)

theorem loadLinked_reads {n : Nat} {va : Dword} {s u : State} {pa : PAddr} {attr : BitVec 3} {x : Nat}
    (htr : translateAligned .load n va s = .ok (pa, attr)) (h : Reads n pa attr s x u) (rt : RegNum)
    (extend : Dword → Dword) :
    ∃ v, v.toNat = x ∧ loadLinked n rt va extend s = writeResult rt (extend v) (setLink pa u) := by
  obtain ⟨v, hload, hx, -⟩ := h
  refine ⟨v, hx, ?_⟩
  rw [loadLinked, htr]
  simp only [onOk, hload]

/-- What a load-linked writes besides the memory system. -/
theorem writeResult_setLink {s u : State} (hu : MemSide s u) (hmem : u.mem = s.mem) (pa : PAddr) (rt : RegNum) (v : Dword) :
    let t := advance (writeGpr (setLink pa u) rt v)
    (Holds t rt v ∧ KeepsGprBut rt s t ∧ KeepsHiLo s t ∧ t.fpu = s.fpu ∧ t.tlb = s.tlb ∧ t.llBit = true ∧
      t.cp0 = { s.cp0 with llAddr := BitVec.ofNat 32 (pa.toNat / 16) } ∧ KeepsMem s t ∧ Continues s t) ∧
      KeepsRest s { t with caches := s.caches } := by
  intro t
  have hcp0 : t.cp0 = { s.cp0 with llAddr := BitVec.ofNat 32 (pa.toNat / 16) } := by
    simp [t, setLink, hu.cp0, linkField_eq]
  have hgpr : KeepsGprBut rt s t := fun q hq => by
    rw [readGpr_congr (advance_gpr _) q, readGpr_writeGpr_other _ rt q v hq, readGpr_congr (setLink_gpr u pa) q,
      readGpr_congr hu.gpr q]
  exact ⟨⟨holds_writeResult _ rt v, hgpr, by simp [t, KeepsHiLo, hu.hi, hu.lo], by simp [t, hu.fpu], by simp [t, hu.tlb],
    by simp [t], hcp0, fun a => by simp [t, hmem],
    continues_advance s _ (by simp [hu.pc]) (by simp [hu.inDelaySlot]) (by simp [hu.branchTarget])⟩,
    by simp [t, KeepsRest, hu.intReg, hu.intPin, hu.nmiPin, hu.nmiLevel, hu.timerPending, hu.standby, hu.busIdle, hu.params,
      hu.pendingErrors, hu.events]⟩

section Conditional

variable {i : Instr} {s : State} {va : Dword} {pa : PAddr} {attr : BitVec 3} {n : Nat} {rt : RegNum}
  (h : exec i s = storeConditional n rt va s) (htr : translateAligned .store n va s = .ok (pa, attr))
  (hw : watchMatch s .store pa n = (false, false))
include h htr hw

theorem completesOver_conditional (hll : s.llBit = true) {u : State}
    (hu : memWrite pa n (orderBytes (bigEndianCpu s) n (readGpr s rt)) attr s = .ok u) :
    CompletesOver i s (GprAndMemSystem rt 1 s) u := by
  refine completesOver_writeResult (memWrite_memSide hu) ?_
  rw [h, storeConditional, htr]
  simp only [onOk, watchData_unwatched hw, hll, if_true, hu]

/-- Without the link a store-conditional only answers 0 (rules R442, R443). -/
theorem conditional_unlinked (hll : s.llBit = false) : Gives i s rt 0 := by
  refine gives_of_exec ?_
  rw [h, storeConditional, htr]
  simp only [onOk, watchData_unwatched hw, hll, Bool.false_eq_true, if_false]

end Conditional

/-- Settles O45: a load-linked is a load that also sets the link; a store-conditional is a store that answers 1 while the
link holds. -/
theorem linkedLoadsAndConditionalStores : Obligations.LinkedLoadsAndConditionalStores := by
  intro s base rt offset pa attr va links loads stores
  have key : ∀ (x : Nat → Nat) (reaches : Nat → Prop) (rest : State → Prop) (u : State), MemSide s u → u.mem = s.mem →
      (∀ n, n ∈ [1, 2, 4, 8] → reaches n → translateAligned .load n va s = .ok (pa, attr) ∧ Reads n pa attr s (x n) u) →
      (∀ v, let t := advance (writeGpr (setLink pa u) rt v); KeepsRest s { t with caches := s.caches } → rest t) →
      loads x reaches rest := by
    intro x reaches rest u hu hmem hreads hrest
    have does : ∀ i v, exec i s = writeResult rt v (setLink pa u) → Does i s (fun t => links v t ∧ rest t) := fun i v h =>
      have ⟨hlinks, hkeeps⟩ := writeResult_setLink hu hmem pa rt v
      ⟨_, h, hlinks, hrest v hkeeps⟩
    refine ⟨fun hr => ?_, fun hr h64 => ?_⟩ <;> obtain ⟨htr, hread⟩ := hreads _ (by decide) hr
    · obtain ⟨v, hx, h⟩ := loadLinked_reads htr hread rt (Machine.extendFrom 32)
      rw [extendFrom_eq, hx] at h
      exact does _ _ h
    · obtain ⟨v, hx, h⟩ := loadLinked_reads htr hread rt id
      rw [eq_ofNat_of_toNat hx] at h
      exact does _ _ ((requireIs64_enabled h64 _).trans h)
  have conditional : ∀ i n, n ∈ [1, 2, 4, 8] → exec i s = storeConditional n rt va s →
      (Direct s attr → StoreReaches n va s pa attr → s.llBit = true → stores i n) ∧
      (s.llBit = true → AccessCached .store n va s pa attr →
        StoresThrough i s (GprAndMemSystem rt 1 s) pa attr n (uval s rt)) ∧
      (s.llBit = false → StoreReaches n va s pa attr ∨ AccessCached .store n va s pa attr → Gives i s rt 0) := by
    refine fun i n hn h => ⟨fun hd ⟨htr, hdev, hw⟩ hll => ?_, fun hll ⟨ht, htr, hw⟩ => ?_, fun hll hr => ?_⟩
    · obtain ⟨u, hu, hcaches, hstored⟩ := memWrite_direct hd (le_eight hn) hdev (readGpr s rt)
      obtain ⟨t, hexec, ⟨hholds, hgpr, hhilo, hfpu, hcontrol, hlink, hrest, hcont⟩, hcaches, hother, hram, hlost⟩ :=
        (completesOver_conditional h htr hw hll hu).does
          (P := fun t => t.caches = s.caches ∧ MemoryStored s t pa n (uval s rt)) ⟨hcaches, hstored⟩
      exact ⟨t, hexec, hholds, hgpr, hhilo, hfpu, hcontrol, hlink.trans hll, keepsRest_of_caches hrest hcaches, hother,
        hcont, hram, hlost⟩
    · exact storesThrough_of_memWrite _ ht (le_eight hn) (offset_of_aligned htr hn) fun _ hu =>
        completesOver_conditional h htr hw hll hu
    · rcases hr with ⟨htr, -, hw⟩ | ⟨-, htr, hw⟩ <;> exact conditional_unlinked h htr hw hll
  obtain ⟨hsc, hscThrough, hscFails⟩ := conditional (.sc base rt offset) 4 (by decide) rfl
  have hscd := fun h64 => conditional (.scd base rt offset) 8 (by decide) (requireIs64_enabled h64 _)
  clear_value loads
  have unfilled : ∀ v, let t := advance (writeGpr (setLink pa s) rt v)
      KeepsRest s { t with caches := s.caches } → KeepsRest s t := fun v hkeeps => keepsRest_of_caches hkeeps (by simp)
  have hfilled : OfMemSystem (LineFilled pa s) := fun _ _ _ _ _ _ h => h
  exact ⟨fun hd => ⟨key _ _ _ s (MemSide_refl s) rfl (fun _ hn => loadReaches_reads hd hn) unfilled, hsc hd,
      fun hr h64 hll => (hscd h64).1 hd hr hll⟩,
    fun k hk => key _ _ _ s (MemSide_refl s) rfl (fun _ hn => accessCached_hit hk hn) unfilled,
    fun hm => key _ _ _ (dataFilled pa attr true s) (dataFilled_side s pa attr true) rfl
      (fun _ hn => accessCached_miss hm hn) fun v hkeeps => ⟨hkeeps,
        hfilled.written (u := setLink pa (dataFilled pa attr true s)) (lineFilled_dataFilled s pa attr true) rt v⟩,
    fun hll => ⟨hscThrough hll, fun hr h64 => (hscd h64).2.1 hll hr⟩,
    fun hll => ⟨hscFails hll, fun hr h64 => (hscd h64).2.2 hll hr⟩⟩

/-! ## The words a Watch register matches (60_exceptions.md rule R854) -/

/-- The bytes of an access inside one doubleword lie in the word of its first byte or in that of its last. -/
theorem word_of_byte {a n j : Nat} (hn : 1 ≤ n) (hin : a % 8 + n ≤ 8) (hj : j < n) :
    (a + j) / 4 = a / 4 ∨ (a + j) / 4 = (a + (n - 1)) / 4 := by omega

/-- Two addresses of one word agree in the bits a Watch register compares. -/
theorem testBit_sameWord {x y : Nat} (h : x / 4 = y / 4) (b : Nat) : x.testBit (b + 2) = y.testBit (b + 2) := by
  have key : ∀ z : Nat, z.testBit (b + 2) = (z / 4).testBit b := fun z => (Nat.testBit_div_two_pow (n := 2) z b).symm
  rw [key, key, h]

/-- The word at a byte address agrees with a Watch register, but for the masked bits. -/
def WordAgrees (x : Watch) (masked : Bool) (mask : BitVec 30) (a : Nat) : Prop :=
  ∀ b, b < 34 → (masked = true ∧ b < 30 ∧ mask.getLsbD b = true) ∨ x.pa.getLsbD b = a.testBit (b + 2)

theorem wordAgrees_sameWord {x : Watch} {masked : Bool} {mask : BitVec 30} {a c : Nat} (h : a / 4 = c / 4) :
    WordAgrees x masked mask a ↔ WordAgrees x masked mask c := by
  simp only [WordAgrees, testBit_sameWord h]

theorem hitsWord_iff_wordAgrees (x : Watch) (masked : Bool) (mask : BitVec 30) (pa : PAddr) :
    x.hitsWord (if masked then mask else 0) pa = true ↔ WordAgrees x masked mask pa.toNat := by
  rw [hitsWord_iff]
  cases masked <;> simp [WordAgrees, BitVec.getLsbD]

theorem watch_matches_iff (x : Watch) (masked : Bool) (mask : BitVec 30) (kind : AccessKind) (pa : PAddr) (n : Nat)
    (hn : 1 ≤ n) (hin : pa.toNat % 8 + n ≤ 8) :
    x.matches masked mask kind pa n = true ↔ WatchMatches x masked mask kind pa n := by
  have hlast : (pa + BitVec.ofNat 36 (n - 1)).toNat = pa.toNat + (n - 1) := by
    rw [BitVec.toNat_add, BitVec.toNat_ofNat]; omega
  have hwords : (WordAgrees x masked mask pa.toNat ∨ WordAgrees x masked mask (pa.toNat + (n - 1))) ↔
      ∃ j, j < n ∧ WordAgrees x masked mask (pa.toNat + j) := by
    constructor
    · rintro (h | h)
      · exact ⟨0, by omega, h⟩
      · exact ⟨n - 1, by omega, h⟩
    · rintro ⟨j, hj, h⟩
      exact (word_of_byte hn hin hj).imp (fun e => (wordAgrees_sameWord e).1 h) fun e => (wordAgrees_sameWord e).1 h
  rw [Watch.matches, Bool.and_eq_true, Bool.or_eq_true, hitsWord_iff_wordAgrees, hitsWord_iff_wordAgrees, hlast, hwords]
  cases kind <;> exact Iff.rfl

/-! ## What all forms have in common -/

/-- The address of an access: its alignment, then its translation (43_load_store.md rules R410, R429; 20_memory.md rule
R255). -/
def accessAddress (kind : AccessKind) (a : Access) (s : State) : Except Stop (PAddr × BitVec 3) :=
  if a.va.toNat % a.align = 0 then Machine.translate kind a.va s else .error (.exc (.adE kind.isStore a.va) s)

/-- A load: its address, a read, and what its instruction does with the bytes read. -/
def LoadsVia (a : Access) (s : State) (o : Out) : Prop :=
  ∃ k : PAddr → Dword × State → Out,
    o = onOk (accessAddress .load a s) fun p => onOk (loadAt a.count (a.first p.1) p.2 s) (k p.1)

/-- A store: its address, the Watch check, then a write, which a device refuses. -/
def StoresVia (a : Access) (s : State) (o : Out) : Prop :=
  ∃ k : PAddr × BitVec 3 → Out,
    o = onOk (accessAddress .store a s) (fun p => onOk (watchData .store (a.first p.1) a.count s) fun _ => k p) ∧
      ∀ p : PAddr × BitVec 3, Direct s p.2 → (a.linked = true → s.llBit = true) → regionKind s (a.first p.1) = .device →
        k p = .refused .deviceAccess

theorem onOk_congr {α : Type} {x : Except Stop α} {f g : α → Out} (h : ∀ a, x = .ok a → f a = g a) :
    onOk x f = onOk x g := by
  cases x with
  | error e => rfl
  | ok a => exact h a rfl

/-! ### Where an access stops -/

theorem accessAddress_misaligned {kind : AccessKind} {a : Access} {s : State} (h : a.va.toNat % a.align ≠ 0) :
    accessAddress kind a s = .error (.exc (.adE kind.isStore a.va) s) := if_neg h

theorem accessAddress_aligned {kind : AccessKind} {a : Access} {s : State} (h : a.va.toNat % a.align = 0) :
    accessAddress kind a s = Machine.translate kind a.va s := if_pos h

theorem loadAt_hole {n : Nat} {pa : PAddr} {attr : BitVec 3} {s : State} (hw : watchMatch s .load pa n = (false, false))
    (hd : Direct s attr) (h : regionKind s pa = .hole) : loadAt n pa attr s = .error (.exc (.dbe pa) s) := by
  rw [loadAt, watchData_unwatched hw]
  simp [memRead, throughCache_of_direct hd, readable_hole false h]

theorem loadAt_device {n : Nat} {pa : PAddr} {attr : BitVec 3} {s : State} (hw : watchMatch s .load pa n = (false, false))
    (hd : Direct s attr) (h : regionKind s pa = .device) : loadAt n pa attr s = .error (.refused .deviceAccess) := by
  rw [loadAt, watchData_unwatched hw]
  simp [memRead, throughCache_of_direct hd, readable_device false h]

theorem loadAt_watched {n : Nat} {pa : PAddr} {attr : BitVec 3} {s : State} {w1 w2 : Bool}
    (hw : watchMatch s .load pa n = (w1, w2)) (h : (w1 || w2) = true) :
    loadAt n pa attr s = .error (.exc (.dwe w1 w2) s) := by
  rw [loadAt, watchData_watched hw h]

section Via

variable {a : Access} {s : State} {o : Out}

theorem LoadsVia.of_eq {o' : Out} (h : LoadsVia a s o') (he : o = o') : LoadsVia a s o := he ▸ h

theorem StoresVia.of_eq {o' : Out} (h : StoresVia a s o') (he : o = o') : StoresVia a s o := he ▸ h

theorem LoadsVia.stopped (h : LoadsVia a s o) {e : Stop} (he : accessAddress .load a s = .error e) : o = e.answer := by
  obtain ⟨k, rfl⟩ := h
  rw [he]; rfl

theorem LoadsVia.unread (h : LoadsVia a s o) {pa : PAddr} {attr : BitVec 3}
    (hp : accessAddress .load a s = .ok (pa, attr)) {e : Stop} (he : loadAt a.count (a.first pa) attr s = .error e) :
    o = e.answer := by
  obtain ⟨k, rfl⟩ := h
  rw [hp]
  simp only [onOk, he]

theorem StoresVia.stopped (h : StoresVia a s o) {e : Stop} (he : accessAddress .store a s = .error e) : o = e.answer := by
  obtain ⟨k, rfl, -⟩ := h
  rw [he]; rfl

theorem StoresVia.watched (h : StoresVia a s o) {pa : PAddr} {attr : BitVec 3}
    (hp : accessAddress .store a s = .ok (pa, attr)) {e : Stop}
    (he : watchData .store (a.first pa) a.count s = .error e) : o = e.answer := by
  obtain ⟨k, rfl, -⟩ := h
  rw [hp]
  simp only [onOk, he]

theorem StoresVia.refused (h : StoresVia a s o) {pa : PAddr} {attr : BitVec 3}
    (hp : accessAddress .store a s = .ok (pa, attr)) (hw : watchMatch s .store (a.first pa) a.count = (false, false))
    (hd : Direct s attr) (hll : a.linked = true → s.llBit = true) (hdev : regionKind s (a.first pa) = .device) :
    o = .refused .deviceAccess := by
  obtain ⟨k, rfl, hk⟩ := h
  rw [hp]
  simp only [onOk, watchData_unwatched hw]
  exact hk (pa, attr) hd hll hdev

end Via

/-! ### The forms -/

theorem translateAligned_eq (kind : AccessKind) (n : Nat) (va : Dword) (linked : Bool) (ready : Prop) (s : State) :
    translateAligned kind n va s = accessAddress kind (alignedAccess n va linked ready) s := by
  rw [translateAligned, aligned]
  exact if_congr beq_iff_eq rfl rfl

section Forms

variable {s : State} {n : Nat} {va : Dword} {ready : Prop}

theorem loadsVia_aligned (linked : Bool) (k : Dword × State → Out) :
    LoadsVia (alignedAccess n va linked ready) s (onOk (loadData n va s) k) := by
  refine ⟨fun _ => k, ?_⟩
  rw [← translateAligned_eq, loadData]
  cases translateAligned .load n va s <;> rfl

theorem loadsVia_linked (r : RegNum) (extend : Dword → Dword) :
    LoadsVia (alignedAccess n va false ready) s (loadLinked n r va extend s) := by
  refine ⟨fun pa vs => writeResult r (extend vs.1) (setLink pa vs.2), ?_⟩
  rw [← translateAligned_eq]
  rfl

theorem accessAddress_byte {kind : AccessKind} {a : Access} (h : a.align = 1) :
    accessAddress kind a s = Machine.translate kind a.va s := accessAddress_aligned (by rw [h, Nat.mod_one])

theorem onOk_loadLeft (hn : n ∈ [4, 8]) (k : Dword × State → Out) : onOk (loadLeft n va s) k =
    onOk (Machine.translate .load va s) fun p => onOk (loadAt (leftBytes (bigEndianCpu s) n va)
      (BitVec.ofNat 36 (leftFirst (bigEndianCpu s) n va p.1)) p.2 s) k := by
  cases htr : Machine.translate .load va s with
  | error e => rw [loadLeft, htr]; rfl
  | ok p => rw [loadLeft_eq hn htr rfl]; rfl

theorem onOk_loadRight (hn : n ∈ [4, 8]) (k : Dword × State → Out) : onOk (loadRight n va s) k =
    onOk (Machine.translate .load va s) fun p => onOk (loadAt (rightBytes (bigEndianCpu s) n va)
      (BitVec.ofNat 36 (rightFirst (bigEndianCpu s) n va p.1)) p.2 s) k := by
  cases htr : Machine.translate .load va s with
  | error e => rw [loadRight, htr]; rfl
  | ok p => rw [loadRight_eq hn htr rfl]; rfl

theorem loadsVia_left (hn : n ∈ [4, 8]) (k : Dword × State → Out) :
    LoadsVia (leftAccess s n va ready) s (onOk (loadLeft n va s) k) :=
  ⟨fun _ => k, by rw [accessAddress_byte rfl]; exact onOk_loadLeft hn k⟩

theorem loadsVia_right (hn : n ∈ [4, 8]) (k : Dword × State → Out) :
    LoadsVia (rightAccess s n va ready) s (onOk (loadRight n va s) k) :=
  ⟨fun _ => k, by rw [accessAddress_byte rfl]; exact onOk_loadRight hn k⟩

/-- A store of any value: the write comes after the Watch check. -/
theorem storesVia_storeAt (a : Access) (d : Dword) : StoresVia a s
    (onOk (accessAddress .store a s) fun p => onOk (storeAt a.count (a.first p.1) p.2 d s) complete) := by
  refine ⟨fun p => onOk (memWrite (a.first p.1) a.count (orderBytes (bigEndianCpu s) a.count d) p.2 s) complete, ?_, ?_⟩
  · refine onOk_congr fun p _ => ?_
    rw [storeAt]
    cases watchData .store (a.first p.1) a.count s <;> rfl
  · intro p hd _ hdev
    simp only [memWrite_device hd hdev, onOk, Stop.answer]

theorem storesVia_aligned (d : Dword) :
    StoresVia (alignedAccess n va false ready) s (onOk (storeData n va d s) complete) := by
  have h := storesVia_storeAt (s := s) (alignedAccess n va false ready) d
  rw [← translateAligned_eq] at h
  rw [storeData]
  cases htr : translateAligned .store n va s <;> rw [htr] at h <;> exact h

theorem storesVia_linked (r : RegNum) : StoresVia (alignedAccess n va true ready) s (storeConditional n r va s) := by
  refine ⟨fun p => if s.llBit then onOk (memWrite p.1 n (orderBytes (bigEndianCpu s) n (readGpr s r)) p.2 s)
    (fun u => writeResult r 1 u) else writeResult r 0 s, ?_, ?_⟩
  · rw [← translateAligned_eq]
    rfl
  · intro p hd hll (hdev : regionKind s p.1 = .device)
    simp only [hll rfl, if_true, memWrite_device hd hdev, onOk, Stop.answer]

theorem onOk_storeLeft (hn : n ∈ [4, 8]) (d : Dword) (k : State → Out) : onOk (storeLeft n va d s) k =
    onOk (Machine.translate .store va s) fun p => onOk (storeAt (leftBytes (bigEndianCpu s) n va)
      (BitVec.ofNat 36 (leftFirst (bigEndianCpu s) n va p.1)) p.2 (d >>> (8 * leftShift s n va)) s) k := by
  cases htr : Machine.translate .store va s with
  | error e => rw [storeLeft, htr]; rfl
  | ok p => rw [storeLeft_eq hn htr rfl]; rfl

theorem onOk_storeRight (hn : n ∈ [4, 8]) (d : Dword) (k : State → Out) : onOk (storeRight n va d s) k =
    onOk (Machine.translate .store va s) fun p => onOk (storeAt (rightBytes (bigEndianCpu s) n va)
      (BitVec.ofNat 36 (rightFirst (bigEndianCpu s) n va p.1)) p.2 d s) k := by
  cases htr : Machine.translate .store va s with
  | error e => rw [storeRight, htr]; rfl
  | ok p => rw [storeRight_eq hn htr rfl]; rfl

theorem storesVia_left (hn : n ∈ [4, 8]) (d : Dword) :
    StoresVia (leftAccess s n va ready) s (onOk (storeLeft n va d s) complete) := by
  have h := storesVia_storeAt (s := s) (leftAccess s n va ready) (d >>> (8 * leftShift s n va))
  rw [accessAddress_byte rfl] at h
  exact (onOk_storeLeft hn d complete).symm ▸ h

theorem storesVia_right (hn : n ∈ [4, 8]) (d : Dword) :
    StoresVia (rightAccess s n va ready) s (onOk (storeRight n va d s) complete) := by
  have h := storesVia_storeAt (s := s) (rightAccess s n va ready) d
  rw [accessAddress_byte rfl] at h
  exact (onOk_storeRight hn d complete).symm ▸ h

end Forms

/-! ### Enabling tests of the floating-point forms (48_fpu.md rules R661, R662, R684) -/

section Enabled

variable {s : State} {regs : List RegNum} {k : Out}

theorem requireEven_even (h : EvenRegs s regs) : requireEven regs s k = k := by
  refine if_neg ?_
  rw [oddForbidden, Bool.and_eq_true, List.any_eq_true]
  rintro ⟨hfr, r, hr, hodd⟩
  rcases h with h | h
  · rw [h] at hfr
    exact Bool.false_ne_true hfr
  · have heven := h r hr
    rw [BitVec.getLsbD, Nat.testBit_zero, decide_eq_true_eq, heven] at hodd
    exact Nat.zero_ne_one hodd

theorem evenRegs_nil : EvenRegs s [] := .inr fun _ h => absurd h List.not_mem_nil

theorem fpGuard_enabled (hcu1 : s.status.cu1 = true) (h : EvenRegs s regs) : fpGuard false regs s k = k :=
  (requireCu1_usable hcu1 _).trans (requireEven_even h)

theorem indexed_enabled {b x : RegNum} {kind : AccessKind} (hready : IndexedReady s b x) (h : EvenRegs s regs) :
    fpGuardCop1x regs s (sameRegion kind (readGpr s b) (indexAddr s b x) s k) = k := by
  obtain ⟨hmips4, hcu1, hregion⟩ := hready
  rw [fpGuardCop1x, requireMips4_enabled hmips4, requireCu1_usable hcu1, requireEven_even h]
  refine if_neg ?_
  rw [bne_iff_ne, not_not, ← BitVec.toNat_inj, region_toNat, region_toNat]
  exact hregion

end Enabled

/-- Every form of load whose enabling tests pass is a load of its access. -/
theorem exec_loadForm {s : State} {i : Instr} {a : Access} (h : loadForm s i = some a) (hready : a.ready) :
    LoadsVia a s (exec i s) := by
  unfold loadForm at h
  split at h <;> cases h
  iterate 5 exact loadsVia_aligned false _
  iterate 2 exact (loadsVia_aligned false _).of_eq (requireIs64_enabled hready _)
  · exact loadsVia_linked _ _
  · exact (loadsVia_linked _ _).of_eq (requireIs64_enabled hready _)
  · exact loadsVia_left (by decide) _
  · exact loadsVia_right (by decide) _
  · exact (loadsVia_left (by decide) _).of_eq (requireIs64_enabled hready _)
  · exact (loadsVia_right (by decide) _).of_eq (requireIs64_enabled hready _)
  · exact (loadsVia_aligned false _).of_eq (fpGuard_enabled hready evenRegs_nil)
  · exact (loadsVia_aligned false _).of_eq (fpGuard_enabled hready.1 hready.2)
  · exact (loadsVia_aligned false _).of_eq (indexed_enabled hready evenRegs_nil)
  · exact (loadsVia_aligned false _).of_eq (indexed_enabled hready.1 hready.2)

/-- The same of every form of store. -/
theorem exec_storeForm {s : State} {i : Instr} {a : Access} (h : storeForm s i = some a) (hready : a.ready) :
    StoresVia a s (exec i s) := by
  unfold storeForm at h
  split at h <;> cases h
  iterate 3 exact storesVia_aligned _
  · exact (storesVia_aligned _).of_eq (requireIs64_enabled hready _)
  · exact storesVia_linked _
  · exact (storesVia_linked _).of_eq (requireIs64_enabled hready _)
  · exact storesVia_left (by decide) _
  · exact storesVia_right (by decide) _
  · exact (storesVia_left (by decide) _).of_eq (requireIs64_enabled hready _)
  · exact (storesVia_right (by decide) _).of_eq (requireIs64_enabled hready _)
  · exact (storesVia_aligned _).of_eq (fpGuard_enabled hready evenRegs_nil)
  · exact (storesVia_aligned _).of_eq (fpGuard_enabled hready.1 hready.2)
  · exact (storesVia_aligned _).of_eq (indexed_enabled hready evenRegs_nil)
  · exact (storesVia_aligned _).of_eq (indexed_enabled hready.1 hready.2)

/-- Settles O46: every form is `LoadsVia` or `StoresVia` its access, so the first stage that fails answers for it. -/
theorem accessesThatTrap : Obligations.AccessesThatTrap := by
  refine ⟨fun s kind pa n hn hin => ⟨watch_matches_iff _ _ _ kind pa n hn hin, watch_matches_iff _ _ _ kind pa n hn hin⟩,
    fun s i a hready => ⟨fun hform => ?_, fun hform => ?_⟩⟩
  · have hexec := exec_loadForm hform hready
    refine ⟨fun hmis => hexec.stopped (accessAddress_misaligned hmis), fun halign => ?_⟩
    rw [← accessAddress_aligned halign]
    exact ⟨fun e he => hexec.stopped he, fun f hf => hexec.stopped hf, fun pa attr hp =>
      ⟨fun w1 w2 hw hor => hexec.unread hp (loadAt_watched hw hor), fun hw hd =>
        ⟨fun hhole => hexec.unread hp (loadAt_hole hw hd hhole), fun hdev => hexec.unread hp (loadAt_device hw hd hdev)⟩⟩⟩
  · have hexec := exec_storeForm hform hready
    refine ⟨fun hmis => hexec.stopped (accessAddress_misaligned hmis), fun halign => ?_⟩
    rw [← accessAddress_aligned halign]
    exact ⟨fun e he => hexec.stopped he, fun f hf => hexec.stopped hf, fun pa attr hp =>
      ⟨fun w1 w2 hw hor => hexec.watched hp (watchData_watched hw hor), fun hw hd hll hdev =>
        hexec.refused hp hw hd hll hdev⟩⟩

end Sys2Proof.Proofs

/-! # Integer computation

An instruction here answers by one of the shared forms `writeResult`, `wordResult`, `trappingWord`, `trappingDword` and
`complete (writeHiLo …)`; what each form does is said once (`gives_of_writeResult` and its companions). What remains is
which number a bit vector is: a word or a doubleword is `BitVec.ofInt` of a number, on which addition, multiplication and
the extraction of halves are those of the integers (`low32_ofInt`, `high32_ofInt`, `extractLsb'_ofInt`), and a sign
extension is the statements' `word` (`sext32_ofInt`). -/

namespace Sys2Proof.Proofs

open Sys2Proof.Machine Sys2Proof.Safety Sys2Proof.Laws

/-! ## Words of the examples -/

theorem decode_of_encode {i : Instr} {w : Word} (h : encode i = w) : decode w = .ok i := h ▸ decode_encode i

/-- Settles O2: each word is the encoding of the instruction named. -/
theorem exampleWordsDecode : Obligations.ExampleWordsDecode := by
  and_intros <;> exact decode_of_encode rfl

/-! ## Bit vectors as numbers -/

theorem ofInt_sub {w : Nat} (x y : Int) : BitVec.ofInt w (x - y) = BitVec.ofInt w x - BitVec.ofInt w y := by
  rw [sub_eq_add_neg, BitVec.ofInt_add, BitVec.ofInt_neg, BitVec.sub_eq_add_neg]

/-- A field of a number in two's complement. -/
theorem extractLsb'_ofInt {w start len : Nat} (h : start + len ≤ w) (x : Int) :
    (BitVec.ofInt w x).extractLsb' start len = BitVec.ofInt len (x / 2 ^ start) := by
  obtain ⟨k, rfl⟩ := Nat.exists_eq_add_of_le h
  have hpow : (2 : Int) ^ (start + len + k) = 2 ^ start * (2 ^ len * 2 ^ k) := by ring
  have hdiv : x / 2 ^ start =
      x % 2 ^ (start + len + k) / 2 ^ start + 2 ^ len * (2 ^ k * (x / 2 ^ (start + len + k))) := by
    conv_lhs => rw [← Int.emod_add_mul_ediv x (2 ^ (start + len + k)), hpow, mul_assoc, ← hpow]
    rw [Int.add_mul_ediv_left _ _ (by positivity), mul_assoc]
  apply BitVec.eq_of_toNat_eq
  zify
  rw [BitVec.extractLsb'_toNat, Nat.shiftRight_eq_div_pow, BitVec.toNat_ofInt, BitVec.toNat_ofInt, hdiv]
  push_cast
  rw [Int.toNat_of_nonneg (Int.emod_nonneg _ (by positivity)), Int.toNat_of_nonneg (Int.emod_nonneg _ (by positivity)),
    Int.add_mul_emod_self_left]

theorem low32_ofInt (x : Int) : low32 (BitVec.ofInt 64 x) = BitVec.ofInt 32 x := by
  rw [low32, BitVec.truncate_eq_setWidth, BitVec.setWidth_eq_extractLsb' (by decide), extractLsb'_ofInt (by decide),
    pow_zero, Int.ediv_one]

theorem high32_ofInt (x : Int) : high32 (BitVec.ofInt 64 x) = BitVec.ofInt 32 (x / 2 ^ 32) :=
  extractLsb'_ofInt (by decide) x

theorem sext32_ofInt (x : Int) : sext32 (BitVec.ofInt 32 x) = word x := by
  rw [sext32, BitVec.signExtend, BitVec.toInt_ofInt, word]

/-- The sign extension of a word, by its signed number. -/
theorem sext32_eq_word_toInt (w : Word) : sext32 w = word w.toInt := by
  rw [← sext32_ofInt, BitVec.ofInt_toInt]

theorem low32_eq_ofInt_toInt (v : Dword) : low32 v = BitVec.ofInt 32 v.toInt := by
  rw [← low32_ofInt, BitVec.ofInt_toInt]

/-- A number that fits a word is its own low word. -/
theorem word_of_fits {x : Int} (h : -(2 ^ 31) ≤ x ∧ x < 2 ^ 31) : word x = BitVec.ofInt 64 x := by
  rw [word, Int.bmod_eq_of_le] <;> omega

/-! ### Operands -/

theorem lowval_eq (s : State) (r : RegNum) : lowval s r = (low32 (readGpr s r)).toNat := by
  rw [lowval, low32, BitVec.truncate_eq_setWidth, BitVec.toNat_setWidth]

theorem lowsval_eq (s : State) (r : RegNum) : lowsval s r = (low32 (readGpr s r)).toInt := by
  unfold lowsval
  rw [lowval_eq, BitVec.toInt_eq_toNat_bmod]

/-- The low word of a register that holds a word has the register's value (44_computational.md rule R471). -/
theorem toInt_low32_of_isWord {s : State} {r : RegNum} (h : IsWord s r) : (low32 (readGpr s r)).toInt = sval s r := by
  have hw := beq_iff_eq.1 ((wordValue_iff s r).2 h)
  rw [sval, ← BitVec.toInt_signExtend_of_le (v := 64) (by decide)]
  exact congrArg BitVec.toInt hw

theorem bothWords_iff (s : State) (rs rt : RegNum) : bothWords s rs rt = true ↔ IsWord s rs ∧ IsWord s rt := by
  rw [bothWords, Bool.and_eq_true, wordValue_iff, wordValue_iff]

/-! ### Sums and differences -/

theorem sext32_low32_add (a b : Dword) : sext32 (low32 a + low32 b) = word (a.toInt + b.toInt) := by
  rw [low32_eq_ofInt_toInt, low32_eq_ofInt_toInt, ← BitVec.ofInt_add, sext32_ofInt]

theorem sext32_low32_sub (a b : Dword) : sext32 (low32 a - low32 b) = word (a.toInt - b.toInt) := by
  rw [low32_eq_ofInt_toInt, low32_eq_ofInt_toInt, ← ofInt_sub, sext32_ofInt]

theorem sext32_low32_addImm (a : Dword) (imm : BitVec 16) :
    sext32 (low32 a + imm.signExtend 32) = word (a.toInt + imm.toInt) := by
  rw [low32_eq_ofInt_toInt, BitVec.signExtend, ← BitVec.ofInt_add, sext32_ofInt]

theorem toInt_sext16 (imm : BitVec 16) : (sext16 imm).toInt = imm.toInt :=
  BitVec.toInt_signExtend_of_le (by decide)

theorem add_eq_ofInt {w : Nat} (a b : BitVec w) : a + b = BitVec.ofInt w (a.toInt + b.toInt) := by
  rw [BitVec.ofInt_add, BitVec.ofInt_toInt, BitVec.ofInt_toInt]

theorem sub_eq_ofInt {w : Nat} (a b : BitVec w) : a - b = BitVec.ofInt w (a.toInt - b.toInt) := by
  rw [ofInt_sub, BitVec.ofInt_toInt, BitVec.ofInt_toInt]

/-- The two highest bits differ when the number needs both of them, so that it leaves the range one bit narrower. -/
theorem topBits_differ_iff {n : Nat} (t : BitVec (n + 2)) :
    (t.getLsbD (n + 1) != t.getLsbD n) = true ↔ ¬(-(2 ^ n) ≤ t.toInt ∧ t.toInt < 2 ^ n) := by
  have htop : t.getLsbD (n + 1) = decide (t.toNat / 2 ^ n / 2 % 2 = 1) := by
    rw [Nat.div_div_eq_div_mul, ← pow_succ]
    exact Nat.testBit_eq_decide_div_mod_eq
  have hnext : t.getLsbD n = decide (t.toNat / 2 ^ n % 2 = 1) := Nat.testBit_eq_decide_div_mod_eq
  have hpow : 2 ^ (n + 2) = 4 * 2 ^ n := by ring
  have hcast : (2 : Int) ^ n = (2 ^ n : Nat) := by push_cast; rfl
  have hquot : t.toNat / 2 ^ n < 4 := Nat.div_lt_of_lt_mul (by rw [mul_comm, ← hpow]; exact t.isLt)
  have hdiv := Nat.div_add_mod t.toNat (2 ^ n)
  have hmod := Nat.mod_lt t.toNat (Nat.two_pow_pos n)
  rw [htop, hnext, bne_iff_ne, ne_eq, decide_eq_decide, BitVec.toInt_eq_toNat_cond, hpow, hcast]
  generalize t.toNat / 2 ^ n = q at *
  generalize t.toNat % 2 ^ n = r at *
  generalize 2 ^ n = p at *
  interval_cases q <;> omega

/-- One bit more holds every sum and difference of two numbers. -/
theorem toInt_ofInt_wider {n : Nat} (a b : BitVec (n + 1)) {x : Int} (h : x = a.toInt + b.toInt ∨ x = a.toInt - b.toInt) :
    (BitVec.ofInt (n + 2) x).toInt = x := by
  have ha := And.intro (BitVec.le_toInt a) (BitVec.toInt_lt (x := a))
  have hb := And.intro (BitVec.le_toInt b) (BitVec.toInt_lt (x := b))
  apply BitVec.toInt_ofInt_eq_self (by omega) <;>
    simp only [Nat.add_sub_cancel, pow_succ, show n + 2 - 1 = n + 1 from rfl] at * <;> omega

theorem toInt_signExtend_add {n : Nat} (a b : BitVec (n + 1)) :
    (a.signExtend (n + 2) + b.signExtend (n + 2)).toInt = a.toInt + b.toInt := by
  rw [add_eq_ofInt, BitVec.toInt_signExtend_of_le (by omega), BitVec.toInt_signExtend_of_le (by omega),
    toInt_ofInt_wider a b (.inl rfl)]

theorem toInt_signExtend_sub {n : Nat} (a b : BitVec (n + 1)) :
    (a.signExtend (n + 2) - b.signExtend (n + 2)).toInt = a.toInt - b.toInt := by
  rw [sub_eq_ofInt, BitVec.toInt_signExtend_of_le (by omega), BitVec.toInt_signExtend_of_le (by omega),
    toInt_ofInt_wider a b (.inr rfl)]

theorem addOverflows32_iff (a b : Word) :
    addOverflows32 a b = true ↔ ¬(-(2 ^ 31) ≤ a.toInt + b.toInt ∧ a.toInt + b.toInt < 2 ^ 31) := by
  rw [← toInt_signExtend_add]
  exact topBits_differ_iff _

theorem subOverflows32_iff (a b : Word) :
    subOverflows32 a b = true ↔ ¬(-(2 ^ 31) ≤ a.toInt - b.toInt ∧ a.toInt - b.toInt < 2 ^ 31) := by
  rw [← toInt_signExtend_sub]
  exact topBits_differ_iff _

theorem addOverflows64_iff (a b : Dword) :
    addOverflows64 a b = true ↔ ¬(-(2 ^ 63) ≤ a.toInt + b.toInt ∧ a.toInt + b.toInt < 2 ^ 63) := by
  rw [← toInt_signExtend_add]
  exact topBits_differ_iff _

theorem subOverflows64_iff (a b : Dword) :
    subOverflows64 a b = true ↔ ¬(-(2 ^ 63) ≤ a.toInt - b.toInt ∧ a.toInt - b.toInt < 2 ^ 63) := by
  rw [← toInt_signExtend_sub]
  exact topBits_differ_iff _

/-! ## What the shared forms of answer do -/

section Answers

variable {s : State} {i : Instr} {d : RegNum}

theorem gives_of_writeResult {v x : Dword} (hi : exec i s = writeResult d v s) (hv : v = x) : Gives i s d x := by
  subst hv
  rw [Gives, Does, hi]
  exact writeResult_gives s d v

/-- Where 64-bit operations are disabled the instruction is reserved (30_encoding.md rule R313). -/
theorem gives_of_requireIs64 {v x : Dword} (hi : exec i s = requireIs64 s (writeResult d v s)) (hv : v = x) :
    (is64 s = true → Gives i s d x) ∧ (is64 s = false → Raises i s .ri) :=
  ⟨fun h => gives_of_writeResult (hi.trans (requireIs64_enabled h _)) hv, fun h => hi.trans (requireIs64_disabled h _)⟩

theorem givesIf_of_wordResult {ok : Bool} {p : Prop} {v : Word} {x : Dword} (hi : exec i s = wordResult ok d v s)
    (hok : ok = true ↔ p) (hv : sext32 v = x) : GivesIf i s d p x := by
  rw [GivesIf, Does, hi]
  cases ok with
  | true =>
    obtain ⟨t, hnext, hholds, honly⟩ := writeResult_gives s d (sext32 v)
    exact ⟨t, hnext, fun _ => hv ▸ hholds, honly⟩
  | false =>
    obtain ⟨t, hnext, -, honly⟩ := writeResult_drew s 1 d (s.free 0)
    exact ⟨t, hnext, fun h => absurd (hok.2 h) Bool.false_ne_true, honly⟩

/-- Integer Overflow loads nothing of its own (60_exceptions.md rule R820). -/
theorem does_of_overflow (hi : exec i s = raise .ov s) :
    Does i s (fun t => TakesGeneral 12 0x180 s t ∧ KeepsFaultAddress s t) :=
  ⟨_, hi, takesGeneral_takeException .ov s, keepsFaultAddress_takeException ⟨rfl, rfl, rfl, rfl, rfl, rfl⟩⟩

/-- An exception does the same when free values were drawn before it. -/
theorem takesGeneral_drew {code : BitVec 5} {offset : Dword} {n : Nat} {t : State}
    (h : TakesGeneral code offset (s.drew n) t) : TakesGeneral code offset s t :=
  ⟨h.status, h.excCode, h.pc, h.slot, h.fresh, h.nested, h.software, h.gpr, h.hilo, h.fpu, h.tlb, h.link, h.rest, h.mem,
    h.others⟩

/-- The three cases of a 32-bit operation that can trap: the result, Integer Overflow, or either of them where an operand
is no word (44_computational.md rules R471, R472). -/
theorem does_of_trappingWord {ok overflow : Bool} {p : Prop} {v : Word} {x : Int}
    (hi : exec i s = trappingWord ok overflow d v s) (hok : ok = true ↔ p) (hv : sext32 v = word x)
    (hoverflow : p → (overflow = true ↔ ¬(-(2 ^ 31) ≤ x ∧ x < 2 ^ 31))) :
    (p → -(2 ^ 31) ≤ x ∧ x < 2 ^ 31 → Gives i s d (BitVec.ofInt 64 x)) ∧
      (p → ¬(-(2 ^ 31) ≤ x ∧ x < 2 ^ 31) → Does i s (fun t => TakesGeneral 12 0x180 s t ∧ KeepsFaultAddress s t)) ∧
      (¬p → Does i s (fun t => OnlyGpr d s t ∨ TakesGeneral 12 0x180 s t)) := by
  refine ⟨fun hp hfits => ?_, fun hp hfits => ?_, fun hp => ⟨_, hi.trans (if_neg (mt hok.1 hp)), ?_⟩⟩
  · have hno : ¬overflow = true := fun h => (hoverflow hp).1 h hfits
    exact gives_of_writeResult (hi.trans ((if_pos (hok.2 hp)).trans (if_neg hno))) (hv.trans (word_of_fits hfits))
  · exact does_of_overflow (hi.trans ((if_pos (hok.2 hp)).trans (if_pos ((hoverflow hp).2 hfits))))
  · split
    · exact .inr (takesGeneral_drew (takesGeneral_takeException .ov (s.drew 2)))
    · exact .inl (onlyGpr_writeResult s 2 d _)

/-- The same of a 64-bit operation, which is reserved where 64-bit operations are disabled. -/
theorem does_of_trappingDword {overflow : Bool} {v : Dword} {x : Int}
    (hi : exec i s = trappingDword overflow d v s) (hv : v = BitVec.ofInt 64 x)
    (hoverflow : overflow = true ↔ ¬(-(2 ^ 63) ≤ x ∧ x < 2 ^ 63)) :
    (is64 s = true → -(2 ^ 63) ≤ x → x < 2 ^ 63 → Gives i s d (BitVec.ofInt 64 x)) ∧
      (is64 s = true → ¬(-(2 ^ 63) ≤ x ∧ x < 2 ^ 63) →
        Does i s (fun t => TakesGeneral 12 0x180 s t ∧ KeepsFaultAddress s t)) ∧
      (is64 s = false → Raises i s .ri) := by
  refine ⟨fun h64 hlow hhigh => ?_, fun h64 hfits => ?_, fun h64 => hi.trans (requireIs64_disabled h64 _)⟩
  · have hno : ¬overflow = true := fun h => hoverflow.1 h ⟨hlow, hhigh⟩
    exact gives_of_writeResult (hi.trans ((requireIs64_enabled h64 _).trans (if_neg hno))) hv
  · exact does_of_overflow (hi.trans ((requireIs64_enabled h64 _).trans (if_pos (hoverflow.2 hfits))))

/-- A result said bit by bit. -/
theorem bitwise_of_writeResult {v : Dword} {f : Nat → Bool} (hi : exec i s = writeResult d v s)
    (hv : ∀ b, b < 64 → v.getLsbD b = f b) :
    Does i s (fun t => OnlyGpr d s t ∧ ∀ b, b < 64 → (readGpr t d).getLsbD b = (d != 0 && f b)) := by
  obtain ⟨t, hnext, hholds, honly⟩ := writeResult_gives s d v
  refine ⟨t, hi.trans hnext, honly, fun b hb => ?_⟩
  rw [hholds]
  by_cases hd : d = 0
  · simp [hd]
  · rw [if_neg hd, bne_iff_ne.2 hd, Bool.true_and, hv b hb]

/-- `HI` and `LO` written, after `n` free values were drawn. -/
theorem givesHiLo_of_complete (n : Nat) {ok : Prop} {h l hi lo : Dword}
    (hexec : exec i s = complete (writeHiLo h l (s.drew n))) (hval : ok → h = hi ∧ l = lo) :
    GivesHiLo i s ok hi lo := by
  obtain ⟨t, hnext, hhi, hlo, honly⟩ := writeHiLo_gives s n h l
  exact ⟨t, hexec.trans hnext, fun hok => ⟨hhi.trans (hval hok).1, hlo.trans (hval hok).2⟩, honly⟩

/-- A result in `HI` and `LO` where there is one, else free values. -/
theorem givesHiLo_of_ite {c ok : Prop} [Decidable c] {h l hi lo : Dword}
    (hexec : exec i s = if c then complete (writeHiLo h l s) else hiLoFree s) (hok : ok → c)
    (hval : ok → h = hi ∧ l = lo) : GivesHiLo i s ok hi lo := by
  by_cases hc : c
  · exact givesHiLo_of_complete 0 (hexec.trans (if_pos hc)) hval
  · exact givesHiLo_of_complete 2 (hexec.trans (if_neg hc)) fun h => absurd (hok h) hc

end Answers

/-! ## Additions and subtractions -/

/-- Settles O27: the low words are `ofInt` of the values, so their sum is `ofInt` of the sum. -/
theorem wordAddSubtract : Obligations.WordAddSubtract := fun s rs rt _ imm =>
  ⟨givesIf_of_wordResult rfl (bothWords_iff s rs rt) (sext32_low32_add _ _),
    givesIf_of_wordResult rfl (bothWords_iff s rs rt) (sext32_low32_sub _ _),
    givesIf_of_wordResult rfl (wordValue_iff s rs) (sext32_low32_addImm _ imm)⟩

/-- Settles O28: on words, the low words are the operands, and the overflow tests are about their exact sum. -/
theorem trappingWordAddSubtract : Obligations.TrappingWordAddSubtract := by
  intro s rs rt rd imm
  refine ⟨does_of_trappingWord rfl (bothWords_iff s rs rt) (sext32_low32_add _ _) fun ⟨hrs, hrt⟩ => ?_,
    does_of_trappingWord rfl (bothWords_iff s rs rt) (sext32_low32_sub _ _) fun ⟨hrs, hrt⟩ => ?_,
    does_of_trappingWord rfl (wordValue_iff s rs) (sext32_low32_addImm _ imm) fun hrs => ?_⟩
  · rw [addOverflows32_iff, toInt_low32_of_isWord hrs, toInt_low32_of_isWord hrt]
  · rw [subOverflows32_iff, toInt_low32_of_isWord hrs, toInt_low32_of_isWord hrt]
  · rw [addOverflows32_iff, toInt_low32_of_isWord hrs, BitVec.toInt_signExtend_of_le (by decide)]

theorem add_sext16 (a : Dword) (imm : BitVec 16) : a + sext16 imm = dword (a.toInt + imm.toInt) := by
  rw [add_eq_ofInt, toInt_sext16, dword]

/-- Settles O29: the trapping forms test the exact sum, which has 65 bits; the others keep its low 64. -/
theorem doublewordAddSubtract : Obligations.DoublewordAddSubtract := by
  intro s rs rt rd imm
  refine ⟨does_of_trappingDword rfl (add_eq_ofInt _ _) (addOverflows64_iff _ _),
    does_of_trappingDword rfl (sub_eq_ofInt _ _) (subOverflows64_iff _ _),
    does_of_trappingDword rfl (add_sext16 _ imm) ?_,
    gives_of_requireIs64 rfl (add_eq_ofInt _ _), gives_of_requireIs64 rfl (sub_eq_ofInt _ _),
    gives_of_requireIs64 rfl (add_sext16 _ imm)⟩
  rw [addOverflows64_iff, toInt_sext16, sval]

/-! ## Comparison and logic -/

theorem truth_decide (p : Prop) [Decidable p] : truth (decide p) = if p then 1 else 0 := by
  simp only [truth, decide_eq_true_eq]

/-- Settles O30: the conditions are those of the comparisons of the model, the immediate sign-extended in both. -/
theorem setOnLessThan : Obligations.SetOnLessThan := by
  intro s rs rt rd imm
  refine ⟨gives_of_writeResult rfl (truth_decide _), gives_of_writeResult rfl (truth_decide _),
    gives_of_writeResult rfl ?_, gives_of_writeResult rfl (truth_decide _)⟩
  rw [signedLt, truth_decide, toInt_sext16, sval]

/-- The bits of a zero-extended immediate (30_encoding.md rule R315). -/
theorem getLsbD_zext16 (imm : BitVec 16) {b : Nat} (hb : b < 64) :
    (zext16 imm).getLsbD b = (decide (b < 16) && imm.getLsbD b) := by
  rw [zext16, BitVec.getLsbD_setWidth, decide_eq_true hb, Bool.true_and]
  by_cases h : b < 16
  · rw [decide_eq_true h, Bool.true_and]
  · rw [decide_eq_false h, Bool.false_and, BitVec.getLsbD_of_ge _ _ (Nat.le_of_not_lt h)]

theorem sext32_append_zero (imm : BitVec 16) : sext32 (imm ++ 0#16) = BitVec.ofInt 64 (imm.toInt * 2 ^ 16) := by
  rw [sext32, BitVec.signExtend, BitVec.toInt_append_zero, mul_comm]

/-- Settles O31: the operators of bit vectors act bit by bit. -/
theorem logicalOperations : Obligations.LogicalOperations := by
  intro s rs rt rd imm
  refine ⟨bitwise_of_writeResult rfl fun _ _ => BitVec.getLsbD_and ..,
    bitwise_of_writeResult rfl fun _ _ => BitVec.getLsbD_or ..,
    bitwise_of_writeResult rfl fun _ _ => BitVec.getLsbD_xor .., bitwise_of_writeResult rfl fun b hb => ?_,
    bitwise_of_writeResult rfl fun b hb => ?_, bitwise_of_writeResult rfl fun b hb => ?_,
    bitwise_of_writeResult rfl fun b hb => ?_, gives_of_writeResult rfl (sext32_append_zero imm)⟩
  · rw [BitVec.getLsbD_not, BitVec.getLsbD_or, decide_eq_true hb, Bool.true_and]
  · rw [BitVec.getLsbD_and, getLsbD_zext16 imm hb]
  · rw [BitVec.getLsbD_or, getLsbD_zext16 imm hb]
  · rw [BitVec.getLsbD_xor, getLsbD_zext16 imm hb]

/-! ## Shifts -/

theorem amount5_eq (s : State) (r : RegNum) : amount5 s r = uval s r % 32 := by
  rw [amount5, BitVec.extractLsb'_toNat, Nat.shiftRight_zero, uval]

theorem amount6_eq (s : State) (r : RegNum) : amount6 s r = uval s r % 64 := by
  rw [amount6, BitVec.extractLsb'_toNat, Nat.shiftRight_zero, uval]

theorem shiftLeft_eq_ofNat {w : Nat} (v : BitVec w) (n : Nat) : v <<< n = BitVec.ofNat w (v.toNat * 2 ^ n) := by
  apply BitVec.eq_of_toNat_eq
  rw [BitVec.toNat_shiftLeft, Nat.shiftLeft_eq, BitVec.toNat_ofNat]

theorem ushiftRight_eq_ofNat {w : Nat} (v : BitVec w) (n : Nat) : v >>> n = BitVec.ofNat w (v.toNat / 2 ^ n) := by
  rw [← Nat.shiftRight_eq_div_pow, ← BitVec.toNat_ushiftRight, BitVec.ofNat_toNat, BitVec.setWidth_eq]

theorem sshiftRight_eq_ofInt {w : Nat} (v : BitVec w) (n : Nat) : v.sshiftRight n = BitVec.ofInt w (v.toInt / 2 ^ n) := by
  rw [BitVec.sshiftRight, Int.shiftRight_eq_div_pow]
  push_cast
  rfl

theorem sext32_ofNat (x : Nat) : sext32 (BitVec.ofNat 32 x) = word (x : Int) := by
  rw [← BitVec.ofInt_natCast, sext32_ofInt]

section WordShifts

variable (s : State) (r : RegNum) (n : Nat)

theorem sext32_shiftLeft : sext32 (wordOf s r <<< n) = word ((lowval s r * 2 ^ n : Nat) : Int) := by
  rw [wordOf, shiftLeft_eq_ofNat, sext32_ofNat, lowval_eq]

theorem sext32_ushiftRight : sext32 (wordOf s r >>> n) = word ((lowval s r / 2 ^ n : Nat) : Int) := by
  rw [wordOf, ushiftRight_eq_ofNat, sext32_ofNat, lowval_eq]

theorem sext32_sshiftRight : sext32 ((wordOf s r).sshiftRight n) = word (lowsval s r / 2 ^ n) := by
  rw [wordOf, sshiftRight_eq_ofInt, sext32_ofInt, lowsval_eq]

end WordShifts

/-- Settles O32: a shift of the low word is a product or a quotient by a power of two. -/
theorem wordShifts : Obligations.WordShifts := by
  intro s rs rt rd sa n
  have hn : n = amount5 s rs := (amount5_eq s rs).symm
  clear_value n
  subst hn
  have hword := wordValue_iff s rt
  exact ⟨givesIf_of_wordResult rfl hword (sext32_shiftLeft ..), givesIf_of_wordResult rfl hword (sext32_ushiftRight ..),
    givesIf_of_wordResult rfl hword (sext32_sshiftRight ..), givesIf_of_wordResult rfl hword (sext32_shiftLeft ..),
    givesIf_of_wordResult rfl hword (sext32_ushiftRight ..), givesIf_of_wordResult rfl hword (sext32_sshiftRight ..)⟩

/-- Settles O33: the same on doublewords. -/
theorem doublewordShifts : Obligations.DoublewordShifts := by
  intro s rs rt rd sa n
  have hn : n = amount6 s rs := (amount6_eq s rs).symm
  clear_value n
  subst hn
  exact ⟨gives_of_requireIs64 rfl (shiftLeft_eq_ofNat ..), gives_of_requireIs64 rfl (ushiftRight_eq_ofNat ..),
    gives_of_requireIs64 rfl (sshiftRight_eq_ofInt ..), gives_of_requireIs64 rfl (shiftLeft_eq_ofNat ..),
    gives_of_requireIs64 rfl (ushiftRight_eq_ofNat ..), gives_of_requireIs64 rfl (sshiftRight_eq_ofInt ..),
    gives_of_requireIs64 rfl (shiftLeft_eq_ofNat ..), gives_of_requireIs64 rfl (ushiftRight_eq_ofNat ..),
    gives_of_requireIs64 rfl (sshiftRight_eq_ofInt ..)⟩

/-! ## Multiplication -/

theorem high32_eq_word {v : Dword} {x : Int} (h : v = BitVec.ofInt 64 x) : sext32 (high32 v) = word (x / 2 ^ 32) := by
  rw [h, high32_ofInt, sext32_ofInt]

theorem low32_eq_word {v : Dword} {x : Int} (h : v = BitVec.ofInt 64 x) : sext32 (low32 v) = word x := by
  rw [h, low32_ofInt, sext32_ofInt]

theorem signedProduct_eq (s : State) (rs rt : RegNum) :
    signedProduct s rs rt = BitVec.ofInt 64 (lowsval s rs * lowsval s rt) := by
  rw [lowsval_eq, lowsval_eq, BitVec.ofInt_mul]
  rfl

theorem zeroExtend_mul {w v : Nat} (a b : BitVec w) :
    a.zeroExtend v * b.zeroExtend v = BitVec.ofInt v ((a.toNat * b.toNat : Nat) : Int) := by
  rw [BitVec.ofInt_natCast, BitVec.ofNat_mul, BitVec.ofNat_toNat, BitVec.ofNat_toNat]

theorem unsignedProduct_eq (s : State) (rs rt : RegNum) :
    unsignedProduct s rs rt = BitVec.ofInt 64 ((lowval s rs * lowval s rt : Nat) : Int) := by
  rw [lowval_eq, lowval_eq, unsignedProduct, zeroExtend_mul]

/-- The accumulator as a number (42_integer_impl_specific.md rule R401). -/
theorem accumulator_eq (s : State) :
    accumulator s = BitVec.ofInt 64 (((s.hi.toNat % 2 ^ 32) * 2 ^ 32 + s.lo.toNat % 2 ^ 32 : Nat) : Int) := by
  have hlo : (low32 s.lo).toNat < 2 ^ 32 := (low32 s.lo).isLt
  rw [BitVec.ofInt_natCast]
  apply eq_ofNat_of_toNat
  rw [accumulator, BitVec.toNat_append, ← Nat.shiftLeft_add_eq_or_of_lt hlo, Nat.shiftLeft_eq, low32, low32,
    BitVec.truncate_eq_setWidth, BitVec.truncate_eq_setWidth, BitVec.toNat_setWidth, BitVec.toNat_setWidth]

section Products

variable {s : State} {i : Instr} {rs rt : RegNum}

/-- A product of words, which is free where an operand is no word (44_computational.md rule R471). -/
theorem givesHiLo_of_product {v : Dword} {x : Int}
    (hi : exec i s = if bothWords s rs rt then hiLoWords v s else hiLoFree s) (hv : v = BitVec.ofInt 64 x) :
    GivesHiLo i s (IsWord s rs ∧ IsWord s rt) (word (x / 2 ^ 32)) (word x) :=
  givesHiLo_of_ite hi (bothWords_iff s rs rt).2 fun _ => ⟨high32_eq_word hv, low32_eq_word hv⟩

theorem givesHiLo_of_hiLoWords {v : Dword} {x : Int} (hi : exec i s = hiLoWords v s) (hv : v = BitVec.ofInt 64 x) :
    GivesHiLo i s True (word (x / 2 ^ 32)) (word x) :=
  givesHiLo_of_complete 0 hi fun _ => ⟨high32_eq_word hv, low32_eq_word hv⟩

/-- The two halves of a product of doublewords. -/
theorem givesHiLo_of_product128 {p : BitVec 128} {x : Int} (h64 : is64 s = true)
    (hi : exec i s = requireIs64 s (complete (writeHiLo (p.extractLsb' 64 64) (p.extractLsb' 0 64) s)))
    (hp : p = BitVec.ofInt 128 x) : GivesHiLo i s True (dword (x / 2 ^ 64)) (dword x) := by
  refine givesHiLo_of_complete 0 (hi.trans (requireIs64_enabled h64 _)) fun _ => ?_
  rw [hp, extractLsb'_ofInt (by decide), extractLsb'_ofInt (by decide), pow_zero, Int.ediv_one]
  exact ⟨rfl, rfl⟩

end Products

theorem signExtend_mul (a b : Dword) : a.signExtend 128 * b.signExtend 128 = BitVec.ofInt 128 (a.toInt * b.toInt) := by
  rw [BitVec.ofInt_mul]
  rfl

theorem dword_natCast (x : Nat) : dword (x : Int) = BitVec.ofNat 64 x := BitVec.ofInt_natCast 64 x

/-- `MUL` writes a general register over free values in `HI` and `LO` (42_integer_impl_specific.md rule R403). -/
theorem mul_does (s : State) (rs rt rd : RegNum) :
    Does (.mul rs rt rd) s (fun t => Holds t rd (word (lowsval s rs * lowsval s rt)) ∧ KeepsGprBut rd s t ∧ t.fpu = s.fpu ∧
      KeepsControl s t ∧ t.llBit = s.llBit ∧ KeepsRest s t ∧ KeepsMem s t ∧ Continues s t) := by
  obtain ⟨t, hnext, hholds, hgpr, -, hfpu, hcontrol, hlink, hrest, hmem, hpc⟩ :=
    writeResult_gives (writeHiLo (s.free 0) (s.free 1) (s.drew 2)) rd (sext32 (low32 (signedProduct s rs rt)))
  exact ⟨t, hnext, low32_eq_word (signedProduct_eq s rs rt) ▸ hholds, hgpr, hfpu, hcontrol, hlink, hrest, hmem, hpc⟩

/-- Settles O34: each product is the exact one in a width that holds it, and `HI` and `LO` are its halves. -/
theorem multiplies : Obligations.Multiplies := by
  intro s rs rt rd
  refine ⟨givesHiLo_of_product rfl (signedProduct_eq s rs rt), givesHiLo_of_product rfl (unsignedProduct_eq s rs rt),
    givesHiLo_of_hiLoWords rfl ?_, givesHiLo_of_hiLoWords rfl ?_, mul_does s rs rt rd, fun h64 =>
    ⟨givesHiLo_of_product128 h64 rfl (signExtend_mul _ _), ?_⟩⟩
  · rw [BitVec.ofInt_add, accumulator_eq, signedProduct_eq]
  · rw [BitVec.ofInt_add, accumulator_eq, unsignedProduct_eq]
  · have h := givesHiLo_of_product128 (i := .dmultu rs rt) h64 rfl (zeroExtend_mul _ _)
    rwa [dword_natCast, show (2 : Int) ^ 64 = (2 ^ 64 : Nat) by norm_num, ← Int.natCast_ediv, dword_natCast] at h

/-! ## Division -/

theorem toInt_eq_zero_iff {w : Nat} (b : BitVec w) : b.toInt = 0 ↔ b = 0 := by
  rw [← BitVec.toInt_inj (y := 0)]
  simp

/-- The quotient truncated toward zero, but for the one that overflows. -/
theorem toInt_sdiv_of_not_overflow {w : Nat} {a b : BitVec w} (h : ¬(a = BitVec.intMin w ∧ b = BitVec.allOnes w)) :
    (a.sdiv b).toInt = a.toInt.tdiv b.toInt := by
  refine BitVec.toInt_sdiv_of_ne_or_ne a b ?_
  rw [BitVec.neg_one_eq_allOnes]
  exact not_and_or.1 h

theorem word_overflow_iff (a b : Word) : (a = 0x80000000 ∧ b = BitVec.allOnes 32) ↔ (a.toInt = -(2 ^ 31) ∧ b.toInt = -1) :=
  and_congr (BitVec.toInt_inj (y := 0x80000000)).symm (BitVec.toInt_inj (y := BitVec.allOnes 32)).symm

theorem dword_overflow_iff (a b : Dword) :
    (a = 0x8000000000000000 ∧ b = BitVec.allOnes 64) ↔ (a.toInt = -(2 ^ 63) ∧ b.toInt = -1) :=
  and_congr (BitVec.toInt_inj (y := 0x8000000000000000)).symm (BitVec.toInt_inj (y := BitVec.allOnes 64)).symm

/-- `DIV` (44_computational.md rule R532). -/
theorem div_gives (s : State) (rs rt : RegNum) :
    GivesHiLo (.div rs rt) s
      (IsWord s rs ∧ IsWord s rt ∧ sval s rt ≠ 0 ∧ ¬(sval s rs = -(2 ^ 31) ∧ sval s rt = -1))
      (word ((sval s rs).tmod (sval s rt))) (word ((sval s rs).tdiv (sval s rt))) := by
  refine givesHiLo_of_ite rfl ?_ ?_
  · rintro ⟨hrs, hrt, hzero, hover⟩
    rw [← toInt_low32_of_isWord hrs, ← toInt_low32_of_isWord hrt, ← word_overflow_iff] at hover
    rw [← toInt_low32_of_isWord hrt, ne_eq, toInt_eq_zero_iff] at hzero
    simpa [(bothWords_iff s rs rt).2 ⟨hrs, hrt⟩] using ⟨hzero, not_and_or.1 hover⟩
  · rintro ⟨hrs, hrt, -, hover⟩
    rw [← toInt_low32_of_isWord hrs, ← toInt_low32_of_isWord hrt] at hover ⊢
    rw [sext32_eq_word_toInt, sext32_eq_word_toInt, BitVec.toInt_srem,
      toInt_sdiv_of_not_overflow fun h => hover ((word_overflow_iff _ _).1 h)]
    exact ⟨rfl, rfl⟩

/-- `DIVU` (rule R533). -/
theorem divu_gives (s : State) (rs rt : RegNum) :
    GivesHiLo (.divu rs rt) s (IsWord s rs ∧ IsWord s rt ∧ lowval s rt ≠ 0)
      (word ((lowval s rs % lowval s rt : Nat) : Int)) (word ((lowval s rs / lowval s rt : Nat) : Int)) := by
  refine givesHiLo_of_ite rfl ?_ fun _ => ?_
  · rintro ⟨hrs, hrt, hzero⟩
    have hne : low32 (readGpr s rt) ≠ 0 := fun h => hzero (by rw [lowval_eq, h]; rfl)
    rw [(bothWords_iff s rs rt).2 ⟨hrs, hrt⟩, Bool.true_and, bne_iff_ne]
    exact hne
  · rw [sext32_eq_word, sext32_eq_word, BitVec.toNat_umod, BitVec.toNat_udiv, lowval_eq, lowval_eq]
    exact ⟨rfl, rfl⟩

/-- `DDIV` (rule R536). -/
theorem ddiv_gives {s : State} (h64 : is64 s = true) (rs rt : RegNum) :
    GivesHiLo (.ddiv rs rt) s (sval s rt ≠ 0 ∧ ¬(sval s rs = -(2 ^ 63) ∧ sval s rt = -1))
      (dword ((sval s rs).tmod (sval s rt))) (dword ((sval s rs).tdiv (sval s rt))) := by
  refine givesHiLo_of_ite ((requireIs64_enabled h64 _).trans (ite_not ..).symm) ?_ ?_
  · rintro ⟨hzero, hover⟩
    rw [sval, ne_eq, toInt_eq_zero_iff] at hzero
    rw [sval, sval, ← dword_overflow_iff] at hover
    simpa using ⟨hzero, not_and.1 hover⟩
  · rintro ⟨-, hover⟩
    have hquot := toInt_sdiv_of_not_overflow fun h => hover ((dword_overflow_iff _ _).1 h)
    rw [sval, sval, ← BitVec.toInt_srem, ← hquot, dword, dword, BitVec.ofInt_toInt, BitVec.ofInt_toInt]
    exact ⟨rfl, rfl⟩

/-- `DDIVU` (rule R537). -/
theorem ddivu_gives {s : State} (h64 : is64 s = true) (rs rt : RegNum) :
    GivesHiLo (.ddivu rs rt) s (uval s rt ≠ 0) (BitVec.ofNat 64 (uval s rs % uval s rt))
      (BitVec.ofNat 64 (uval s rs / uval s rt)) := by
  refine givesHiLo_of_ite ((requireIs64_enabled h64 _).trans (ite_not ..).symm) (fun hzero h => hzero ?_) fun _ =>
    ⟨eq_ofNat_of_toNat BitVec.toNat_umod, eq_ofNat_of_toNat BitVec.toNat_udiv⟩
  rw [uval, beq_iff_eq.1 h]
  rfl

/-- Settles O35: the tests before each division are exactly that its quotient is defined. -/
theorem divides : Obligations.Divides := fun s rs rt =>
  ⟨div_gives s rs rt, divu_gives s rs rt, fun h64 => ⟨ddiv_gives h64 rs rt, ddivu_gives h64 rs rt⟩⟩

/-! ## Moves -/

/-- Settles O36: a move from `HI` or `LO` writes a general register, a move to one of them rewrites the other. -/
theorem hiLoMoves : Obligations.HiLoMoves := fun _ _ _ =>
  ⟨gives_of_writeResult rfl rfl, gives_of_writeResult rfl rfl, givesHiLo_of_complete 0 rfl fun _ => ⟨rfl, rfl⟩,
    givesHiLo_of_complete 0 rfl fun _ => ⟨rfl, rfl⟩⟩

end Sys2Proof.Proofs

/-! # Jumps and branches

An instruction here answers by `jumpTo`, `branch` or `branchLikely`, from the state itself or from that with its link
register written; `afterLink` names both, so that what each form does outside and inside a delay slot is said once. What
remains is where it goes (`jumpDest_eq`, `branchDest_eq`) and which condition on numbers its test decides. -/

namespace Sys2Proof.Proofs

open Sys2Proof.Machine Sys2Proof.Safety Sys2Proof.Laws

/-! ## Targets -/

/-- The target of a jump keeps the 256 MB region of its slot (45_jump_branch.md rule R570). -/
theorem jumpDest_eq (s : State) (target : BitVec 26) :
    jumpDest s target = BitVec.ofNat 64 ((s.pc + 4).toNat / 2 ^ 28 * 2 ^ 28 + target.toNat * 4) := by
  have hpc := (s.pc + 4).isLt
  have htarget := target.isLt
  apply eq_ofNat_of_toNat
  rw [jumpDest, BitVec.toNat_append, ← Nat.shiftLeft_add_eq_or_of_lt (BitVec.isLt _), BitVec.toNat_append,
    ← Nat.shiftLeft_add_eq_or_of_lt htarget, BitVec.extractLsb'_toNat]
  simp only [Nat.shiftLeft_eq, Nat.shiftRight_eq_div_pow, BitVec.toNat_ofNat]
  omega

/-- The target of a branch is relative to its slot (rule R562). -/
theorem branchDest_eq (s : State) (offset : BitVec 16) : branchDest s offset = branchTo s offset := by
  rw [branchDest, branchTo, BitVec.signExtend, BitVec.toInt_append_zero, mul_comm]
  rfl

/-! ## Conditions -/

section Conditions

variable (s : State) (rs rt : RegNum)

theorem readGpr_beq_iff : (readGpr s rs == readGpr s rt) = true ↔ uval s rs = uval s rt :=
  beq_iff_eq.trans BitVec.toNat_inj.symm

theorem readGpr_bne_iff : (readGpr s rs != readGpr s rt) = true ↔ uval s rs ≠ uval s rt :=
  bne_iff_ne.trans BitVec.toNat_inj.symm.not

theorem isNegative_iff : isNegative s rs = true ↔ sval s rs < 0 := by
  rw [sval, ← decide_eq_true_iff (p := (readGpr s rs).toInt < 0), ← BitVec.msb_eq_toInt, BitVec.msb_eq_getLsbD_last]
  rfl

theorem isNonPositive_iff : isNonPositive s rs = true ↔ sval s rs ≤ 0 := by
  rw [isNonPositive, Bool.or_eq_true, isNegative_iff, beq_iff_eq, ← toInt_eq_zero_iff, ← sval, le_iff_lt_or_eq]

theorem not_isNegative_iff : (!isNegative s rs) = true ↔ 0 ≤ sval s rs := by
  rw [Bool.not_eq_true', ← Bool.not_eq_true, isNegative_iff, not_lt]

theorem not_isNonPositive_iff : (!isNonPositive s rs) = true ↔ 0 < sval s rs := by
  rw [Bool.not_eq_true', ← Bool.not_eq_true, isNonPositive_iff, not_le]

end Conditions

/-! ## The link register -/

/-- The state from which a jump or branch goes on: its link register, if there is one, is written (rule R564). -/
def afterLink (l : Option RegNum) (s : State) : State :=
  match l with
  | some r => link r s
  | none => s

@[simp] theorem afterLink_pc (l : Option RegNum) (s : State) : (afterLink l s).pc = s.pc := by
  cases l <;> simp [afterLink, link]

@[simp] theorem afterLink_inDelaySlot (l : Option RegNum) (s : State) :
    (afterLink l s).inDelaySlot = s.inDelaySlot := by
  cases l <;> simp [afterLink, link]

theorem enterSlot_afterLink (l : Option RegNum) (s : State) (target : Dword) :
    OnlyLink l s (enterSlot target (afterLink l s)) ∧ EntersSlot target s (enterSlot target (afterLink l s)) := by
  cases l with
  | some r => exact onlyLink_enterSlot s r target
  | none => exact onlyLink_none_enterSlot s target

/-- Skipping the slot and entering it differ only in where the program goes on. -/
theorem onlyLink_nullifySlot_afterLink (l : Option RegNum) (s : State) :
    OnlyLink l s (nullifySlot (afterLink l s)) := by
  cases l with
  | some r => exact (onlyLink_enterSlot s r 0).1
  | none => exact (onlyLink_none_enterSlot s 0).1

/-! ## Outside a delay slot -/

theorem jumpTo_outside {s : State} (h : s.inDelaySlot = false) (target : Dword) :
    jumpTo target s = .next (enterSlot target s) := by
  rw [jumpTo, h, if_neg Bool.false_ne_true]

section Outside

variable {s : State} {i : Instr} (hslot : s.inDelaySlot = false) (l : Option RegNum)
include hslot

theorem does_of_jumpTo {target x : Dword} (hi : exec i s = jumpTo target (afterLink l s)) (hx : target = x) :
    Does i s (fun t => OnlyLink l s t ∧ EntersSlot x s t) :=
  ⟨_, hi.trans (jumpTo_outside ((afterLink_inDelaySlot l s).trans hslot) target), hx ▸ enterSlot_afterLink l s target⟩

/-- Both outcomes of an ordinary branch enter the slot (rule R560). -/
theorem branches_of_branch {taken : Bool} {p : Prop} {offset : BitVec 16}
    (hi : exec i s = branch taken (branchDest s offset) (afterLink l s)) (hp : taken = true ↔ p) :
    Branches i s p offset l := by
  obtain ⟨t, hnext, honly, henters⟩ := does_of_jumpTo hslot l hi rfl
  refine ⟨t, hnext, honly, fun h => ?_, fun h => ?_⟩
  · rwa [if_pos (hp.2 h), branchDest_eq] at henters
  · rwa [if_neg (mt hp.1 h), afterLink_pc] at henters

/-- A branch-likely enters its slot when taken and skips it when not (rule R560). -/
theorem branchesLikely_of_branchLikely {taken : Bool} {p : Prop} {offset : BitVec 16}
    (hi : exec i s = branchLikely taken (branchDest s offset) (afterLink l s)) (hp : taken = true ↔ p) :
    BranchesLikely i s p offset l := by
  have hout : (afterLink l s).inDelaySlot = false := (afterLink_inDelaySlot l s).trans hslot
  cases taken with
  | true =>
    obtain ⟨t, hnext, honly, henters⟩ := does_of_jumpTo hslot l hi (branchDest_eq s offset)
    exact ⟨t, hnext, honly, fun _ => henters, fun h => absurd (hp.1 rfl) h⟩
  | false =>
    refine ⟨nullifySlot (afterLink l s), ?_, onlyLink_nullifySlot_afterLink l s,
      fun h => absurd (hp.2 h) Bool.false_ne_true, fun _ => ⟨?_, hout⟩⟩
    · rw [hi, branchLikely, if_neg Bool.false_ne_true, hout, if_neg Bool.false_ne_true]
    · rw [nullifySlot_pc, afterLink_pc]

end Outside

/-- Settles O37: each jump is `jumpTo`, after the link register where there is one. -/
theorem jumps : Obligations.Jumps := by
  intro s rs rd target hslot region
  have hregion : jumpDest s target = region := jumpDest_eq s target
  exact ⟨does_of_jumpTo hslot none rfl hregion, does_of_jumpTo hslot (some 31) rfl hregion,
    does_of_jumpTo hslot none rfl rfl, does_of_jumpTo hslot (some rd) rfl rfl⟩

/-- Settles O38: the test of each branch is its condition on the numbers in the registers. -/
theorem conditionalBranches : Obligations.ConditionalBranches := fun s rs rt _ hslot =>
  ⟨branches_of_branch hslot none rfl (readGpr_beq_iff s rs rt), branches_of_branch hslot none rfl (readGpr_bne_iff s rs rt),
    branches_of_branch hslot none rfl (isNonPositive_iff s rs),
    branches_of_branch hslot none rfl (not_isNonPositive_iff s rs),
    branches_of_branch hslot none rfl (isNegative_iff s rs), branches_of_branch hslot none rfl (not_isNegative_iff s rs),
    branches_of_branch hslot (some 31) rfl (isNegative_iff s rs),
    branches_of_branch hslot (some 31) rfl (not_isNegative_iff s rs)⟩

/-- Settles O39: the same tests decide between the slot and the instruction after it. -/
theorem likelyBranches : Obligations.LikelyBranches := fun s rs rt _ hslot =>
  ⟨branchesLikely_of_branchLikely hslot none rfl (readGpr_beq_iff s rs rt),
    branchesLikely_of_branchLikely hslot none rfl (readGpr_bne_iff s rs rt),
    branchesLikely_of_branchLikely hslot none rfl (isNonPositive_iff s rs),
    branchesLikely_of_branchLikely hslot none rfl (not_isNonPositive_iff s rs),
    branchesLikely_of_branchLikely hslot none rfl (isNegative_iff s rs),
    branchesLikely_of_branchLikely hslot none rfl (not_isNegative_iff s rs),
    branchesLikely_of_branchLikely hslot (some 31) rfl (isNegative_iff s rs),
    branchesLikely_of_branchLikely hslot (some 31) rfl (not_isNegative_iff s rs)⟩

/-! ## In a delay slot (rule R561) -/

theorem requireFpMips4_enabled {s : State} (h : isMips4 s = true) (needed : Bool) (k : Out) :
    requireFpMips4 needed s k = k := by
  rw [requireFpMips4, h, Bool.not_true, Bool.and_false, if_neg Bool.false_ne_true]

section InSlot

variable {s : State} (hslot : s.inDelaySlot = true)
include hslot

theorem jumpTo_inSlot (l : Option RegNum) (target : Dword) :
    jumpTo target (afterLink l s) = .fault .branchInDelaySlot := by
  rw [jumpTo, afterLink_inDelaySlot, if_pos hslot]

theorem branch_inSlot (l : Option RegNum) (taken : Bool) (target : Dword) :
    branch taken target (afterLink l s) = .fault .branchInDelaySlot :=
  jumpTo_inSlot hslot l _

theorem branchLikely_inSlot (l : Option RegNum) (taken : Bool) (target : Dword) :
    branchLikely taken target (afterLink l s) = .fault .branchInDelaySlot := by
  rw [branchLikely, jumpTo_inSlot hslot, afterLink_inDelaySlot, if_pos hslot, ite_self]

/-- The enabling tests of a branch on a floating-point condition come before the stop (48_fpu.md rule R735). -/
theorem fpBranch_inSlot (hcu1 : s.status.cu1 = true) (hmips4 : isMips4 s = true) (likely tf : Bool) (cc : BitVec 3)
    (offset : BitVec 16) : fpBranch likely tf cc offset s = .fault .branchInDelaySlot := by
  rw [fpBranch, requireCu1_usable hcu1, requireFpMips4_enabled hmips4]
  cases likely with
  | true => exact branchLikely_inSlot hslot none _ _
  | false => exact branch_inSlot hslot none _ _

end InSlot

/-- Settles O40: every form of answer stops in a slot, the link register written or not, taken or not. -/
theorem branchInDelaySlotStops : Obligations.BranchInDelaySlotStops := by
  intro s rs rt rd offset target cc hslot
  simp only [List.forall_mem_cons, List.not_mem_nil, false_imp_iff, implies_true, and_true]
  have hbranch := branch_inSlot hslot
  have hlikely := branchLikely_inSlot hslot
  refine ⟨⟨?j, ?jal, ?jr, ?jalr, hbranch none _ _, hbranch none _ _, hbranch none _ _, hbranch none _ _,
    hbranch none _ _, hbranch none _ _, hbranch (some 31) _ _, hbranch (some 31) _ _, hlikely none _ _,
    hlikely none _ _, hlikely none _ _, hlikely none _ _, hlikely none _ _, hlikely none _ _, hlikely (some 31) _ _,
    hlikely (some 31) _ _⟩, fun hcu1 hmips4 => ?bc1⟩
  case j | jr => exact jumpTo_inSlot hslot none _
  case jal => exact jumpTo_inSlot hslot (some 31) _
  case jalr => exact jumpTo_inSlot hslot (some rd) _
  case bc1 =>
    have hfp := fpBranch_inSlot hslot hcu1 hmips4
    exact ⟨hfp false false cc offset, hfp false true cc offset, hfp true false cc offset, hfp true true cc offset⟩

end Sys2Proof.Proofs

/-! # System calls, traps, and the absent coprocessor 2

An instruction here answers by `raise`, by `trapIf` or by `absentCop2`. None of the exceptions they raise has a failing
address, so one lemma says what raising does (`does_of_raise`); what remains of a conditional trap is which condition on
numbers its test decides. -/

namespace Sys2Proof.Proofs

open Sys2Proof.Machine Sys2Proof.Safety Sys2Proof.Laws

/-! ## Comparisons as conditions on numbers -/

section Comparisons

variable (a b : Dword)

theorem signedLt_iff : signedLt a b = true ↔ a.toInt < b.toInt :=
  decide_eq_true_iff

theorem not_signedLt_iff : (!signedLt a b) = true ↔ b.toInt ≤ a.toInt := by
  rw [Bool.not_eq_true', ← Bool.not_eq_true, signedLt_iff, not_lt]

theorem unsignedLt_iff : unsignedLt a b = true ↔ a.toNat < b.toNat :=
  decide_eq_true_iff

theorem not_unsignedLt_iff : (!unsignedLt a b) = true ↔ b.toNat ≤ a.toNat := by
  rw [Bool.not_eq_true', ← Bool.not_eq_true, unsignedLt_iff, not_lt]

theorem beq_iff_toInt : (a == b) = true ↔ a.toInt = b.toInt :=
  beq_iff_eq.trans BitVec.toInt_inj.symm

theorem bne_iff_toInt : (a != b) = true ↔ a.toInt ≠ b.toInt :=
  bne_iff_ne.trans BitVec.toInt_inj.symm.not

end Comparisons

theorem sext16_eq_dword (imm : BitVec 16) : sext16 imm = dword imm.toInt := by
  rw [sext16, BitVec.signExtend, dword]

/-! ## Answers that raise an exception without a failing address -/

section Raising

variable {s : State} {i : Instr}

/-- An exception that loads none of the registers of a failing address. -/
theorem does_of_raise {e : Exc} (hi : exec i s = raise e s) (hload : KeepsFaultAddress s (loadExc e s)) :
    Does i s (fun t => TakesGeneral (excCode e) (excOffset e) s t ∧ KeepsFaultAddress s t) :=
  ⟨_, hi, takesGeneral_takeException e s, keepsFaultAddress_takeException hload⟩

/-- The two outcomes of a conditional trap (46_special_trap.md rule R604). -/
theorem trapsWhen_of_trapIf {c : Bool} {p : Prop} (hi : exec i s = trapIf c s) (hc : c = true ↔ p) :
    TrapsWhen i s p := by
  constructor
  · intro hp
    exact does_of_raise (hi.trans (if_pos (hc.2 hp))) ⟨rfl, rfl, rfl, rfl, rfl, rfl⟩
  · intro hp
    exact ⟨_, hi.trans (if_neg (mt hc.1 hp)), onlyPc_advance s⟩

end Raising

theorem absentCop2_unusable {s : State} (h : s.cp0.status.cu2 = false) : absentCop2 s = raise (.cpU 2) s := by
  rw [absentCop2, State.status, h, if_neg Bool.false_ne_true]

theorem absentCop2_usable {s : State} (h : s.cp0.status.cu2 = true) : absentCop2 s = raise .ri s := by
  rw [absentCop2, State.status, if_pos h]

/-- Settles O48: each conditional trap is `trapIf` of the comparison of its operands, the immediate sign-extended. -/
theorem systemCallsAndTraps : Obligations.SystemCallsAndTraps := by
  intro s rs rt code c imm stype
  refine ⟨?syscall, ?brk, ?sync, ?tge, ?tgeu, ?tlt, ?tltu, ?teq, ?tne, ?tgei, ?tgeiu, ?tlti, ?tltiu, ?teqi, ?tnei⟩
  case syscall => exact does_of_raise (e := .sys) rfl ⟨rfl, rfl, rfl, rfl, rfl, rfl⟩
  case brk => exact does_of_raise (e := .bp) rfl ⟨rfl, rfl, rfl, rfl, rfl, rfl⟩
  case sync => exact ⟨_, rfl, onlyPc_advance s⟩
  case tge => exact trapsWhen_of_trapIf rfl (not_signedLt_iff _ _)
  case tgeu => exact trapsWhen_of_trapIf rfl (not_unsignedLt_iff _ _)
  case tlt => exact trapsWhen_of_trapIf rfl (signedLt_iff _ _)
  case tltu => exact trapsWhen_of_trapIf rfl (unsignedLt_iff _ _)
  case teq => exact trapsWhen_of_trapIf rfl (readGpr_beq_iff s rs rt)
  case tne => exact trapsWhen_of_trapIf rfl (readGpr_bne_iff s rs rt)
  case tgeiu =>
    rw [← sext16_eq_dword]
    exact trapsWhen_of_trapIf rfl (not_unsignedLt_iff _ _)
  case tltiu =>
    rw [← sext16_eq_dword]
    exact trapsWhen_of_trapIf rfl (unsignedLt_iff _ _)
  all_goals rw [← toInt_sext16 imm]
  case tgei => exact trapsWhen_of_trapIf rfl (not_signedLt_iff _ _)
  case tlti => exact trapsWhen_of_trapIf rfl (signedLt_iff _ _)
  case teqi => exact trapsWhen_of_trapIf rfl (beq_iff_toInt _ _)
  case tnei => exact trapsWhen_of_trapIf rfl (bne_iff_toInt _ _)

/-- Settles O49: the meaning of each of the five encodings is `absentCop2`, whatever its operands. -/
theorem coprocessorTwoIsAbsent : Obligations.CoprocessorTwoIsAbsent := by
  intro s base rt offset cofun i hi
  have hexec : exec i s = absentCop2 s := by
    simp only [List.mem_cons, List.not_mem_nil, or_false] at hi
    obtain rfl | rfl | rfl | rfl | rfl := hi <;> rfl
  constructor
  · intro hcu2
    obtain ⟨t, ht, hkeeps, hgeneral, hunit⟩ := raise_cpU_takesGeneral 2 s
    exact ⟨t, (hexec.trans (absentCop2_unusable hcu2)).trans ht, hgeneral, hunit, hkeeps⟩
  · intro hcu2
    exact does_of_raise (hexec.trans (absentCop2_usable hcu2)) ⟨rfl, rfl, rfl, rfl, rfl, rfl⟩

end Sys2Proof.Proofs

/-! # Conditional moves and prefetch

A conditional move is `moveIf` of a test of a register or of a condition code. A prefetch of an address that translates
completes over the state its effect leaves (`prefetch_translated`), and the effect (`prefetchEffect`) is said once per
case: an uncached page, each cache level, a hit, a miss. What is left of each clause is the frame of completing over that
state: nothing but free values drawn (`does_onlyPc_of_drew`), the line's bytes in memory (`does_onlyMem`), or a line of the
data cache (`CompletesOver`). -/

namespace Sys2Proof.Proofs

open Sys2Proof.Machine Sys2Proof.Safety Sys2Proof.Laws

/-! ## Conditional moves (47_mips4_additions.md rules R631 to R634) -/

theorem readGpr_beq_zero_iff (s : State) (r : RegNum) : (readGpr s r == 0) = true ↔ uval s r = 0 :=
  beq_iff_eq.trans BitVec.toNat_inj.symm

theorem readGpr_bne_zero_iff (s : State) (r : RegNum) : (readGpr s r != 0) = true ↔ uval s r ≠ 0 :=
  bne_iff_ne.trans BitVec.toNat_inj.symm.not

/-- An instruction that ends as the state does before it, but for free values drawn, changes nothing but `pc`. -/
theorem does_onlyPc_of_drew {i : Instr} {s : State} {n : Nat} (h : exec i s = complete (s.drew n)) :
    Does i s (OnlyPc s) := ⟨_, h, onlyPc_advance (s.drew n)⟩

theorem movesWhen_of_moveIf {i : Instr} {s : State} {rs rd : RegNum} {c : Bool} {p : Prop}
    (hi : exec i s = moveIf c rs rd s) (hc : c = true ↔ p) : MovesWhen i s p rd (readGpr s rs) := by
  constructor
  · intro hp
    exact gives_of_writeResult (hi.trans (if_pos (hc.2 hp))) rfl
  · intro hp
    exact does_onlyPc_of_drew (n := 0) (hi.trans (if_neg (mt hc.1 hp)))

/-! ## What a prefetch comes down to (rule R640) -/

/-- Hint 30 of revision 2.x (rule R641). -/
def Zeroing (hint : BitVec 5) (s : State) : Prop := hint = 30 ∧ 0x20 ≤ s.params.rev.toNat

theorem zeroing_iff (hint : BitVec 5) (s : State) :
    (hint == 30 && decide (0x20 ≤ s.params.rev.toNat)) = true ↔ Zeroing hint s := by
  rw [Bool.and_eq_true, beq_iff_eq, decide_eq_true_iff, Zeroing]

/-- What a prefetch of a translated address does before it completes (`prefetch_translated`). -/
def prefetchEffect (hint : BitVec 5) (pa : PAddr) (attr : BitVec 3) (s : State) : Except Stop State :=
  if uncached attr then .ok s
  else if hint == 30 && decide (0x20 ≤ s.params.rev.toNat) then prepareForStore pa attr s
  else prefetchLine pa attr s

section Prefetch

variable {hint : BitVec 5} {baseValue va : Dword} {s : State}

theorem region_bne_iff (a b : Dword) :
    (a.extractLsb' 62 2 != b.extractLsb' 62 2) = true ↔ b.toNat / 2 ^ 62 ≠ a.toNat / 2 ^ 62 := by
  rw [bne_iff_ne, ← BitVec.toNat_ne_iff_ne, region_toNat, region_toNat, ne_comm]

theorem prefetch_outside (h : va.toNat / 2 ^ 62 ≠ baseValue.toNat / 2 ^ 62) :
    prefetch hint baseValue va s = .fault .prefetchRegion := if_pos ((region_bne_iff _ _).2 h)

variable (hregion : va.toNat / 2 ^ 62 = baseValue.toNat / 2 ^ 62)
include hregion

theorem prefetch_untranslated {e : Exc} (h : Machine.translate .load va s = .error (.exc e s)) :
    prefetch hint baseValue va s = complete s := by
  rw [prefetch, if_neg (mt (region_bne_iff _ _).1 (not_not.2 hregion)), h]

theorem prefetch_translated {pa : PAddr} {attr : BitVec 3} (h : Machine.translate .load va s = .ok (pa, attr)) :
    prefetch hint baseValue va s = onOk (prefetchEffect hint pa attr s) complete := by
  rw [prefetch, if_neg (mt (region_bne_iff _ _).1 (not_not.2 hregion)), h]
  unfold prefetchEffect
  dsimp only
  split
  · rfl
  · split <;> rfl

end Prefetch

section Effect

variable {hint : BitVec 5} {pa : PAddr} {attr : BitVec 3} {s : State}

theorem uncached_iff (attr : BitVec 3) : uncached attr = true ↔ attr = 2 ∨ attr = 6 := by
  rw [uncached, Bool.or_eq_true, beq_iff_eq, beq_iff_eq]

theorem cached_of_throughCaches (h : ThroughCaches s attr) : ¬uncached attr = true := fun hu =>
  ((uncached_iff attr).1 hu).elim h.2.1 h.2.2

theorem prefetchEffect_uncached (h : uncached attr = true) : prefetchEffect hint pa attr s = .ok s := if_pos h

theorem prefetchEffect_zeroing (h : ¬uncached attr = true) (hz : Zeroing hint s) :
    prefetchEffect hint pa attr s = prepareForStore pa attr s :=
  (if_neg h).trans (if_pos ((zeroing_iff hint s).2 hz))

theorem prefetchEffect_other (h : ¬uncached attr = true) (hz : ¬Zeroing hint s) :
    prefetchEffect hint pa attr s = prefetchLine pa attr s :=
  (if_neg h).trans (if_neg (mt (zeroing_iff hint s).1 hz))

end Effect

/-! ## Transparent caches -/

section Transparent

variable {hint : BitVec 5} {pa : PAddr} {attr : BitVec 3} {s : State} (h : Transparent s)
include h

theorem prefetchEffect_transparent (hz : ¬Zeroing hint s) : prefetchEffect hint pa attr s = .ok s := by
  by_cases hu : uncached attr = true
  · exact prefetchEffect_uncached hu
  · rw [prefetchEffect_other hu hz, prefetchLine, if_neg (Bool.eq_false_iff.1 h)]

/-- Hint 30 may put zeros in the line (rule R641; that it may also do nothing is log entry 39). -/
theorem prepareForStore_transparent :
    prepareForStore pa attr s = .ok (s.drew 1) ∨ prepareForStore pa attr s = .ok (zeroLine pa (s.drew 1)) := by
  rw [prepareForStore, if_neg (Bool.eq_false_iff.1 h)]
  split
  · exact .inr rfl
  · exact .inl rfl

/-- Whatever the hint, the effect draws free values at most or puts zeros in the line. -/
theorem prefetchEffect_transparent_cases :
    (∃ n, prefetchEffect hint pa attr s = .ok (s.drew n)) ∨
      prefetchEffect hint pa attr s = .ok (zeroLine pa (s.drew 1)) := by
  by_cases hz : Zeroing hint s
  · by_cases hu : uncached attr = true
    · exact .inl ⟨0, prefetchEffect_uncached hu⟩
    · rw [prefetchEffect_zeroing hu hz]
      exact (prepareForStore_transparent h).imp_left fun hkeep => ⟨1, hkeep⟩
  · exact .inl ⟨0, prefetchEffect_transparent h hz⟩

end Transparent

theorem lineByte_zero (j : Nat) : lineByte 0 j = 0 := by simp [lineByte]

/-- A line of zeros changes memory and the record of earlier values. -/
theorem zeroLine_eq (pa : PAddr) (s : State) : ∃ mem stale, zeroLine pa s = { s with mem := mem, stale := stale } ∧
    (∀ a, ¬(pa.toNat / 32 * 32 ≤ a ∧ a < pa.toNat / 32 * 32 + 32) → Memory.read mem a = Memory.read s.mem a) ∧
    (Memory.wf s.mem = true → ∀ a, pa.toNat / 32 * 32 ≤ a → a < pa.toNat / 32 * 32 + 32 → Memory.read mem a = 0) :=
  ⟨_, _, by unfold zeroLine; rfl, fun a ha => read_writeLine_other s.mem (lineAddr pa) a 0 ha, fun hw a hlow hhigh => by
    rw [read_writeLine s.mem (lineAddr pa) 0 hw a, if_pos ⟨hlow, hhigh⟩, lineByte_zero]⟩

/-- An instruction that leaves the caches alone and changes the `n` bytes of memory from `a` at most. -/
theorem does_onlyMem {i : Instr} {s u : State} {a n : Nat} {P : State → Prop} (hu : MemSide s u)
    (hi : exec i s = complete u) (hcaches : u.caches = s.caches) (hmem : KeepsMemBut a n s u) (hP : P u)
    (hstable : OfMemSystem P := by exact fun _ _ _ _ _ _ h => h) : Does i s (fun t => OnlyMem a n s t ∧ P t) := by
  obtain ⟨t, hnext, ⟨hgpr, hhilo, hfpu, hcontrol, hlink, hrest, hcont⟩, hcaches', hmem', hP'⟩ :=
    (completesOver_complete hu hi).does (P := fun t => t.caches = s.caches ∧ KeepsMemBut a n s t ∧ P t)
      ⟨hcaches, hmem, hP⟩ fun u gpr cp0 link pc slot ⟨hc, hm, hP⟩ => ⟨hc, hm, hstable u gpr cp0 link pc slot hP⟩
  exact ⟨t, hnext, ⟨hgpr, hhilo, hfpu, hcontrol, hlink, keepsRest_of_caches hrest hcaches', hmem', hcont⟩, hP'⟩

/-- A prefetch at the transparent level: its line reads as before, or as zeros. -/
theorem does_transparentPrefetch {i : Instr} {hint : BitVec 5} {pa : PAddr} {attr : BitVec 3} {s : State}
    (hi : exec i s = onOk (prefetchEffect hint pa attr s) complete) (h : Transparent s) :
    Does i s (fun t => OnlyMem (pa.toNat / 32 * 32) 32 s t ∧ (Memory.wf s.mem = true → KeepsMem s t ∨
      ∀ a, pa.toNat / 32 * 32 ≤ a → a < pa.toNat / 32 * 32 + 32 → Memory.read t.mem a = 0)) := by
  rcases prefetchEffect_transparent_cases (hint := hint) (pa := pa) (attr := attr) h with ⟨n, hkeep⟩ | hzero
  · rw [hkeep] at hi
    exact does_onlyMem (MemSide_drew s n) hi rfl (fun _ _ => rfl) fun _ => .inl fun _ => rfl
  · have hside := MemSide_trans (MemSide_drew s 1) (MemSide_zeroLine (s.drew 1) pa)
    obtain ⟨mem, stale, heq, hother, hzeros⟩ := zeroLine_eq pa (s.drew 1)
    rw [heq] at hzero hside
    rw [hzero] at hi
    exact does_onlyMem hside hi rfl hother fun hw => .inr (hzeros hw)

/-! ## Explicit caches: a hit -/

section Explicit

variable {hint : BitVec 5} {pa : PAddr} {attr : BitVec 3} {s : State}

theorem prepareForStore_hit (he : s.params.explicitCaches = true) {k : Nat} (hk : lookupD s pa = .ok (some k)) :
    prepareForStore pa attr s = .ok s := by
  rw [prepareForStore, if_pos he, hk]

theorem prefetchLine_hit (he : s.params.explicitCaches = true) {k : Nat} (hk : lookupD s pa = .ok (some k)) :
    prefetchLine pa attr s = .ok (s.drew 1) := by
  rw [prefetchLine, if_pos he, hk]
  exact ite_self _

theorem prefetchEffect_hit (ht : ThroughCaches s attr) {k : Nat} (hk : lookupD s pa = .ok (some k)) :
    ∃ n, prefetchEffect hint pa attr s = .ok (s.drew n) := by
  have hcached := cached_of_throughCaches ht
  by_cases hz : Zeroing hint s
  · exact ⟨0, (prefetchEffect_zeroing hcached hz).trans (prepareForStore_hit ht.1 hk)⟩
  · exact ⟨1, (prefetchEffect_other hcached hz).trans (prefetchLine_hit ht.1 hk)⟩

/-! ## Explicit caches: hint 30 on a miss (rule R641) -/

/-- The state after hint 30 has put a line of zeros in the data cache, memory then being `mem`. -/
def zeroFilled (pa : PAddr) (attr : BitVec 3) (mem : List Host.Cell) (s : State) : State :=
  let slot := slotD pa false s
  putD slot.line (newD pa attr true slot 0) ({ s with mem := mem }.drew 2)

theorem prefetchEffect_zeroFilled (ht : ThroughCaches s attr) (hz : Zeroing hint s) (hk : lookupD s pa = .ok none)
    {mem : List Host.Cell} (hevict : evictD pa false s = .ok (slotD pa false s, { s with mem := mem }.drew 2)) :
    prefetchEffect hint pa attr s = .ok (zeroFilled pa attr mem s) := by
  rw [prefetchEffect_zeroing (cached_of_throughCaches ht) hz, prepareForStore, if_pos ht.1, hk]
  simp only [hevict]
  rfl

theorem holdsLineD_zeroFilled (pa : PAddr) (attr : BitVec 3) (mem : List Host.Cell) (s : State) :
    HoldsLineD pa true s (zeroFilled pa attr mem s) (slotD pa false s).line ∧
      (dLine (zeroFilled pa attr mem s) (slotD pa false s).line).data = 0 := by
  have hline : dLine (zeroFilled pa attr mem s) (slotD pa false s).line = newD pa attr true (slotD pa false s) 0 :=
    dLine_putD_same _ _ _
  have honly : OnlyLineD (slotD pa false s).line s (zeroFilled pa attr mem s) := onlyLineD_putD _ _ _
  unfold HoldsLineD
  rw [hline]
  exact ⟨⟨slotD_ways pa false s, honly, rfl, rfl, rfl⟩, rfl⟩

theorem zeroFilled_side (pa : PAddr) (attr : BitVec 3) {mem : List Host.Cell} {s : State}
    (hw : Memory.wf s.mem = true → Memory.wf mem = true) : MemSide s (zeroFilled pa attr mem s) :=
  MemSide_trans (MemSide_setMem s mem s.stale hw) (MemSide_trans (MemSide_drew _ 2) (MemSide_putD _ _ _))

/-- With the lower caches off a modified line goes to main memory, whether or not it is a bypass line. -/
theorem writebackD_toMemory {a : PAddr} {x : DLine} (hs : secondaryOn s = false) (ht : tertiaryOn s = false)
    {mem : List Host.Cell} (hmain : mainWriteLine a x.data s = .ok { s with mem := mem }) :
    writebackD a x s = .ok { s with mem := mem } := by
  have hoff : ¬tertiaryOn { s with mem := mem } = true := Bool.eq_false_iff.1 ht
  have hbelow : writeBelow a x.data s = .ok { s with mem := mem } := by
    rw [writeBelow, hmain]
    exact if_neg hoff
  rw [writebackD, hmain, hs, hbelow, if_neg Bool.false_ne_true, ite_self]

/-- Emptying a slot over RAM: a modified line is written back, any other is dropped. -/
theorem evictD_toMemory {lock : Bool} (hs : secondaryOn s = false) (ht : tertiaryOn s = false)
    (hw : Memory.wf s.mem = true) (hram : ∀ k ∈ primaryWays pa, regionKind s (dLineAddr (dLine s k) k) = .ram) :
    let k := (slotD pa lock s).line
    ∃ mem, evictD pa lock s = .ok (slotD pa lock s, { s with mem := mem }.drew 2) ∧ Memory.wf mem = true ∧
      if (dLine s k).state = 3 ∧ (dLine s k).w = true
      then LineWritten s { s with mem := mem } (dLineAddr (dLine s k) k) (dLine s k).data
      else KeepsMem s { s with mem := mem } := by
  intro k
  have hdirty : ((dLine s k).state == 3 && (dLine s k).w) = true ↔ (dLine s k).state = 3 ∧ (dLine s k).w = true := by
    rw [Bool.and_eq_true, beq_iff_eq]
  by_cases hmod : (dLine s k).state = 3 ∧ (dLine s k).w = true
  · obtain ⟨mem, hmain, hwf, hline⟩ := mainWriteLine_ram (dLine s k).data (hram k (slotD_ways pa lock s)) hw
    refine ⟨mem, ?_, hwf, (if_pos hmod).symm ▸ hline⟩
    simp only [evictD, if_pos (hdirty.2 hmod), writebackD_toMemory hs ht hmain, k]
  · refine ⟨s.mem, ?_, hw, (if_neg hmod).symm ▸ fun _ => rfl⟩
    simp only [evictD, if_neg (mt hdirty.1 hmod), k]

/-! ## Explicit caches: every other hint on a miss (rule R640; log entry 39) -/

theorem prefetchLine_missesCleanly (he : s.params.explicitCaches = true) (h : MissesCleanly s pa attr) :
    prefetchLine pa attr s = .ok (s.drew 1) ∨ prefetchLine pa attr s = .ok (dataFilled pa attr true (s.drew 1)) := by
  have hfill : fillD pa attr true (s.drew 1) = .ok (filledSlot pa true (s.drew 1), dataFilled pa attr true (s.drew 1)) :=
    fillD_missesCleanly true h
  rw [prefetchLine, if_pos he, h.1]
  simp only [hfill]
  split
  · exact .inr rfl
  · exact .inl rfl

/-- A read of main memory that fails makes the fill fail as it does. -/
theorem fillD_unread (load : Bool) (hm : FillsFromMemory s attr) {e : Stop} (he : mainReadLine false pa s = .error e) :
    fillD pa attr load s = .error e := by
  have hsource : fillSource (attr == 3) false load pa s = .error e := by
    rcases hm with rfl | rfl | rfl | ⟨rfl, hs, ht⟩
    iterate 3 exact (if_neg (by decide)).trans (by rw [he])
    rw [fillSource, beq_self_eq_true, if_pos rfl, blockSecondary, hs, if_neg Bool.false_ne_true, blockBelow, ht,
      if_neg Bool.false_ne_true, he]
  rw [fillD, hsource]

/-- A prefetch raises no bus error and stops at no device. -/
theorem prefetchLine_unreadable (he : s.params.explicitCaches = true) (hk : lookupD s pa = .ok none)
    (hm : FillsFromMemory s attr) (hregion : regionKind s pa = .hole ∨ regionKind s pa = .device) :
    prefetchLine pa attr s = .ok (s.drew 1) := by
  have hm' : FillsFromMemory (s.drew 1) attr := hm
  rw [prefetchLine, if_pos he, hk]
  rcases hregion with hregion | hregion
  · have hread : mainReadLine false pa (s.drew 1) = .error (.exc (.dbe pa) (s.drew 1)) := by
      rw [mainReadLine, readable_hole false (s := s.drew 1) hregion]; rfl
    simp only [fillD_unread true hm' hread, ite_self]
  · have hread : mainReadLine false pa (s.drew 1) = .error (.refused .deviceAccess) := by
      rw [mainReadLine, readable_device false (s := s.drew 1) hregion]
    simp only [fillD_unread true hm' hread, ite_self]

end Explicit

/-! ## The clauses on explicit caches -/

section ThroughCaches

variable {i : Instr} {hint : BitVec 5} {pa : PAddr} {attr : BitVec 3} {s : State}
  (hi : exec i s = onOk (prefetchEffect hint pa attr s) complete) (ht : ThroughCaches s attr)
include hi

theorem does_onlyPc_of_effect {n : Nat} (h : prefetchEffect hint pa attr s = .ok (s.drew n)) : Does i s (OnlyPc s) := by
  rw [h] at hi
  exact does_onlyPc_of_drew hi

include ht

theorem completesOver_zeroFilled (hz : Zeroing hint s) (hk : lookupD s pa = .ok none) {mem : List Host.Cell}
    (hevict : evictD pa false s = .ok (slotD pa false s, { s with mem := mem }.drew 2))
    (hw : Memory.wf s.mem = true → Memory.wf mem = true) :
    CompletesOver i s (OnlyMemSystem s) (zeroFilled pa attr mem s) := by
  rw [prefetchEffect_zeroFilled ht hz hk hevict] at hi
  exact completesOver_complete (zeroFilled_side pa attr hw) hi

theorem does_zeroFilled_clean (hz : Zeroing hint s) (hk : lookupD s pa = .ok none) (hclean : CleanWays s pa) :
    Does i s (fun t => OnlyMemSystem s t ∧ KeepsMem s t ∧ ∃ k, HoldsLineD pa true s t k ∧ (dLine t k).data = 0) :=
  (completesOver_zeroFilled hi ht hz hk (evictD_clean pa false s hclean) id).does
    (P := fun t => KeepsMem s t ∧ ∃ k, HoldsLineD pa true s t k ∧ (dLine t k).data = 0)
    ⟨fun _ => rfl, _, holdsLineD_zeroFilled pa attr s.mem s⟩

theorem does_zeroFilled_writeback (hz : Zeroing hint s) (hk : lookupD s pa = .ok none) (hs : secondaryOn s = false)
    (htc : tertiaryOn s = false) (hw : Memory.wf s.mem = true)
    (hram : ∀ k ∈ primaryWays pa, regionKind s (dLineAddr (dLine s k) k) = .ram) :
    Does i s (fun t => OnlyMemSystem s t ∧ ∃ k, HoldsLineD pa true s t k ∧ (dLine t k).data = 0 ∧
      if (dLine s k).state = 3 ∧ (dLine s k).w = true
      then LineWritten s t (dLineAddr (dLine s k) k) (dLine s k).data else KeepsMem s t) := by
  obtain ⟨mem, hevict, hwf, hvictim⟩ := evictD_toMemory (lock := false) hs htc hw hram
  obtain ⟨hholds, hdata⟩ := holdsLineD_zeroFilled pa attr mem s
  exact (completesOver_zeroFilled hi ht hz hk hevict fun _ => hwf).does
    (P := fun t => ∃ k, HoldsLineD pa true s t k ∧ (dLine t k).data = 0 ∧
      if (dLine s k).state = 3 ∧ (dLine s k).w = true
      then LineWritten s t (dLineAddr (dLine s k) k) (dLine s k).data else KeepsMem s t)
    ⟨_, hholds, hdata, hvictim⟩

theorem does_prefetchLine_clean (hz : ¬Zeroing hint s) (hm : MissesCleanly s pa attr) :
    Does i s (fun t => OnlyPc s t ∨ (OnlyMemSystem s t ∧ KeepsMem s t ∧ LineFilled pa s t)) := by
  rw [prefetchEffect_other (cached_of_throughCaches ht) hz] at hi
  rcases prefetchLine_missesCleanly ht.1 hm with hkeep | hfill
  · rw [hkeep] at hi
    obtain ⟨t, hnext, honly⟩ := does_onlyPc_of_drew hi
    exact ⟨t, hnext, .inl honly⟩
  · rw [hfill] at hi
    have hside := MemSide_trans (MemSide_drew s 1) (dataFilled_side (s.drew 1) pa attr true)
    obtain ⟨t, hnext, hfilled⟩ := (completesOver_complete hside hi).does (P := fun t => KeepsMem s t ∧ LineFilled pa s t)
      ⟨fun _ => rfl, lineFilled_dataFilled (s.drew 1) pa attr true⟩
    exact ⟨t, hnext, .inr hfilled⟩

theorem does_prefetchLine_unreadable (hz : ¬Zeroing hint s) (hk : lookupD s pa = .ok none) (hm : FillsFromMemory s attr)
    (hregion : regionKind s pa = .hole ∨ regionKind s pa = .device) : Does i s (OnlyPc s) :=
  does_onlyPc_of_effect hi
    ((prefetchEffect_other (cached_of_throughCaches ht) hz).trans (prefetchLine_unreadable ht.1 hk hm hregion))

end ThroughCaches

/-- Settles O47: the conditional moves are `moveIf` of their tests; a prefetch completes over the state its effect
leaves, which depends on the kind of page, the cache level, the hint and the lookup. -/
theorem conditionalMovesAndPrefetch : Obligations.ConditionalMovesAndPrefetch := by
  intro s rs rt rd base index hint cc offset hmips4
  have henabled {i : Instr} {k : Out} (h : exec i s = requireMips4 s k) : exec i s = k :=
    h.trans (requireMips4_enabled hmips4 k)
  refine ⟨movesWhen_of_moveIf (henabled rfl) (readGpr_bne_zero_iff s rt),
    movesWhen_of_moveIf (henabled rfl) (readGpr_beq_zero_iff s rt), fun hcu1 => ?_, fun i va hform => ?_⟩
  · have husable {i : Instr} {k : Out} (h : exec i s = requireMips4 s (requireCu1 s k)) : exec i s = k :=
      (henabled h).trans (requireCu1_usable hcu1 k)
    exact ⟨movesWhen_of_moveIf (husable rfl) (Bool.not_eq_true' _).to_iff, movesWhen_of_moveIf (husable rfl) Iff.rfl⟩
  · have hprefetch : exec i s = prefetch hint (readGpr s base) va s := by
      rcases hform with ⟨rfl, rfl⟩ | ⟨rfl, rfl, hcu1⟩
      · exact henabled rfl
      · exact (henabled rfl).trans (requireCu1_usable hcu1 _)
    refine ⟨fun hout => hprefetch.trans (prefetch_outside hout), fun hin => ⟨fun e he =>
      does_onlyPc_of_drew (n := 0) (hprefetch.trans (prefetch_untranslated hin he)), fun pa attr htr => ?_⟩⟩
    have hi := hprefetch.trans (prefetch_translated hin htr)
    exact ⟨fun hattr => does_onlyPc_of_effect (n := 0) hi (prefetchEffect_uncached ((uncached_iff attr).2 hattr)),
      fun hT hz => does_onlyPc_of_effect (n := 0) hi (prefetchEffect_transparent hT hz),
      fun hT _ => does_transparentPrefetch hi hT,
      fun ht => ⟨fun k hk => (prefetchEffect_hit ht hk).elim fun _ => does_onlyPc_of_effect hi,
        fun hk hz => ⟨does_zeroFilled_clean hi ht hz hk, does_zeroFilled_writeback hi ht hz hk⟩,
        fun hm hz => does_prefetchLine_clean hi ht hz hm,
        fun hk hm hz hregion => does_prefetchLine_unreadable hi ht hz hk hm hregion⟩⟩

end Sys2Proof.Proofs

/-! # Rounding to a floating-point format

The rounding function of the model works on a natural number times a power of two, with a mark for what lies below it. Here it
is tied to `IsRounded`, the rule on real numbers: between two neighbours of a grid there is no number of the format's
precision (`precision_gap`), so a mode has only to choose between them (`isRounded_between`), and the kept and dropped bits of
`roundMag` make that choice (`roundMag_isRounded`). A sign exchanges the two directed modes and nothing else. The pattern of
a rounded magnitude, its overflow and its tininess then follow from one normal form (`exists_fraction`), and `deliver` is
`DeliversRounded` (`deliversRounded_deliver`). -/

namespace Sys2Proof.Proofs

open Sys2Proof.Machine Sys2Proof.Safety Sys2Proof.Laws

/-! ## Numbers of a format's precision -/

/-- A magnitude with a sign. -/
def withSignOf {α : Type} [Neg α] (neg : Bool) (y : α) : α := if neg then -y else y

theorem hasPrecision_neg {f : FpFmt} {less : Nat} {v : ℝ} (h : HasPrecision f less v) : HasPrecision f less (-v) := by
  obtain ⟨m, e, hm, rfl⟩ := h
  exact ⟨-m, e, by rwa [abs_neg], by push_cast; ring⟩

/-- The largest count is a power of two, which has every precision. -/
theorem hasPrecision_natCast {f : FpFmt} {less m : Nat} (e : Int) (hless : less ≤ f.fracBits)
    (h : m ≤ 2 ^ (f.fracBits + 1 - less)) : HasPrecision f less ((m : ℝ) * (2 : ℝ) ^ e) := by
  rcases h.lt_or_eq with hlt | rfl
  · exact ⟨m, e, by rw [Nat.abs_cast]; exact_mod_cast hlt, by push_cast; rfl⟩
  · refine ⟨1, e + (f.fracBits + 1 - less : Nat), ?_, ?_⟩
    · rw [abs_one]; exact one_lt_pow₀ (by norm_num) (by omega)
    · rw [zpow_add₀ (by norm_num), zpow_natCast]; push_cast; ring

/-- An even count has one bit less. -/
theorem hasPrecision_even {f : FpFmt} {m : Nat} (e : Int) (h : m ≤ 2 ^ (f.fracBits + 1)) (heven : m % 2 = 0) :
    HasPrecision f 1 ((m : ℝ) * (2 : ℝ) ^ e) := by
  obtain ⟨j, rfl⟩ := Nat.dvd_of_mod_eq_zero heven
  have hj : j ≤ 2 ^ (f.fracBits + 1 - 1) := by rw [pow_succ] at h; rw [Nat.add_sub_cancel]; omega
  have hone : 1 ≤ f.fracBits := by cases f <;> decide
  convert hasPrecision_natCast (e + 1) hone hj using 1
  rw [zpow_add_one₀ (by norm_num)]; push_cast; ring

/-- No number of the format's precision lies between two neighbours of a grid with a full count of bits. -/
theorem precision_gap {f : FpFmt} {q : Nat} {k : Int} (hq : 2 ^ f.fracBits ≤ q) {v : ℝ} (hv : HasPrecision f 0 v) :
    v ≤ (q : ℝ) * (2 : ℝ) ^ k ∨ ((q : ℝ) + 1) * (2 : ℝ) ^ k ≤ v := by
  obtain ⟨m, e, hm, rfl⟩ := hv
  have hpos : (0 : ℝ) < (2 : ℝ) ^ k := by positivity
  rcases le_or_gt k e with hke | hek
  · obtain ⟨d, rfl⟩ := Int.le.dest hke
    have hcount : (m : ℝ) * (2 : ℝ) ^ (k + d) = ((m * 2 ^ d : Int) : ℝ) * (2 : ℝ) ^ k := by
      rw [zpow_add₀ (by norm_num), zpow_natCast]; push_cast; ring
    rw [hcount]
    rcases le_or_gt (m * 2 ^ d) (q : Int) with h | h
    · exact .inl (mul_le_mul_of_nonneg_right (by exact_mod_cast h) hpos.le)
    · exact .inr (mul_le_mul_of_nonneg_right (by exact_mod_cast h) hpos.le)
  · refine .inl ?_
    have hm' : (m : ℝ) ≤ 2 ^ (f.fracBits + 1) := by exact_mod_cast (le_abs_self m).trans hm.le
    calc (m : ℝ) * (2 : ℝ) ^ e ≤ 2 ^ (f.fracBits + 1) * (2 : ℝ) ^ e := by gcongr
      _ = 2 ^ f.fracBits * (2 : ℝ) ^ (e + 1) := by rw [zpow_add_one₀ (by norm_num)]; ring
      _ ≤ (q : ℝ) * (2 : ℝ) ^ k := by
        gcongr
        · exact_mod_cast hq
        · norm_num
        · omega

/-! ## The rule of rounding -/

/-- The mode a magnitude is rounded in, when the number is negative. -/
def mirrored (rm : BitVec 2) : BitVec 2 := if rm = 2 then 3 else if rm = 3 then 2 else rm

theorem mode_cases (rm : BitVec 2) : rm = 0 ∨ rm = 1 ∨ rm = 2 ∨ rm = 3 := by revert rm; decide

theorem isRounded_neg {f : FpFmt} {rm : BitVec 2} {x r : ℝ} (h : IsRounded f (mirrored rm) x r) :
    IsRounded f rm (-x) (-r) := by
  obtain ⟨hp, hnear, hzero, hup, hdown⟩ := h
  have hrefl : ∀ u, |-r - -x| = |r - x| ∧ |u - -x| = |-u - x| := fun u =>
    ⟨by rw [← abs_neg]; ring_nf, by rw [← abs_neg]; ring_nf⟩
  refine ⟨hasPrecision_neg hp, ?_, ?_, ?_, ?_⟩
  · rintro rfl u hu
    obtain ⟨hle, htie⟩ := hnear rfl (-u) (hasPrecision_neg hu)
    rw [(hrefl u).1, (hrefl u).2]
    exact ⟨hle, fun heq hne => hasPrecision_neg (htie heq fun h => hne (by rw [← h, neg_neg]))⟩
  · rintro rfl
    obtain ⟨hsign, habs, hmax⟩ := hzero rfl
    rw [neg_mul_neg, abs_neg, abs_neg]
    exact ⟨hsign, habs, hmax⟩
  · rintro rfl
    obtain ⟨hle, hmin⟩ := hdown rfl
    exact ⟨neg_le_neg hle, fun u hu hx => neg_le.1 (hmin (-u) (hasPrecision_neg hu) (neg_le.1 hx))⟩
  · rintro rfl
    obtain ⟨hle, hmax⟩ := hup rfl
    exact ⟨neg_le_neg hle, fun u hu hx => le_neg.1 (hmax (-u) (hasPrecision_neg hu) (le_neg.1 hx))⟩

/-- A number of the format's precision is its own rounding. -/
theorem isRounded_self {f : FpFmt} (rm : BitVec 2) {y : ℝ} (h : HasPrecision f 0 y) : IsRounded f rm y y := by
  refine ⟨h, fun _ u _ => ⟨by simp, fun heq hne => ?_⟩, fun _ => ⟨mul_self_nonneg y, le_rfl, fun _ _ h => h⟩,
    fun _ => ⟨le_rfl, fun _ _ h => h⟩, fun _ => ⟨le_rfl, fun _ _ h => h⟩⟩
  rw [sub_self, abs_zero, abs_eq_zero, sub_eq_zero] at heq
  exact absurd heq hne

/-- How a mode chooses between two neighbours of the grid, the lower of them `q` units: nearest, a tie to the even one; the
lower; the upper; the lower. -/
structure Chooses (rm : BitVec 2) (q : Nat) (unit y : ℝ) (up : Bool) : Prop where
  nearest : rm = 0 → (up = true ↔ (2 * q + 1) * unit < 2 * y ∨ ((2 * q + 1) * unit = 2 * y ∧ q % 2 = 1))
  zero : rm = 1 → up = false
  above : rm = 2 → up = true
  below : rm = 3 → up = false

/-- The neighbour chosen is the rounding. -/
theorem isRounded_between {f : FpFmt} {rm : BitVec 2} {q : Nat} {k : Int} {y : ℝ} {up : Bool} (hq : 2 ^ f.fracBits ≤ q)
    (hq' : q < 2 ^ (f.fracBits + 1)) (hlo : (q : ℝ) * (2 : ℝ) ^ k < y) (hhi : y < ((q : ℝ) + 1) * (2 : ℝ) ^ k)
    (hup : Chooses rm q ((2 : ℝ) ^ k) y up) :
    IsRounded f rm y (((if up then q + 1 else q : Nat) : ℝ) * (2 : ℝ) ^ k) := by
  have hnonneg : 0 ≤ (q : ℝ) * (2 : ℝ) ^ k := by positivity
  have hgap : ∀ u, HasPrecision f 0 u → u ≤ (q : ℝ) * (2 : ℝ) ^ k ∨ ((q : ℝ) + 1) * (2 : ℝ) ^ k ≤ u :=
    fun u hu => precision_gap hq hu
  refine ⟨hasPrecision_natCast k (Nat.zero_le _) (by split <;> simp <;> omega), ?_, ?_, ?_, ?_⟩
  · intro h u hu
    have hchoice := hup.nearest h
    have hfar : y - (q : ℝ) * (2 : ℝ) ^ k ≤ |u - y| ∧ (|u - y| = y - (q : ℝ) * (2 : ℝ) ^ k → u = (q : ℝ) * (2 : ℝ) ^ k) ∨
        ((q : ℝ) + 1) * (2 : ℝ) ^ k - y ≤ |u - y| ∧
          (|u - y| = ((q : ℝ) + 1) * (2 : ℝ) ^ k - y → u = ((q : ℝ) + 1) * (2 : ℝ) ^ k) := by
      rcases hgap u hu with h | h
      · rw [abs_of_neg (by linarith)]
        exact .inl ⟨by linarith, fun h => by linarith⟩
      · rw [abs_of_pos (by linarith)]
        exact .inr ⟨by linarith, fun h => by linarith⟩
    cases up with
    | true =>
      have hodd : ((q : ℝ) + 1) * (2 : ℝ) ^ k - y ≤ y - (q : ℝ) * (2 : ℝ) ^ k ∧
          (((q : ℝ) + 1) * (2 : ℝ) ^ k - y = y - (q : ℝ) * (2 : ℝ) ^ k → q % 2 = 1) := by
        rcases hchoice.1 rfl with h | ⟨h, h'⟩
        · exact ⟨by linarith, fun h => by linarith⟩
        · exact ⟨by linarith, fun _ => h'⟩
      simp only [if_true, Nat.cast_add, Nat.cast_one]
      rw [abs_of_pos (by linarith)]
      refine ⟨by rcases hfar with ⟨h, -⟩ | ⟨h, -⟩ <;> linarith [hodd.1], fun heq hne => ?_⟩
      have htie : q % 2 = 1 := by
        rcases hfar with ⟨h, -⟩ | ⟨-, h⟩
        · exact hodd.2 (by linarith [hodd.1])
        · exact absurd (h heq) hne
      exact_mod_cast hasPrecision_even (f := f) (m := q + 1) k (by omega) (by omega)
    | false =>
      have heven : y - (q : ℝ) * (2 : ℝ) ^ k ≤ ((q : ℝ) + 1) * (2 : ℝ) ^ k - y ∧
          (y - (q : ℝ) * (2 : ℝ) ^ k = ((q : ℝ) + 1) * (2 : ℝ) ^ k - y → q % 2 = 0) := by
        have hnot := mt hchoice.2 Bool.false_ne_true
        push Not at hnot
        exact ⟨by linarith [hnot.1], fun h => by have := hnot.2 (by linarith); omega⟩
      simp only [Bool.false_eq_true, if_false]
      rw [abs_of_neg (by linarith)]
      refine ⟨by rcases hfar with ⟨h, -⟩ | ⟨h, -⟩ <;> linarith [heven.1], fun heq hne => ?_⟩
      have htie : q % 2 = 0 := by
        rcases hfar with ⟨-, h⟩ | ⟨h, -⟩
        · exact absurd (h (by linarith)) hne
        · exact heven.2 (by linarith [heven.1])
      exact hasPrecision_even k hq'.le htie
  · intro h
    rw [hup.zero h]
    simp only [Bool.false_eq_true, if_false]
    rw [abs_of_nonneg hnonneg, abs_of_pos (by linarith)]
    refine ⟨mul_nonneg (by linarith) hnonneg, hlo.le, fun u hu huy => ?_⟩
    rcases hgap |u| (by rcases abs_choice u with h | h <;> rw [h]; exacts [hu, hasPrecision_neg hu]) with h | h
    · exact h
    · linarith
  · intro h
    rw [hup.above h]
    simp only [if_true, Nat.cast_add, Nat.cast_one]
    exact ⟨hhi.le, fun u hu huy => (hgap u hu).resolve_left (by linarith)⟩
  · intro h
    rw [hup.below h]
    simp only [Bool.false_eq_true, if_false]
    exact ⟨hlo.le, fun u hu huy => (hgap u hu).resolve_right (by linarith)⟩

/-! ## The rounding function -/

/-- A magnitude given by a count of units and a mark for what is below the unit. -/
structure Approximates (m : Nat) (e : Int) (sticky : Bool) (y : ℝ) : Prop where
  lower : (m : ℝ) * (2 : ℝ) ^ e ≤ y
  upper : y < ((m : ℝ) + 1) * (2 : ℝ) ^ e
  sticky_iff : sticky = true ↔ y ≠ (m : ℝ) * (2 : ℝ) ^ e

theorem approximates_exact (m : Nat) (e : Int) : Approximates m e false ((m : ℝ) * (2 : ℝ) ^ e) :=
  ⟨le_rfl, mul_lt_mul_of_pos_right (by linarith) (by positivity), by simp⟩

theorem roundsUp_negative (rm : BitVec 2) (q rest unit : Nat) (sticky : Bool) :
    roundsUp rm true q rest unit sticky = roundsUp (mirrored rm) false q rest unit sticky := by
  rcases mode_cases rm with rfl | rfl | rfl | rfl <;> rfl

theorem roundMag_negative (p : Nat) (rm : BitVec 2) (m : Nat) (e : Int) (sticky : Bool) :
    roundMag p rm true m e sticky = roundMag p (mirrored rm) false m e sticky := by
  simp only [roundMag, roundsUp_negative]

theorem roundsUp_kept (rm : BitVec 2) (q : Nat) {unit : Nat} (h : unit ≠ 0) : roundsUp rm false q 0 unit false = false := by
  rcases mode_cases rm with rfl | rfl | rfl | rfl <;> simp [roundsUp, h.symm]

theorem roundsUp_nearest_iff (q rest unit : Nat) (sticky : Bool) : roundsUp 0 false q rest unit sticky = true ↔
    unit < 2 * rest ∨ (2 * rest = unit ∧ (sticky = true ∨ q % 2 = 1)) := by
  simp [roundsUp]

/-- The dropped bits decide as the rule does; `2 ^ s` units of the magnitude make one of the result. -/
theorem chooses_roundsUp {rm : BitVec 2} {m s : Nat} {e : Int} {sticky : Bool} {y : ℝ} (h : Approximates m e sticky y)
    (hs : s ≠ 0) (hdrop : (m % 2 ^ s != 0 || sticky) = true) :
    Chooses rm (m / 2 ^ s) ((2 : ℝ) ^ (e + s)) y (roundsUp rm false (m / 2 ^ s) (m % 2 ^ s) (2 ^ s) sticky) := by
  refine ⟨?_, ?_, ?_, ?_⟩
  · rintro rfl
    obtain ⟨w, hw⟩ : ∃ w, 2 ^ s = 2 * w := ⟨2 ^ (s - 1), by rw [← pow_succ', Nat.sub_add_cancel (by omega)]⟩
    have hmid : (2 * ((m / 2 ^ s : Nat) : ℝ) + 1) * (2 : ℝ) ^ (e + s) =
        ((2 * (m / 2 ^ s) + 1) * 2 ^ s : Nat) * (2 : ℝ) ^ e := by
      rw [zpow_add₀ (by norm_num), zpow_natCast]; push_cast; ring
    have hunit : (0 : ℝ) < (2 : ℝ) ^ e := by positivity
    have hm := Nat.div_add_mod m (2 ^ s)
    have hsplit : (2 * (m / 2 ^ s) + 1) * 2 ^ s + 2 * (m % 2 ^ s) = 2 * m + 2 ^ s := by
      conv_rhs => rw [← hm]
      ring
    rw [hmid, roundsUp_nearest_iff]
    rcases Nat.lt_trichotomy (2 * (m % 2 ^ s)) (2 ^ s) with hlt | heq | hgt
    · have hbelow : ((2 * m + 2 : Nat) : ℝ) ≤ ((2 * (m / 2 ^ s) + 1) * 2 ^ s : Nat) := by
        exact_mod_cast (by omega : 2 * m + 2 ≤ (2 * (m / 2 ^ s) + 1) * 2 ^ s)
      have hy : 2 * y < ((2 * (m / 2 ^ s) + 1) * 2 ^ s : Nat) * (2 : ℝ) ^ e := by
        have := mul_le_mul_of_nonneg_right hbelow hunit.le
        push_cast at this ⊢
        linarith [h.upper]
      constructor
      · rintro (h | ⟨h, -⟩) <;> omega
      · rintro (h | ⟨h, -⟩) <;> linarith
    · rw [show (2 * (m / 2 ^ s) + 1) * 2 ^ s = 2 * m by omega]
      have hsticky : sticky = true ↔ ((2 * m : Nat) : ℝ) * (2 : ℝ) ^ e < 2 * y := by
        rw [h.sticky_iff, ← h.lower.lt_iff_ne']
        push_cast
        constructor <;> intro h <;> linarith
      have hnot : sticky = false → ((2 * m : Nat) : ℝ) * (2 : ℝ) ^ e = 2 * y := fun hf => by
        have hy : y = (m : ℝ) * (2 : ℝ) ^ e := by
          by_contra hne
          exact absurd (h.sticky_iff.2 hne) (by simp [hf])
        rw [hy]; push_cast; ring
      cases sticky with
      | true => exact ⟨fun _ => .inl (hsticky.1 rfl), fun _ => .inr ⟨heq, .inl rfl⟩⟩
      | false =>
        rw [hnot rfl]
        simp [heq]
    · have habove : ((2 * (m / 2 ^ s) + 1) * 2 ^ s : Nat) < ((2 * m : Nat) : ℝ) := by
        exact_mod_cast (by omega : (2 * (m / 2 ^ s) + 1) * 2 ^ s < 2 * m)
      have hy : ((2 * (m / 2 ^ s) + 1) * 2 ^ s : Nat) * (2 : ℝ) ^ e < 2 * y := by
        have := mul_lt_mul_of_pos_right habove hunit
        push_cast at this ⊢
        linarith [h.lower]
      exact ⟨fun _ => .inl hy, fun _ => .inl hgt⟩
  · rintro rfl; rfl
  · rintro rfl; exact hdrop
  · rintro rfl; rfl

/-- What rounding a magnitude gives: a count that fits the format, the number the rule names, and whether it changed. -/
structure RoundsMagnitude (f : FpFmt) (rm : BitVec 2) (y : ℝ) (r : Rounded) : Prop where
  pos : 0 < r.m
  fits : r.m ≤ 2 ^ (f.fracBits + 1)
  rounded : IsRounded f rm y ((r.m : ℝ) * (2 : ℝ) ^ r.e)
  inexact_iff : r.inexact = true ↔ (r.m : ℝ) * (2 : ℝ) ^ r.e ≠ y

/-- A positive magnitude is rounded by the rule; one that is marked must have more bits than the format. -/
theorem roundMag_isRounded {f : FpFmt} (rm : BitVec 2) {m : Nat} {e : Int} {sticky : Bool} {y : ℝ} (hm : m ≠ 0)
    (h : Approximates m e sticky y) (hbits : sticky = true → 2 ^ (f.fracBits + 1) ≤ m) :
    RoundsMagnitude f rm y (roundMag (f.fracBits + 1) rm false m e sticky) := by
  set s := m.log2 + 1 - (f.fracBits + 1) with hs
  have hlt := Nat.lt_log2_self (n := m)
  have hge : 2 ^ m.log2 ≤ m := Nat.log2_self_le hm
  have hdiv := Nat.div_add_mod m (2 ^ s)
  have hmod : m % 2 ^ s < 2 ^ s := Nat.mod_lt _ (by positivity)
  have hfits : m / 2 ^ s < 2 ^ (f.fracBits + 1) := by
    rw [Nat.div_lt_iff_lt_mul (by positivity), ← pow_add]
    exact hlt.trans_le (Nat.pow_le_pow_right (by decide) (by omega))
  have hfull : s ≠ 0 → 2 ^ f.fracBits ≤ m / 2 ^ s := fun h0 => by
    rw [Nat.le_div_iff_mul_le (by positivity), ← pow_add]
    exact (Nat.pow_le_pow_right (by decide) (by omega)).trans hge
  have hq : 0 < m / 2 ^ s := by
    by_cases h0 : s = 0
    · rw [h0, pow_zero, Nat.div_one]; omega
    · exact (Nat.two_pow_pos _).trans_le (hfull h0)
  have hunit : ((m / 2 ^ s * 2 ^ s : Nat) : ℝ) * (2 : ℝ) ^ e = ((m / 2 ^ s : Nat) : ℝ) * (2 : ℝ) ^ (e + s) := by
    rw [zpow_add₀ (by norm_num), zpow_natCast]; push_cast; ring
  by_cases hdrop : (m % 2 ^ s != 0 || sticky) = true
  · have h0 : s ≠ 0 := by
      intro h0
      rw [h0, pow_zero, Nat.mod_one] at hdrop
      have hbig := Nat.log2_lt hm |>.not.2 (not_lt.2 (hbits (by simpa using hdrop)))
      omega
    have hlo : ((m / 2 ^ s : Nat) : ℝ) * (2 : ℝ) ^ (e + s) < y := by
      rw [← hunit]
      rcases Nat.eq_zero_or_pos (m % 2 ^ s) with hz | hz
      · have hst : sticky = true := by simpa [hz] using hdrop
        rw [show m / 2 ^ s * 2 ^ s = m by rw [Nat.mul_comm]; omega]
        exact lt_of_le_of_ne h.lower (h.sticky_iff.1 hst).symm
      · have : m / 2 ^ s * 2 ^ s < m := by rw [Nat.mul_comm]; omega
        exact (mul_lt_mul_of_pos_right (by exact_mod_cast this) (by positivity)).trans_le h.lower
    have hhi : y < (((m / 2 ^ s : Nat) : ℝ) + 1) * (2 : ℝ) ^ (e + s) := by
      have hle : m + 1 ≤ (m / 2 ^ s + 1) * 2 ^ s := by rw [Nat.mul_comm, Nat.mul_add]; omega
      have hcast : ((m : ℝ) + 1) ≤ ((m / 2 ^ s + 1) * 2 ^ s : Nat) := by exact_mod_cast hle
      calc y < ((m : ℝ) + 1) * (2 : ℝ) ^ e := h.upper
        _ ≤ ((m / 2 ^ s + 1) * 2 ^ s : Nat) * (2 : ℝ) ^ e := mul_le_mul_of_nonneg_right hcast (by positivity)
        _ = (((m / 2 ^ s : Nat) : ℝ) + 1) * (2 : ℝ) ^ (e + s) := by
          rw [zpow_add₀ (by norm_num), zpow_natCast]; push_cast; ring
    have hround := isRounded_between (hfull h0) hfits hlo hhi (chooses_roundsUp h h0 hdrop (rm := rm))
    have hresult : roundMag (f.fracBits + 1) rm false m e sticky =
        { m := if roundsUp rm false (m / 2 ^ s) (m % 2 ^ s) (2 ^ s) sticky then m / 2 ^ s + 1 else m / 2 ^ s
          e := e + s, inexact := m % 2 ^ s != 0 || sticky } := rfl
    rw [hresult]
    refine ⟨?_, ?_, hround, ⟨fun _ => ?_, fun _ => hdrop⟩⟩ <;> dsimp only <;> split
    · omega
    · omega
    · omega
    · omega
    · push_cast; exact hhi.ne'
    · exact hlo.ne
  · obtain ⟨hz, hst⟩ : m % 2 ^ s = 0 ∧ sticky = false := by simpa using hdrop
    have hy : y = ((m / 2 ^ s : Nat) : ℝ) * (2 : ℝ) ^ (e + s) := by
      rw [← hunit, show m / 2 ^ s * 2 ^ s = m by rw [Nat.mul_comm]; omega]
      by_contra hne
      exact absurd (h.sticky_iff.2 hne) (by simp [hst])
    have hkept : roundMag (f.fracBits + 1) rm false m e sticky = { m := m / 2 ^ s, e := e + s, inexact := false } := by
      simp only [roundMag, ← hs, hz, hst, roundsUp_kept rm _ (Nat.two_pow_pos s).ne']
      rfl
    rw [hkept]
    refine ⟨hq, hfits.le, ?_, by simp [hy]⟩
    rw [hy]
    exact isRounded_self rm (hasPrecision_natCast _ (Nat.zero_le _) hfits.le)

/-- A signed number and its rounding. -/
structure RoundsTo (f : FpFmt) (rm : BitVec 2) (neg : Bool) (x : ℝ) (r : Rounded) : Prop where
  pos : 0 < r.m
  fits : r.m ≤ 2 ^ (f.fracBits + 1)
  sign : neg = true ↔ x < 0
  rounded : IsRounded f rm x (withSignOf neg ((r.m : ℝ) * (2 : ℝ) ^ r.e))
  inexact_iff : r.inexact = true ↔ withSignOf neg ((r.m : ℝ) * (2 : ℝ) ^ r.e) ≠ x

theorem withSignOf_neg_iff {neg : Bool} {y : ℝ} (h : 0 < y) : neg = true ↔ withSignOf neg y < 0 := by
  cases neg <;> simp [withSignOf, h, h.le]

theorem withSignOf_ne_iff {neg : Bool} {y z : ℝ} : withSignOf neg y ≠ withSignOf neg z ↔ y ≠ z := by
  cases neg <;> simp [withSignOf]

theorem abs_withSignOf (neg : Bool) {y : ℝ} (h : 0 ≤ y) : |withSignOf neg y| = y := by
  cases neg <;> simp [withSignOf, abs_of_nonneg h]

/-- Rounding a number of any sign. -/
theorem roundMag_roundsTo {f : FpFmt} (rm : BitVec 2) (neg : Bool) {m : Nat} {e : Int} {sticky : Bool} {y : ℝ} (hm : m ≠ 0)
    (h : Approximates m e sticky y) (hbits : sticky = true → 2 ^ (f.fracBits + 1) ≤ m) :
    RoundsTo f rm neg (withSignOf neg y) (roundMag (f.fracBits + 1) rm neg m e sticky) := by
  have hy : 0 < y := lt_of_lt_of_le (by positivity) h.lower
  cases neg with
  | false =>
    obtain ⟨hpos, hfits, hround, hinexact⟩ := roundMag_isRounded (f := f) rm hm h hbits
    exact ⟨hpos, hfits, withSignOf_neg_iff hy, hround, hinexact⟩
  | true =>
    obtain ⟨hpos, hfits, hround, hinexact⟩ := roundMag_isRounded (f := f) (mirrored rm) hm h hbits
    rw [roundMag_negative]
    exact ⟨hpos, hfits, withSignOf_neg_iff hy, isRounded_neg hround, hinexact.trans withSignOf_ne_iff.symm⟩

/-! ## Patterns made of fields -/

section Fields

variable (f : FpFmt) (neg : Bool) {k j : Nat} (hk : k < 2 ^ f.expBits) (hj : j < 2 ^ f.fracBits)
include hk hj

theorem fpBits_toNat : (fpBits f neg k j).toNat = (if neg then 2 ^ f.signPos else 0) + k * 2 ^ f.fracBits + j := by
  rw [fpBits, BitVec.toNat_ofNat, Nat.mod_eq_of_lt]
  cases f <;> cases neg <;> simp only [FpFmt.signPos, FpFmt.fracBits, FpFmt.expBits] at * <;> norm_num <;> omega

theorem fpBits_lt : (fpBits f neg k j).toNat < 2 ^ (f.signPos + 1) := by
  rw [fpBits_toNat f neg hk hj]
  cases f <;> cases neg <;> simp only [FpFmt.signPos, FpFmt.fracBits, FpFmt.expBits] at * <;> norm_num <;> omega

theorem fpBits_exponent : (fpBits f neg k j).toNat / 2 ^ f.fracBits % 2 ^ f.expBits = k := by
  rw [fpBits_toNat f neg hk hj]
  cases f <;> cases neg <;> simp only [FpFmt.signPos, FpFmt.fracBits, FpFmt.expBits] at * <;> norm_num <;> omega

theorem fpBits_fraction : (fpBits f neg k j).toNat % 2 ^ f.fracBits = j := by
  rw [fpBits_toNat f neg hk hj]
  cases f <;> cases neg <;> simp only [FpFmt.signPos, FpFmt.fracBits, FpFmt.expBits] at * <;> norm_num <;> omega

theorem signOf_fpBits : signOf f (fpBits f neg k j) = neg := by
  rw [signOf, BitVec.getLsbD, Nat.testBit_eq_decide_div_mod_eq, fpBits_toNat f neg hk hj]
  cases f <;> cases neg <;> simp only [FpFmt.signPos, FpFmt.fracBits, FpFmt.expBits] at * <;> norm_num <;> omega

end Fields

/-! ## Values -/

/-- The value of a pattern whose exponent field is not 0: an infinity counts as the next power of two. -/
theorem fpValue_of_exponent {f : FpFmt} {x : Dword} {k : Nat} (hk : x.toNat / 2 ^ f.fracBits % 2 ^ f.expBits = k)
    (h0 : k ≠ 0) : fpValue f x = (if signOf f x then -1 else 1) *
      (((2 ^ f.fracBits + x.toNat % 2 ^ f.fracBits : Nat) : ℚ) * (2 : ℚ) ^ ((k : Int) - f.bias - f.fracBits)) := by
  cases hsign : x.getLsbD f.signPos <;> simp [fpValue, hk, h0, signOf, hsign]

theorem realValue_of_exponent {f : FpFmt} {x : Dword} {k : Nat} (hk : x.toNat / 2 ^ f.fracBits % 2 ^ f.expBits = k)
    (h0 : k ≠ 0) : realValue f x = withSignOf (signOf f x)
      (((2 ^ f.fracBits + x.toNat % 2 ^ f.fracBits : Nat) : ℝ) * (2 : ℝ) ^ ((k : Int) - f.bias - f.fracBits)) := by
  rw [realValue, fpValue_of_exponent hk h0]
  unfold withSignOf
  split <;> push_cast <;> ring

/-- A normal pattern, taken apart: its value and the size of its fraction. -/
structure NormalParts (f : FpFmt) (x : Dword) (neg : Bool) (m : Nat) (e : Int) : Prop where
  value : realValue f x = withSignOf neg ((m : ℝ) * (2 : ℝ) ^ e)
  lower : 2 ^ f.fracBits ≤ m
  upper : m < 2 ^ (f.fracBits + 1)

theorem normalParts_of_classify {f : FpFmt} {x : Dword} {neg : Bool} {m : Nat} {e : Int}
    (h : classify f x = .norm neg m e) : NormalParts f x neg m e := by
  obtain ⟨rfl, rfl, k, hk, h0, -, rfl⟩ := classify_norm h
  have hlt : x.toNat % 2 ^ f.fracBits < 2 ^ f.fracBits := Nat.mod_lt _ (by positivity)
  exact ⟨realValue_of_exponent hk.symm h0, by omega, by rw [pow_succ]; omega⟩

theorem NormalParts.ne_zero {f : FpFmt} {x : Dword} {neg : Bool} {m : Nat} {e : Int} (h : NormalParts f x neg m e) :
    m ≠ 0 := ((Nat.two_pow_pos _).trans_le h.lower).ne'

theorem NormalParts.magnitude_pos {f : FpFmt} {x : Dword} {neg : Bool} {m : Nat} {e : Int} (h : NormalParts f x neg m e) :
    0 < (m : ℝ) * (2 : ℝ) ^ e := by
  have : 0 < m := Nat.pos_of_ne_zero h.ne_zero
  positivity

/-! ## The result of a rounding -/

/-- A rounded magnitude has the form of a normal number: a full fraction at the exponent of its leading bit. -/
theorem exists_fraction (f : FpFmt) (neg : Bool) {r : Rounded} (hpos : 0 < r.m) (hfits : r.m ≤ 2 ^ (f.fracBits + 1)) :
    ∃ j, j < 2 ^ f.fracBits ∧
      (r.m : ℝ) * (2 : ℝ) ^ r.e = ((2 ^ f.fracBits + j : Nat) : ℝ) * (2 : ℝ) ^ (r.top - f.fracBits) ∧
      packNormal f neg r = fpBits f neg (r.top + f.bias).toNat j := by
  have hlt := Nat.lt_log2_self (n := r.m)
  have hge : 2 ^ r.m.log2 ≤ r.m := Nat.log2_self_le hpos.ne'
  rcases le_or_gt r.m.log2 f.fracBits with hl | hl
  · obtain ⟨d, hd⟩ := Nat.exists_eq_add_of_le hl
    have hlo : 2 ^ f.fracBits ≤ r.m * 2 ^ d := by
      rw [hd, pow_add]; exact Nat.mul_le_mul_right _ hge
    have hhi : r.m * 2 ^ d < 2 ^ (f.fracBits + 1) := by
      rw [hd, show r.m.log2 + d + 1 = r.m.log2 + 1 + d by omega, pow_add _ _ d]
      exact Nat.mul_lt_mul_of_pos_right hlt (by positivity)
    refine ⟨r.m * 2 ^ d - 2 ^ f.fracBits, by rw [pow_succ] at hhi; omega, ?_, ?_⟩
    · rw [Nat.add_sub_cancel' hlo, Rounded.top, hd,
        show (r.m.log2 : Int) + r.e - ((r.m.log2 + d : Nat) : Int) = r.e - d by push_cast; ring, zpow_sub₀ (by norm_num),
        zpow_natCast]
      push_cast
      field_simp
    · simp only [packNormal, if_pos hl, show f.fracBits - r.m.log2 = d by omega]
  · have hm : r.m = 2 ^ (f.fracBits + 1) :=
      le_antisymm hfits ((Nat.pow_le_pow_right (by decide) hl).trans hge)
    have hlog : r.m.log2 = f.fracBits + 1 := by rw [hm, Nat.log2_two_pow]
    refine ⟨0, by positivity, ?_, ?_⟩
    · rw [Rounded.top, hlog, hm,
        show ((f.fracBits + 1 : Nat) : Int) + r.e - f.fracBits = r.e + 1 by push_cast; ring, zpow_add_one₀ (by norm_num)]
      push_cast
      ring
    · have hquot : r.m / 2 ^ (r.m.log2 - f.fracBits) - 2 ^ f.fracBits = 0 := by
        rw [hlog, hm, Nat.add_sub_cancel_left, pow_succ]; omega
      simp only [packNormal, if_neg (not_le.2 hl), hquot]

theorem maxFinite_eq (f : FpFmt) : maxFinite f = (2 ^ (f.fracBits + 1) - 1) * (2 : ℝ) ^ ((f.bias : Int) - f.fracBits) := by
  rw [maxFinite, zpow_sub₀ (by norm_num), zpow_neg, zpow_natCast, zpow_natCast]
  field_simp
  ring

section Result

variable {f : FpFmt} {r : Rounded} (hpos : 0 < r.m) (hfits : r.m ≤ 2 ^ (f.fracBits + 1))
include hpos hfits

theorem overflows_iff : r.overflows f = true ↔ maxFinite f < (r.m : ℝ) * (2 : ℝ) ^ r.e := by
  obtain ⟨j, hj, hvalue, -⟩ := exists_fraction f false hpos hfits
  rw [Rounded.overflows, decide_eq_true_iff, hvalue, maxFinite_eq]
  constructor
  · intro h
    calc (2 ^ (f.fracBits + 1) - 1) * (2 : ℝ) ^ ((f.bias : Int) - f.fracBits)
        < 2 ^ (f.fracBits + 1) * (2 : ℝ) ^ ((f.bias : Int) - f.fracBits) :=
          mul_lt_mul_of_pos_right (by linarith) (by positivity)
      _ = 2 ^ f.fracBits * (2 : ℝ) ^ ((f.bias : Int) - f.fracBits + 1) := by rw [zpow_add_one₀ (by norm_num)]; ring
      _ ≤ ((2 ^ f.fracBits + j : Nat) : ℝ) * (2 : ℝ) ^ (r.top - f.fracBits) := by
          gcongr
          · exact_mod_cast Nat.le_add_right _ _
          · norm_num
          · omega
  · intro h
    by_contra hle
    refine absurd h (not_lt.2 ?_)
    have hfrac : ((2 ^ f.fracBits + j : Nat) : ℝ) ≤ 2 ^ (f.fracBits + 1) - 1 := by
      have : 2 ^ f.fracBits + j + 1 ≤ 2 ^ (f.fracBits + 1) := by rw [pow_succ]; omega
      have := (Nat.cast_le (α := ℝ)).2 this
      push_cast at this ⊢
      linarith
    calc ((2 ^ f.fracBits + j : Nat) : ℝ) * (2 : ℝ) ^ (r.top - f.fracBits)
        ≤ (2 ^ (f.fracBits + 1) - 1) * (2 : ℝ) ^ (r.top - f.fracBits) := mul_le_mul_of_nonneg_right hfrac (by positivity)
      _ ≤ (2 ^ (f.fracBits + 1) - 1) * (2 : ℝ) ^ ((f.bias : Int) - f.fracBits) := by
          refine mul_le_mul_of_nonneg_left (zpow_le_zpow_right₀ (by norm_num) (by omega)) ?_
          exact le_trans (by positivity) hfrac

theorem tiny_iff : r.tiny f = true ↔ (r.m : ℝ) * (2 : ℝ) ^ r.e < (2 : ℝ) ^ f.emin := by
  obtain ⟨j, hj, hvalue, -⟩ := exists_fraction f false hpos hfits
  have hscale : (2 : ℝ) ^ f.fracBits * (2 : ℝ) ^ (r.top - f.fracBits) = (2 : ℝ) ^ r.top := by
    rw [zpow_sub₀ (by norm_num), zpow_natCast]; field_simp
  have hunit : (0 : ℝ) < (2 : ℝ) ^ (r.top - f.fracBits) := by positivity
  rw [Rounded.tiny, decide_eq_true_iff, hvalue]
  constructor
  · intro h
    have hfrac : ((2 ^ f.fracBits + j : Nat) : ℝ) < 2 ^ f.fracBits * 2 := by
      exact_mod_cast (by omega : 2 ^ f.fracBits + j < 2 ^ f.fracBits * 2)
    calc ((2 ^ f.fracBits + j : Nat) : ℝ) * (2 : ℝ) ^ (r.top - f.fracBits)
        < 2 ^ f.fracBits * 2 * (2 : ℝ) ^ (r.top - f.fracBits) := mul_lt_mul_of_pos_right hfrac hunit
      _ = (2 : ℝ) ^ (r.top + 1) := by rw [zpow_add_one₀ (by norm_num), ← hscale]; ring
      _ ≤ (2 : ℝ) ^ f.emin := zpow_le_zpow_right₀ (by norm_num) (by omega)
  · intro h
    by_contra hle
    refine absurd h (not_lt.2 ?_)
    have hfrac : (2 : ℝ) ^ f.fracBits ≤ ((2 ^ f.fracBits + j : Nat) : ℝ) := by
      exact_mod_cast Nat.le_add_right _ _
    calc (2 : ℝ) ^ f.emin ≤ (2 : ℝ) ^ r.top := zpow_le_zpow_right₀ (by norm_num) (by omega)
      _ = (2 : ℝ) ^ f.fracBits * (2 : ℝ) ^ (r.top - f.fracBits) := hscale.symm
      _ ≤ _ := mul_le_mul_of_nonneg_right hfrac hunit.le

/-- In the range of normal numbers the pattern has the value of the rounded number. -/
theorem packNormal_value (neg : Bool) (ho : r.overflows f = false) (ht : r.tiny f = false) :
    IsFinite f (packNormal f neg r) ∧ realValue f (packNormal f neg r) = withSignOf neg ((r.m : ℝ) * (2 : ℝ) ^ r.e) := by
  obtain ⟨j, hj, hvalue, hpack⟩ := exists_fraction f neg hpos hfits
  have hbias : 2 ^ f.expBits = 2 * f.bias + 2 := by cases f <;> rfl
  obtain ⟨hmax, hmin⟩ : ¬(f.bias : Int) < r.top ∧ ¬r.top < f.emin := by
    simpa only [Rounded.overflows, Rounded.tiny, decide_eq_false_iff_not] using And.intro ho ht
  rw [FpFmt.emin] at hmin
  have hk : (r.top + f.bias).toNat < 2 ^ f.expBits := by omega
  rw [hpack]
  refine ⟨⟨fpBits_lt f neg hk hj, ?_⟩, ?_⟩
  · rw [fpBits_exponent f neg hk hj]; omega
  · rw [realValue_of_exponent (fpBits_exponent f neg hk hj) (by omega), fpBits_fraction f neg hk hj,
      signOf_fpBits f neg hk hj, hvalue]
    congr 3
    omega

end Result

theorem overflowValue_eq (f : FpFmt) (rm : BitVec 2) (neg : Bool) : overflowValue f rm neg = overflowDefault f rm neg := by
  rcases mode_cases rm with rfl | rfl | rfl | rfl <;> cases f <;> cases neg <;> decide

theorem underflowValue_eq (f : FpFmt) (rm : BitVec 2) (neg : Bool) :
    underflowValue f rm neg = underflowDefault f rm neg := by
  rcases mode_cases rm with rfl | rfl | rfl | rfl <;> cases f <;> cases neg <;> decide

/-! ### What `deliver` answers, by the size of the rounded number -/

section Deliver

variable {c : Fcr31} {f : FpFmt} {neg also : Bool} {r : Rounded}

theorem deliver_overflow (h : r.overflows f = true) : deliver c f neg r also =
    { unimpl := false, flags := { FpFlags.none with o := true, i := true }, value := overflowDefault f c.rm neg } := by
  rw [deliver, if_pos h, overflowValue_eq]

theorem deliver_unimplemented (ho : r.overflows f = false) (ht : r.tiny f = true)
    (h : c.enables.u = true ∨ c.enables.i = true ∨ c.fs = false) : deliver c f neg r also = .unimplemented := by
  rw [deliver, ho, if_neg Bool.false_ne_true, if_pos ht, if_pos]
  simpa [or_assoc] using h

theorem deliver_flushed (ho : r.overflows f = false) (ht : r.tiny f = true) (hu : c.enables.u = false)
    (hi : c.enables.i = false) (hfs : c.fs = true) : deliver c f neg r also =
      { unimpl := false, flags := { FpFlags.none with u := true, i := true }, value := underflowDefault f c.rm neg } := by
  rw [deliver, ho, if_neg Bool.false_ne_true, if_pos ht, hu, hi, hfs, underflowValue_eq]
  rfl

theorem deliver_normal (ho : r.overflows f = false) (ht : r.tiny f = false) : deliver c f neg r also =
    { unimpl := false, flags := inexactFlags (r.inexact || also), value := packNormal f neg r } := by
  rw [deliver, ho, if_neg Bool.false_ne_true, ht, if_neg Bool.false_ne_true]

theorem not_tiny_of_overflows (h : r.overflows f = true) : r.tiny f = false := by
  have hmin : f.emin ≤ f.bias := by cases f <;> decide
  rw [Rounded.overflows, decide_eq_true_iff] at h
  rw [Rounded.tiny, decide_eq_false_iff_not]
  omega

/-- The rounded number becomes the result its size asks for (rules R669, R671, R674, R675). -/
theorem deliversRounded_deliver {x : ℝ} {p : Prop} (h : RoundsTo f c.rm neg x r) (halso : also = true ↔ p) :
    DeliversRounded c f x p (deliver c f neg r also) := by
  have habs : |withSignOf neg ((r.m : ℝ) * (2 : ℝ) ^ r.e)| = (r.m : ℝ) * (2 : ℝ) ^ r.e :=
    abs_withSignOf neg (by positivity)
  refine ⟨_, h.rounded, fun hbig => ?_, fun hsmall => ?_, fun hlo hhi => ?_⟩
  · rw [habs, ← overflows_iff h.pos h.fits] at hbig
    exact ⟨neg, h.sign, deliver_overflow hbig⟩
  · rw [habs, ← tiny_iff h.pos h.fits] at hsmall
    have ho : r.overflows f = false := by
      by_contra hbig
      exact absurd (not_tiny_of_overflows (Bool.not_eq_false _ ▸ hbig)) (by simp [hsmall])
    refine ⟨fun hen => ?_, fun hu hi hfs => ⟨neg, h.sign, deliver_flushed ho hsmall hu hi hfs⟩⟩
    rw [deliver_unimplemented ho hsmall hen]
    exact ⟨rfl, rfl⟩
  · rw [habs, ← not_lt, ← tiny_iff h.pos h.fits, Bool.not_eq_true] at hlo
    rw [habs, ← not_lt, ← overflows_iff h.pos h.fits, Bool.not_eq_true] at hhi
    obtain ⟨hfinite, hvalue⟩ := packNormal_value h.pos h.fits neg hhi hlo
    rw [deliver_normal hhi hlo]
    refine ⟨hfinite, hvalue, rfl, rfl, ?_⟩
    rw [← h.inexact_iff, ← halso]
    exact Bool.or_eq_true_iff

end Deliver

end Sys2Proof.Proofs

/-! # The arithmetic on normal numbers

Each operation on normal operands is a rounding of an exact magnitude, so what remains of it is which real number that
magnitude is: a sum at a common exponent, a product, a quotient or a root with enough bits and a mark for the remainder. -/

namespace Sys2Proof.Proofs

open Sys2Proof.Machine Sys2Proof.Safety Sys2Proof.Laws

/-! ## Delivering a rounded magnitude -/

/-- A positive magnitude rounded and delivered. -/
theorem deliversRounded_roundTo {c : Fcr31} {f : FpFmt} {neg also sticky : Bool} {m : Nat} {e : Int} {y : ℝ} {p : Prop}
    (hm : m ≠ 0) (h : Approximates m e sticky y) (hbits : sticky = true → 2 ^ (f.fracBits + 1) ≤ m)
    (halso : also = true ↔ p) : DeliversRounded c f (withSignOf neg y) p (roundTo c f neg m e sticky also) :=
  deliversRounded_deliver (roundMag_roundsTo c.rm neg hm h hbits) halso

theorem deliversRounded_exact {c : Fcr31} {f : FpFmt} {neg also : Bool} {m : Nat} (e : Int) {p : Prop} (hm : m ≠ 0)
    (halso : also = true ↔ p) :
    DeliversRounded c f (withSignOf neg ((m : ℝ) * (2 : ℝ) ^ e)) p (roundTo c f neg m e false also) :=
  deliversRounded_roundTo hm (approximates_exact m e) (fun h => absurd h Bool.false_ne_true) halso

/-! ## Signs -/

theorem withSignOf_mul (n₁ n₂ : Bool) (y z : ℝ) : withSignOf n₁ y * withSignOf n₂ z = withSignOf (xor n₁ n₂) (y * z) := by
  cases n₁ <;> cases n₂ <;> simp [withSignOf]

theorem withSignOf_div (n₁ n₂ : Bool) (y z : ℝ) : withSignOf n₁ y / withSignOf n₂ z = withSignOf (xor n₁ n₂) (y / z) := by
  cases n₁ <;> cases n₂ <;> simp [withSignOf, neg_div, div_neg]

theorem withSignOf_not (n : Bool) (y : ℝ) : withSignOf (!n) y = -withSignOf n y := by
  cases n <;> simp [withSignOf]

/-- The sign of an addend that is subtracted. -/
theorem withSignOf_xor (n sub : Bool) (y : ℝ) :
    withSignOf (xor n sub) y = if sub then -withSignOf n y else withSignOf n y := by
  cases sub with
  | true => rw [Bool.xor_true, withSignOf_not, if_pos rfl]
  | false => rw [Bool.xor_false, if_neg Bool.false_ne_true]

/-! ## Sums -/

theorem signedAt_real (neg : Bool) (m : Nat) {e low : Int} (h : low ≤ e) :
    (signedAt neg m e low : ℝ) * (2 : ℝ) ^ low = withSignOf neg ((m : ℝ) * (2 : ℝ) ^ e) := by
  obtain ⟨d, rfl⟩ := Int.le.dest h
  have hd : (low + d - low).toNat = d := by omega
  simp only [signedAt, withSignOf, hd]
  rw [zpow_add₀ (by norm_num), zpow_natCast]
  split <;> push_cast <;> ring

section Sum

variable {c : Fcr31} {f : FpFmt} {n₁ n₂ also : Bool} {m₁ m₂ : Nat} {e₁ e₂ : Int} {x₁ x₂ : ℝ}
  (h₁ : withSignOf n₁ ((m₁ : ℝ) * (2 : ℝ) ^ e₁) = x₁) (h₂ : withSignOf n₂ ((m₂ : ℝ) * (2 : ℝ) ^ e₂) = x₂)
include h₁ h₂

theorem sum_signedAt : ((signedAt n₁ m₁ e₁ (min e₁ e₂) + signedAt n₂ m₂ e₂ (min e₁ e₂) : Int) : ℝ) *
    (2 : ℝ) ^ min e₁ e₂ = x₁ + x₂ := by
  rw [Int.cast_add, add_mul, signedAt_real _ _ (min_le_left _ _), signedAt_real _ _ (min_le_right _ _), h₁, h₂]

/-- Opposite numbers add up to a zero whose sign is the mode's (rule R666). -/
theorem sumFinite_zero (h : x₁ + x₂ = 0) : sumFinite c f n₁ m₁ e₁ n₂ m₂ e₂ also =
    { unimpl := false, flags := inexactFlags also, value := zeroPattern f (c.rm == 3) } := by
  have ht : signedAt n₁ m₁ e₁ (min e₁ e₂) + signedAt n₂ m₂ e₂ (min e₁ e₂) = 0 := by
    have hsum := sum_signedAt h₁ h₂
    rw [h, mul_eq_zero] at hsum
    exact_mod_cast hsum.resolve_right (by positivity)
  simp only [sumFinite, if_pos ht, fpZero_eq]

theorem sumFinite_rounded {p : Prop} (h : x₁ + x₂ ≠ 0) (halso : also = true ↔ p) :
    DeliversRounded c f (x₁ + x₂) p (sumFinite c f n₁ m₁ e₁ n₂ m₂ e₂ also) := by
  rw [← sum_signedAt h₁ h₂] at h ⊢
  set t := signedAt n₁ m₁ e₁ (min e₁ e₂) + signedAt n₂ m₂ e₂ (min e₁ e₂) with ht
  have h0 : t ≠ 0 := fun h0 => h (by rw [h0]; simp)
  have hsign : (t : ℝ) * (2 : ℝ) ^ min e₁ e₂ = withSignOf (decide (t < 0)) ((t.natAbs : ℝ) * (2 : ℝ) ^ min e₁ e₂) := by
    rw [Nat.cast_natAbs, Int.cast_abs]
    rcases lt_or_ge t 0 with hneg | hpos
    · rw [abs_of_neg (by exact_mod_cast hneg), decide_eq_true hneg, withSignOf, if_pos rfl]; ring
    · rw [abs_of_nonneg (by exact_mod_cast hpos), decide_eq_false (by omega), withSignOf, if_neg Bool.false_ne_true]
  have hresult : sumFinite c f n₁ m₁ e₁ n₂ m₂ e₂ also =
      roundTo c f (decide (t < 0)) t.natAbs (min e₁ e₂) false also := by
    simp only [sumFinite, ← ht, if_neg h0]
  rw [hresult, hsign]
  exact deliversRounded_exact _ (Int.natAbs_ne_zero.2 h0) halso

end Sum

/-! ## Quotients -/

/-- The quotient of two magnitudes, the divisor of at most the format's precision. -/
theorem quotient_rounded {c : Fcr31} {f : FpFmt} {neg also : Bool} {m₁ m₂ : Nat} (e₁ e₂ : Int) {p : Prop}
    (h₁ : 2 ^ f.fracBits ≤ m₁) (h0 : 0 < m₂) (h₂ : m₂ ≤ 2 ^ (f.fracBits + 1)) (halso : also = true ↔ p) :
    DeliversRounded c f (withSignOf neg ((m₁ : ℝ) * (2 : ℝ) ^ e₁ / ((m₂ : ℝ) * (2 : ℝ) ^ e₂))) p
      (quotient c f neg m₁ e₁ m₂ e₂ also) := by
  set k := f.fracBits + 5 with hk
  have hdiv := Nat.div_add_mod (m₁ * 2 ^ k) m₂
  have hmod : m₁ * 2 ^ k % m₂ < m₂ := Nat.mod_lt _ h0
  have hbig : 2 ^ (f.fracBits + 1) ≤ m₁ * 2 ^ k / m₂ := by
    rw [Nat.le_div_iff_mul_le h0]
    calc 2 ^ (f.fracBits + 1) * m₂ ≤ 2 ^ (f.fracBits + 1) * 2 ^ (f.fracBits + 1) := Nat.mul_le_mul_left _ h₂
      _ ≤ 2 ^ f.fracBits * 2 ^ k := by
        rw [← pow_add, ← pow_add]; exact Nat.pow_le_pow_right (by decide) (by omega)
      _ ≤ m₁ * 2 ^ k := Nat.mul_le_mul_right _ h₁
  have hm₂ : (0 : ℝ) < m₂ := by exact_mod_cast h0
  have hunit : (0 : ℝ) < (2 : ℝ) ^ (e₁ - e₂ - k) := by positivity
  have hvalue : (m₁ : ℝ) * (2 : ℝ) ^ e₁ / ((m₂ : ℝ) * (2 : ℝ) ^ e₂) =
      ((m₁ * 2 ^ k : Nat) : ℝ) / m₂ * (2 : ℝ) ^ (e₁ - e₂ - k) := by
    rw [zpow_sub₀ (by norm_num), zpow_sub₀ (by norm_num), zpow_natCast]
    push_cast
    field_simp
  have hquot : ((m₁ * 2 ^ k : Nat) : ℝ) / m₂ = (m₁ * 2 ^ k / m₂ : Nat) + ((m₁ * 2 ^ k % m₂ : Nat) : ℝ) / m₂ := by
    rw [div_eq_iff hm₂.ne', add_mul, div_mul_cancel₀ _ hm₂.ne', mul_comm (_ : ℝ) (m₂ : ℝ)]
    exact_mod_cast hdiv.symm
  have hrest : ((m₁ * 2 ^ k % m₂ : Nat) : ℝ) / m₂ < 1 := by
    rw [div_lt_one hm₂]; exact_mod_cast hmod
  refine deliversRounded_roundTo ((Nat.two_pow_pos _).trans_le hbig).ne' ⟨?_, ?_, ?_⟩ (fun _ => hbig) halso <;>
    rw [hvalue, hquot]
  · exact mul_le_mul_of_nonneg_right (by linarith [show (0 : ℝ) ≤ ((m₁ * 2 ^ k % m₂ : Nat) : ℝ) / m₂ by positivity]) hunit.le
  · exact mul_lt_mul_of_pos_right (by linarith) hunit
  · rw [bne_iff_ne, ne_eq, ne_eq, mul_left_inj' hunit.ne', add_eq_left, div_eq_zero_iff, Nat.cast_eq_zero,
      or_iff_left hm₂.ne']

/-! ## Roots -/

theorem isqrtBits_spec (n x r : Nat) (hlo : r * r ≤ x) (hhi : x < (r + 2 ^ n) * (r + 2 ^ n)) :
    isqrtBits n x r * isqrtBits n x r ≤ x ∧ x < (isqrtBits n x r + 1) * (isqrtBits n x r + 1) := by
  induction n generalizing r with
  | zero => exact ⟨hlo, hhi⟩
  | succ n ih =>
    rw [isqrtBits]
    split
    · next h => exact ih _ h (by rwa [add_assoc, ← mul_two, ← pow_succ])
    · next h => exact ih r hlo (not_le.1 h)

/-- The integer square root. -/
theorem isqrt_spec (x : Nat) : isqrt x * isqrt x ≤ x ∧ x < (isqrt x + 1) * (isqrt x + 1) := by
  refine isqrtBits_spec _ x 0 (Nat.zero_le _) ?_
  rw [zero_add, ← pow_add]
  exact (Nat.lt_log2_self (n := x)).trans_le (Nat.pow_le_pow_right (by decide) (by omega))

theorem sqrt_natCast_approximates (x : Nat) (h : Int) : Approximates (isqrt x) h (isqrt x * isqrt x != x)
    (Real.sqrt x * (2 : ℝ) ^ h) := by
  obtain ⟨hlo, hhi⟩ := isqrt_spec x
  have hunit : (0 : ℝ) < (2 : ℝ) ^ h := by positivity
  refine ⟨mul_le_mul_of_nonneg_right (Real.le_sqrt_of_sq_le (by rw [sq]; exact_mod_cast hlo)) hunit.le,
    mul_lt_mul_of_pos_right ?_ hunit, ?_⟩
  · rw [Real.sqrt_lt' (by positivity), sq]; exact_mod_cast hhi
  · rw [bne_iff_ne, ne_eq, ne_eq, mul_left_inj' hunit.ne', Real.sqrt_eq_iff_mul_self_eq (by positivity) (by positivity),
      not_iff_not, eq_comm]
    exact_mod_cast Iff.rfl

/-- The root of a normal magnitude, rounded. -/
theorem sqrtRounded_rounds {f : FpFmt} (rm : BitVec 2) {m : Nat} (e : Int) (hm : 2 ^ f.fracBits ≤ m) :
    RoundsMagnitude f rm (Real.sqrt ((m : ℝ) * (2 : ℝ) ^ e)) (sqrtRounded f rm m e) := by
  set k := sqrtScale f e with hk
  obtain ⟨hlarge, h, hh⟩ : f.fracBits + 6 ≤ k ∧ ∃ h : Int, e - k = 2 * h := by
    rw [hk, sqrtScale]
    split
    · next heven => exact ⟨le_rfl, (e - (f.fracBits + 6 : Nat)) / 2, by omega⟩
    · next hodd => exact ⟨by omega, (e - (f.fracBits + 7 : Nat)) / 2, by omega⟩
  have hvalue : Real.sqrt ((m : ℝ) * (2 : ℝ) ^ e) = Real.sqrt (m * 2 ^ k : Nat) * (2 : ℝ) ^ h := by
    rw [show (m : ℝ) * (2 : ℝ) ^ e = (m * 2 ^ k : Nat) * ((2 : ℝ) ^ h) ^ 2 by
      rw [show e = k + (h + h) by omega, zpow_add₀ (by norm_num), zpow_add₀ (by norm_num), zpow_natCast]
      push_cast; ring]
    rw [Real.sqrt_mul (by positivity), Real.sqrt_sq (by positivity)]
  have hbig : 2 ^ (f.fracBits + 1) ≤ isqrt (m * 2 ^ k) := by
    have hsq : 2 ^ (f.fracBits + 1) * 2 ^ (f.fracBits + 1) ≤ m * 2 ^ k := by
      calc 2 ^ (f.fracBits + 1) * 2 ^ (f.fracBits + 1) = 2 ^ f.fracBits * 2 ^ (f.fracBits + 2) := by
            rw [← pow_add, ← pow_add]; congr 1; omega
        _ ≤ m * 2 ^ k := Nat.mul_le_mul hm (Nat.pow_le_pow_right (by decide) (by omega))
    by_contra hlt
    have := (isqrt_spec (m * 2 ^ k)).2
    have := Nat.mul_le_mul (Nat.succ_le_of_lt (not_le.1 hlt)) (Nat.succ_le_of_lt (not_le.1 hlt))
    rw [Nat.succ_eq_add_one] at this
    omega
  have hexp : (e - k) / 2 = h := by omega
  have happrox := sqrt_natCast_approximates (m * 2 ^ k) h
  rw [← hvalue, ← hexp] at happrox
  exact roundMag_isRounded rm ((Nat.two_pow_pos _).trans_le hbig).ne' happrox fun _ => hbig

/-! ## The operations on normal operands -/

theorem operand_of_classify {c : Fcr31} {f : FpFmt} {x : Dword} {neg : Bool} {m : Nat} {e : Int}
    (h : classify f x = .norm neg m e) : operand c f x = .norm neg m e := by rw [operand, h]; rfl

/-- An operand that is no NaN. -/
def FpClass.isNumber (x : FpClass) : Bool := !x.isSnan && !x.isQnan

/-- Without a NaN among the operands the rule goes on (rule R669 step 2). -/
theorem screenNan_none (f : FpFmt) (w : Dword) {xs : List (FpClass × Dword)} (h : ∀ x ∈ xs, FpClass.isNumber x.1 = true) :
    screenNan f w xs = none := by
  have hs : xs.any (fun x => x.1.isSnan) = false := by
    rw [List.any_eq_false]; intro x hx; have := h x hx; simp_all [FpClass.isNumber]
  have hq : xs.filter (fun x => x.1.isQnan) = [] := by
    rw [List.filter_eq_nil_iff]; intro x hx; have := h x hx; simp_all [FpClass.isNumber]
  rw [screenNan, hs, if_neg Bool.false_ne_true, hq]

section Normal

variable {c : Fcr31} {f : FpFmt} (w : Dword) {a b : Dword} {n₁ n₂ : Bool} {m₁ m₂ : Nat} {e₁ e₂ : Int}
  (ha : classify f a = .norm n₁ m₁ e₁) (hb : classify f b = .norm n₂ m₂ e₂)

include ha in
theorem screenNan_norm : screenNan f w [(operand c f a, a)] = none :=
  screenNan_none f w (by simp [operand_of_classify ha, FpClass.isNumber, FpClass.isSnan, FpClass.isQnan])

include ha in
theorem fpSqrt_norm (hn : n₁ = false) : fpSqrt c f w a = deliver c f false (sqrtRounded f c.rm m₁ e₁) false := by
  subst hn
  rw [fpSqrt, screenNan_norm w ha, operand_of_classify ha]

include ha in
theorem fpRsqrt_norm (hn : n₁ = false) : fpRsqrt c f w a =
    quotient c f false (2 ^ f.fracBits) (-(f.fracBits : Int)) (sqrtRounded f 1 m₁ e₁).m (sqrtRounded f 1 m₁ e₁).e
      (sqrtRounded f 1 m₁ e₁).inexact := by
  subst hn
  rw [fpRsqrt, screenNan_norm w ha, operand_of_classify ha]

include ha hb

theorem screenNan_norm_norm : screenNan f w [(operand c f a, a), (operand c f b, b)] = none :=
  screenNan_none f w (by
    simp [operand_of_classify ha, operand_of_classify hb, FpClass.isNumber, FpClass.isSnan, FpClass.isQnan])

theorem fpAdd_norm (sub : Bool) :
    fpAdd c f sub w a b = sumFinite c f n₁ m₁ e₁ (xor n₂ sub) m₂ e₂ false := by
  rw [fpAdd, screenNan_norm_norm w ha hb, operand_of_classify ha, operand_of_classify hb]

theorem fpMul_norm : fpMul c f w a b = roundTo c f (xor n₁ n₂) (m₁ * m₂) (e₁ + e₂) false false := by
  rw [fpMul, screenNan_norm_norm w ha hb, operand_of_classify ha, operand_of_classify hb]
  rfl

theorem fpDiv_norm : fpDiv c f w a b = quotient c f (xor n₁ n₂) m₁ e₁ m₂ e₂ false := by
  rw [fpDiv, screenNan_norm_norm w ha hb, operand_of_classify ha, operand_of_classify hb]
  rfl

end Normal

/-- A product of two magnitudes. -/
theorem magnitude_mul (m₁ m₂ : Nat) (e₁ e₂ : Int) :
    (m₁ : ℝ) * (2 : ℝ) ^ e₁ * ((m₂ : ℝ) * (2 : ℝ) ^ e₂) = ((m₁ * m₂ : Nat) : ℝ) * (2 : ℝ) ^ (e₁ + e₂) := by
  rw [zpow_add₀ (by norm_num)]; push_cast; ring

section Values

variable {c : Fcr31} {f : FpFmt} (w : Dword) {a b : Dword} {n₁ n₂ : Bool} {m₁ m₂ : Nat} {e₁ e₂ : Int}
  (ha : classify f a = .norm n₁ m₁ e₁) (hb : classify f b = .norm n₂ m₂ e₂)

include ha hb

theorem realValue_mul : realValue f a * realValue f b =
    withSignOf (xor n₁ n₂) (((m₁ * m₂ : Nat) : ℝ) * (2 : ℝ) ^ (e₁ + e₂)) := by
  rw [(normalParts_of_classify ha).value, (normalParts_of_classify hb).value, withSignOf_mul, magnitude_mul]

theorem fpMul_rounded : DeliversRounded c f (realValue f a * realValue f b) False (fpMul c f w a b) := by
  rw [realValue_mul ha hb, fpMul_norm w ha hb]
  exact deliversRounded_exact _ (Nat.mul_ne_zero (normalParts_of_classify ha).ne_zero (normalParts_of_classify hb).ne_zero)
    Bool.false_eq_true.to_iff

theorem fpDiv_rounded : DeliversRounded c f (realValue f a / realValue f b) False (fpDiv c f w a b) := by
  have hpa := normalParts_of_classify ha
  have hpb := normalParts_of_classify hb
  rw [hpa.value, hpb.value, withSignOf_div, fpDiv_norm w ha hb]
  exact quotient_rounded e₁ e₂ hpa.lower (Nat.pos_of_ne_zero hpb.ne_zero) hpb.upper.le Bool.false_eq_true.to_iff

end Values

theorem one_eq_magnitude (f : FpFmt) : ((2 ^ f.fracBits : Nat) : ℝ) * (2 : ℝ) ^ (-(f.fracBits : Int)) = 1 := by
  rw [zpow_neg, zpow_natCast]; push_cast; field_simp

theorem realValue_fpOne (f : FpFmt) : realValue f (fpOne f) = 1 := by
  rw [(normalParts_of_classify (classify_fpOne f)).value, one_eq_magnitude]; rfl

section Roots

variable {c : Fcr31} {f : FpFmt} (w : Dword) {a : Dword} {m : Nat} {e : Int} (ha : classify f a = .norm false m e)
include ha

theorem sqrtRounded_realValue (rm : BitVec 2) :
    RoundsMagnitude f rm (Real.sqrt (realValue f a)) (sqrtRounded f rm m e) := by
  have hp := normalParts_of_classify ha
  rw [hp.value]
  exact sqrtRounded_rounds rm e hp.lower

theorem fpSqrt_rounded : DeliversRounded c f (Real.sqrt (realValue f a)) False (fpSqrt c f w a) := by
  obtain ⟨hpos, hfits, hround, hinexact⟩ := sqrtRounded_realValue ha c.rm
  rw [fpSqrt_norm w ha rfl]
  exact deliversRounded_deliver ⟨hpos, hfits, iff_of_false Bool.false_ne_true (not_lt.2 (Real.sqrt_nonneg _)), hround,
    hinexact⟩ Bool.false_eq_true.to_iff

/-- The root is rounded toward zero, its reciprocal as the mode says (rule R709). -/
theorem fpRsqrt_rounded : ∃ t, IsRounded f 1 (Real.sqrt (realValue f a)) t ∧
    DeliversRounded c f (1 / t) (t ≠ Real.sqrt (realValue f a)) (fpRsqrt c f w a) := by
  obtain ⟨hpos, hfits, hround, hinexact⟩ := sqrtRounded_realValue ha 1
  refine ⟨_, hround, ?_⟩
  have h := quotient_rounded (c := c) (neg := false) (-(f.fracBits : Int)) (sqrtRounded f 1 m e).e le_rfl hpos hfits hinexact
  rw [one_eq_magnitude] at h
  rw [fpRsqrt_norm w ha rfl]
  exact h

end Roots

/-! ## Multiply-adds (rule R710) -/

section MultiplyAdd

variable {c : Fcr31} {f : FpFmt} (w : Dword) {a b : Dword} (d : Dword) {n₁ n₂ : Bool} {m₁ m₂ : Nat} {e₁ e₂ : Int}
  (ha : classify f a = .norm n₁ m₁ e₁) (hb : classify f b = .norm n₂ m₂ e₂)

/-- The product of two normal numbers, rounded before the addition. -/
def roundedProduct (c : Fcr31) (f : FpFmt) (n₁ n₂ : Bool) (m₁ m₂ : Nat) (e₁ e₂ : Int) : Rounded :=
  roundMag (f.fracBits + 1) c.rm (xor n₁ n₂) (m₁ * m₂) (e₁ + e₂) false

theorem fpMadd_negated (sub : Bool) {a b d : Dword} (h : isNan f (fpMaddCore c f sub w a b d).value = false) :
    fpMadd c f sub true w a b d =
      { fpMaddCore c f sub w a b d with value := (fpMaddCore c f sub w a b d).value ^^^ (1#64 <<< f.signPos) } := by
  simp only [fpMadd, h, Bool.not_false, Bool.true_or, Bool.and_true, if_true]
  rfl

include ha hb

theorem fpMaddCore_norm (sub : Bool) : fpMaddCore c f sub w a b d =
    if (roundedProduct c f n₁ n₂ m₁ m₂ e₁ e₂).overflows f || (roundedProduct c f n₁ n₂ m₁ m₂ e₁ e₂).tiny f then .unimplemented
    else addProduct c f sub (xor n₁ n₂) (roundedProduct c f n₁ n₂ m₁ m₂ e₁ e₂) (operand c f d) := by
  rw [fpMaddCore, operand_of_classify ha, operand_of_classify hb]
  rfl

theorem roundedProduct_rounds : RoundsTo f c.rm (xor n₁ n₂) (realValue f a * realValue f b)
    (roundedProduct c f n₁ n₂ m₁ m₂ e₁ e₂) := by
  rw [realValue_mul ha hb]
  exact roundMag_roundsTo c.rm _
    (Nat.mul_ne_zero (normalParts_of_classify ha).ne_zero (normalParts_of_classify hb).ne_zero)
    (approximates_exact _ _) (fun h => absurd h Bool.false_ne_true)

/-- The product rounds to `p`; outside the normal range the instruction is unimplemented, inside it goes on with the
addition (steps 6 and 7). -/
theorem fpMaddCore_product (sub : Bool) : ∃ p : Rounded, RoundsTo f c.rm (xor n₁ n₂) (realValue f a * realValue f b) p ∧
    (maxFinite f < (p.m : ℝ) * (2 : ℝ) ^ p.e ∨ (p.m : ℝ) * (2 : ℝ) ^ p.e < (2 : ℝ) ^ f.emin →
      fpMaddCore c f sub w a b d = .unimplemented) ∧
    ((2 : ℝ) ^ f.emin ≤ (p.m : ℝ) * (2 : ℝ) ^ p.e → (p.m : ℝ) * (2 : ℝ) ^ p.e ≤ maxFinite f →
      p.overflows f = false ∧ p.tiny f = false ∧
        fpMaddCore c f sub w a b d = addProduct c f sub (xor n₁ n₂) p (operand c f d)) := by
  have hp := roundedProduct_rounds (c := c) ha hb
  refine ⟨_, hp, fun h => ?_, fun hlo hhi => ?_⟩ <;> rw [fpMaddCore_norm w d ha hb]
  · rw [← overflows_iff hp.pos hp.fits, ← tiny_iff hp.pos hp.fits] at h
    rw [if_pos (Bool.or_eq_true_iff.2 h)]
  · rw [← not_lt, ← tiny_iff hp.pos hp.fits, Bool.not_eq_true] at hlo
    rw [← not_lt, ← overflows_iff hp.pos hp.fits, Bool.not_eq_true] at hhi
    exact ⟨hhi, hlo, if_neg (by rw [hhi, hlo]; exact Bool.false_ne_true)⟩

end MultiplyAdd

/-! ### Results are numbers -/

theorem isNan_of_exponent {f : FpFmt} {x : Dword} (h : x.toNat / 2 ^ f.fracBits % 2 ^ f.expBits ≠ 2 ^ f.expBits - 1) :
    isNan f x = false := by
  simp only [isNan, classify, if_neg h]
  split <;> [split; skip] <;> rfl

theorem isNan_zero (f : FpFmt) (n : Bool) : isNan f (zeroPattern f n) = false := by
  rw [isNan, classify_zero]; rfl

theorem isNan_overflowDefault (f : FpFmt) (rm : BitVec 2) (n : Bool) : isNan f (overflowDefault f rm n) = false := by
  rcases mode_cases rm with rfl | rfl | rfl | rfl <;> cases f <;> cases n <;> decide

theorem isNan_underflowDefault (f : FpFmt) (rm : BitVec 2) (n : Bool) : isNan f (underflowDefault f rm n) = false := by
  rcases mode_cases rm with rfl | rfl | rfl | rfl <;> cases f <;> cases n <;> decide

theorem isNan_unimplemented (f : FpFmt) : isNan f FpResult.unimplemented.value = false := by cases f <;> decide

/-- What is delivered is a number. -/
theorem isNan_deliver (c : Fcr31) {f : FpFmt} (neg : Bool) {r : Rounded} (also : Bool) (hpos : 0 < r.m)
    (hfits : r.m ≤ 2 ^ (f.fracBits + 1)) : isNan f (deliver c f neg r also).value = false := by
  cases ho : r.overflows f with
  | true => rw [deliver_overflow ho]; exact isNan_overflowDefault f c.rm neg
  | false =>
    cases ht : r.tiny f with
    | false =>
      rw [deliver_normal ho ht]
      exact isNan_of_exponent (packNormal_value hpos hfits neg ho ht).1.2
    | true =>
      by_cases hen : c.enables.u = true ∨ c.enables.i = true ∨ c.fs = false
      · rw [deliver_unimplemented ho ht hen]; exact isNan_unimplemented f
      · simp only [not_or, Bool.not_eq_true, Bool.not_eq_false] at hen
        obtain ⟨hu, hi, hfs⟩ := hen
        rw [deliver_flushed ho ht hu hi hfs]
        exact isNan_underflowDefault f c.rm neg

theorem isNan_sumFinite (c : Fcr31) (f : FpFmt) (n₁ n₂ also : Bool) (m₁ m₂ : Nat) (e₁ e₂ : Int) :
    isNan f (sumFinite c f n₁ m₁ e₁ n₂ m₂ e₂ also).value = false := by
  simp only [sumFinite]
  split
  · rw [fpZero_eq]; exact isNan_zero f _
  · next h =>
    have hr := roundMag_roundsTo (f := f) c.rm
      (decide (signedAt n₁ m₁ e₁ (min e₁ e₂) + signedAt n₂ m₂ e₂ (min e₁ e₂) < 0)) (Int.natAbs_ne_zero.2 h)
      (approximates_exact _ (min e₁ e₂)) fun h => absurd h Bool.false_ne_true
    exact isNan_deliver c _ _ hr.pos hr.fits

/-! ## The statement -/

/-- The results of the sums and differences of normal numbers. -/
theorem fpAdd_rounded {c : Fcr31} {f : FpFmt} (w : Dword) {a b : Dword} (sub : Bool) (ha : IsNormal f a) (hb : IsNormal f b)
    {v : ℝ} (hv : v = realValue f a + if sub then -realValue f b else realValue f b) :
    (v ≠ 0 → DeliversRounded c f v False (fpAdd c f sub w a b)) ∧
    (v = 0 → fpAdd c f sub w a b = { unimpl := false, flags := inexactFlags false, value := zeroPattern f (c.rm == 3) }) := by
  obtain ⟨-, n₁, m₁, e₁, ha⟩ := ha
  obtain ⟨-, n₂, m₂, e₂, hb⟩ := hb
  have hx := (normalParts_of_classify ha).value.symm
  have hy := (withSignOf_xor n₂ sub _).trans (by rw [← (normalParts_of_classify hb).value])
  rw [fpAdd_norm w ha hb, hv]
  exact ⟨fun h => sumFinite_rounded hx hy h Bool.false_eq_true.to_iff, fun h => sumFinite_zero hx hy h⟩

/-- Settles O55: every operation rounds the exact number it names; the product of a multiply-add is rounded first. -/
theorem fpArithmeticRoundsCorrectly : Obligations.FpArithmeticRoundsCorrectly := by
  intro c f w a b hA hB va vb zeroOf
  obtain ⟨n₁, m₁, e₁, ha⟩ := hA.2
  obtain ⟨n₂, m₂, e₂, hb⟩ := hB.2
  have hadd := fpAdd_rounded (c := c) (v := va + vb) w false hA hB rfl
  have hsub := fpAdd_rounded (c := c) (v := va - vb) w true hA hB (sub_eq_add_neg va vb)
  refine ⟨hadd.1, fun h => ⟨false, Bool.false_eq_true.to_iff, hadd.2 h⟩, hsub.1,
    fun h => ⟨false, Bool.false_eq_true.to_iff, hsub.2 h⟩,
    fpMul_rounded w ha hb, fpDiv_rounded w ha hb, ?recip, fun hpos => ?roots, fun d hD sub => ?madd⟩
  case recip =>
    have h := fpDiv_rounded (c := c) w (classify_fpOne f) ha
    rwa [realValue_fpOne] at h
  case roots =>
    have hn : n₁ = false := by
      have hp := normalParts_of_classify ha
      rw [← Bool.not_eq_true, withSignOf_neg_iff hp.magnitude_pos, ← hp.value]
      exact not_lt.2 hpos.le
    subst hn
    exact ⟨fpSqrt_rounded w ha, fpRsqrt_rounded w ha⟩
  case madd =>
    obtain ⟨-, n₃, m₃, e₃, hd⟩ := hD
    intro r vd
    obtain ⟨p, hp, hout, hin⟩ := fpMaddCore_product (c := c) w d ha hb sub
    rw [operand_of_classify hd] at hin
    have habs := abs_withSignOf (xor n₁ n₂) (y := (p.m : ℝ) * (2 : ℝ) ^ p.e) (by positivity)
    have hvd : withSignOf (xor n₃ sub) ((m₃ : ℝ) * (2 : ℝ) ^ e₃) = vd :=
      (withSignOf_xor n₃ sub _).trans (by rw [← (normalParts_of_classify hd).value])
    refine ⟨⟨withSignOf (xor n₁ n₂) ((p.m : ℝ) * (2 : ℝ) ^ p.e), hp.rounded, ?_, ?_⟩, fpMadd_negated w sub ?_⟩
    · rw [habs]; exact hout
    · rw [habs]
      intro hlo hhi
      obtain ⟨-, -, hsum⟩ := hin hlo hhi
      have hr : r = sumFinite c f (xor n₁ n₂) p.m p.e (xor n₃ sub) m₃ e₃ p.inexact := hsum
      rw [hr]
      exact ⟨fun h => sumFinite_rounded rfl hvd h hp.inexact_iff,
        fun h => ⟨p.inexact, hp.inexact_iff, sumFinite_zero rfl hvd h⟩⟩
    · by_cases hrange : maxFinite f < (p.m : ℝ) * (2 : ℝ) ^ p.e ∨ (p.m : ℝ) * (2 : ℝ) ^ p.e < (2 : ℝ) ^ f.emin
      · rw [hout hrange]; exact isNan_unimplemented f
      · rw [not_or, not_lt, not_lt] at hrange
        rw [(hin hrange.2 hrange.1).2.2]
        exact isNan_sumFinite c f _ _ _ _ _ _ _

end Sys2Proof.Proofs

/-! # Conversions

A conversion to an integer divides the fraction by a power of two; its quotient and remainder are the floor of the value and
what lies above it, on which both the machine's rule and `roundedInt` decide (`roundInt_rounds`). The range tests are then
comparisons of one natural number (`RoundsInt`). The other conversions are roundings as in the arithmetic. -/

namespace Sys2Proof.Proofs

open Sys2Proof.Machine Sys2Proof.Safety Sys2Proof.Laws

/-! ## The rule of rounding to an integer -/

theorem rat_floor_eq {x : ℚ} {n : Int} (hlo : (n : ℚ) ≤ x) (hhi : x < n + 1) : x.floor = n := Int.floor_eq_iff.2 ⟨hlo, hhi⟩

theorem rat_ceil_eq {x : ℚ} {n : Int} (hlo : (n : ℚ) - 1 < x) (hhi : x ≤ n) : x.ceil = n := by
  rw [Rat.ceil_eq_neg_floor_neg, rat_floor_eq (n := -n) (by push_cast; linarith) (by push_cast; linarith), neg_neg]

/-- An integer is its own rounding. -/
theorem roundedInt_intCast (rm : BitVec 2) (n : Int) : roundedInt rm (n : ℚ) = n := by
  have hfloor : (n : ℚ).floor = n := Rat.floor_intCast n
  have hceil : (n : ℚ).ceil = n := rat_ceil_eq (by linarith) le_rfl
  rcases mode_cases rm with rfl | rfl | rfl | rfl <;> simp [roundedInt, hfloor, hceil]

/-- The choice between the two integers around a number: nearest, a tie to the even one; toward zero; up; down. -/
theorem roundedInt_between {rm : BitVec 2} {x : ℚ} {n : Int} (hlo : (n : ℚ) < x) (hhi : x < n + 1) : roundedInt rm x =
    if rm = 0 then (if x - n < 1 / 2 then n else if 1 / 2 < x - n then n + 1 else if n % 2 = 0 then n else n + 1)
    else if rm = 1 then (if 0 ≤ x then n else n + 1) else if rm = 2 then n + 1 else n := by
  have hfloor : x.floor = n := rat_floor_eq hlo.le hhi
  have hceil : x.ceil = n + 1 := rat_ceil_eq (by push_cast; linarith) (by push_cast; linarith)
  rw [roundedInt, hfloor, hceil]

/-- A negative number is rounded as its magnitude is, with the directed modes exchanged. -/
theorem roundedInt_neg {rm : BitVec 2} {x : ℚ} (hx : 0 ≤ x) : roundedInt rm (-x) = -roundedInt (mirrored rm) x := by
  rcases (Int.floor_le x).eq_or_lt with heq | hlo
  · rw [← heq, ← Int.cast_neg, roundedInt_intCast, roundedInt_intCast]
  · have hhi := Int.lt_floor_add_one x
    rw [roundedInt_between hlo hhi, roundedInt_between (n := -⌊x⌋ - 1) (by push_cast; linarith) (by push_cast; linarith)]
    have hneg : ¬0 ≤ -x := by
      have : (0 : ℚ) ≤ ⌊x⌋ := by exact_mod_cast Int.floor_nonneg.2 hx
      linarith
    have hhalf : -x - ((-⌊x⌋ - 1 : Int) : ℚ) = 1 - (x - ⌊x⌋) := by push_cast; ring
    rcases mode_cases rm with rfl | rfl | rfl | rfl
    · rw [show mirrored 0 = 0 by decide, if_pos rfl, if_pos rfl, hhalf]
      rcases lt_trichotomy (x - ⌊x⌋) (1 / 2) with h | h | h
      · rw [if_neg (by linarith), if_pos (by linarith), if_pos h]
        ring
      · rw [h, show (1 : ℚ) - 1 / 2 = 1 / 2 by norm_num]
        simp only [lt_irrefl, if_false]
        split_ifs <;> omega
      · rw [if_pos (by linarith), if_neg (by linarith), if_pos h]
        ring
    · simp [mirrored, hneg, hx]
    · simp [mirrored]
    · simp [mirrored]; ring

/-! ## The machine's rounding to an integer -/

/-- The outcome of `roundInt` for a positive magnitude: the rounded integer, whether it differs, and on which side it lies. -/
structure RoundsInt (rm : BitVec 2) (y : ℚ) (n : Nat) (inexact up : Bool) : Prop where
  rounded : roundedInt rm y = n
  inexact_iff : inexact = true ↔ (n : ℚ) ≠ y
  near : (n : ℚ) < y + 1 ∧ y < n + 1
  side : up = false → (n : ℚ) ≤ y

theorem roundInt_negative (rm : BitVec 2) (m : Nat) (e : Int) : roundInt rm true m e = roundInt (mirrored rm) false m e := by
  simp only [roundInt, roundsUp_negative]

/-- A quotient with a remainder, as a rational number. -/
theorem rat_div_add_mod (m : Nat) {u : Nat} (h : 0 < u) : (m : ℚ) / u = (m / u : Nat) + ((m % u : Nat) : ℚ) / u := by
  have hu : (u : ℚ) ≠ 0 := by exact_mod_cast h.ne'
  rw [div_eq_iff hu, add_mul, div_mul_cancel₀ _ hu, mul_comm (_ : ℚ) (u : ℚ)]
  exact_mod_cast (Nat.div_add_mod m u).symm

/-- A fraction that is not 0 decides as the rule does. -/
theorem roundsInt_fraction {rm : BitVec 2} {m u : Nat} (hu : 0 < u) (hrest : m % u ≠ 0) {up : Bool}
    (hup : roundsUp rm false (m / u) (m % u) u false = up) :
    RoundsInt rm ((m : ℚ) / u) (if up then m / u + 1 else m / u) true up := by
  have hu' : (0 : ℚ) < u := by exact_mod_cast hu
  have hvalue := rat_div_add_mod m hu
  have hpos : 0 < ((m % u : Nat) : ℚ) / u := div_pos (by exact_mod_cast Nat.pos_of_ne_zero hrest) hu'
  have hlt : ((m % u : Nat) : ℚ) / u < 1 := by rw [div_lt_one hu']; exact_mod_cast Nat.mod_lt m hu
  have hlo : (((m / u : Nat) : Int) : ℚ) < (m : ℚ) / u := by rw [Int.cast_natCast]; linarith
  have hhi : (m : ℚ) / u < (((m / u : Nat) : Int) : ℚ) + 1 := by rw [Int.cast_natCast]; linarith
  have hrounded : roundedInt rm ((m : ℚ) / u) = ((if up then m / u + 1 else m / u : Nat) : Int) := by
    rw [roundedInt_between hlo hhi]
    rcases mode_cases rm with rfl | rfl | rfl | rfl
    · have hfrac : (m : ℚ) / u - (((m / u : Nat) : Int) : ℚ) = ((m % u : Nat) : ℚ) / u := by
        rw [Int.cast_natCast]; linarith
      have hbelow : ((m % u : Nat) : ℚ) / u < 1 / 2 ↔ 2 * (m % u) < u := by
        rw [div_lt_div_iff₀ hu' two_pos, one_mul, mul_comm]; exact_mod_cast Iff.rfl
      have habove : 1 / 2 < ((m % u : Nat) : ℚ) / u ↔ u < 2 * (m % u) := by
        rw [div_lt_div_iff₀ two_pos hu', one_mul, mul_comm]; exact_mod_cast Iff.rfl
      rw [if_pos rfl, hfrac]
      simp only [hbelow, habove]
      have hiff := roundsUp_nearest_iff (m / u) (m % u) u false
      rw [hup] at hiff
      simp only [hiff, Bool.false_eq_true, false_or]
      split_ifs <;> omega
    · rw [← hup, if_neg (by decide), if_pos rfl, if_pos (by positivity)]; rfl
    · rw [← hup, if_neg (by decide), if_neg (by decide), if_pos rfl]
      simp [roundsUp, hrest]
    · rw [← hup, if_neg (by decide), if_neg (by decide), if_neg (by decide)]; rfl
  rw [Int.cast_natCast] at hlo hhi
  cases up with
  | true =>
    simp only [if_true] at hrounded ⊢
    refine ⟨hrounded, iff_of_true rfl ?_, ?_, fun h => absurd h (by decide)⟩
    · push_cast; linarith
    · push_cast; constructor <;> linarith
  | false =>
    simp only [Bool.false_eq_true, if_false] at hrounded ⊢
    exact ⟨hrounded, iff_of_true rfl (by linarith), ⟨by linarith, hhi⟩, fun _ => hlo.le⟩

theorem roundsInt_natCast (rm : BitVec 2) (n : Nat) : RoundsInt rm (n : ℚ) n false false :=
  ⟨by exact_mod_cast roundedInt_intCast rm n, by simp, by constructor <;> linarith, fun _ => le_rfl⟩

theorem roundInt_rounds (rm : BitVec 2) (m : Nat) (e : Int) :
    RoundsInt rm ((m : ℚ) * (2 : ℚ) ^ e) (roundInt rm false m e).1 (roundInt rm false m e).2.1 (roundInt rm false m e).2.2 := by
  by_cases he : 0 ≤ e
  · obtain ⟨d, rfl⟩ := Int.eq_ofNat_of_zero_le he
    have h := roundsInt_natCast rm (m * 2 ^ d)
    push_cast at h
    simpa [roundInt] using h
  · obtain ⟨d, hd⟩ := Int.eq_ofNat_of_zero_le (show 0 ≤ -e by omega)
    have hpos : 0 < 2 ^ d := Nat.two_pow_pos d
    have hvalue : (m : ℚ) * (2 : ℚ) ^ e = (m : ℚ) / ((2 ^ d : Nat) : ℚ) := by
      rw [← neg_neg e, hd, zpow_neg]
      push_cast
      rw [zpow_natCast, div_eq_mul_inv]
    simp only [roundInt, if_neg he, hd, Int.toNat_natCast, hvalue]
    by_cases hrest : m % 2 ^ d = 0
    · have hexact : (m : ℚ) / ((2 ^ d : Nat) : ℚ) = (m / 2 ^ d : Nat) := by
        rw [rat_div_add_mod m hpos, hrest, Nat.cast_zero, zero_div, add_zero]
      rw [hrest, roundsUp_kept rm _ hpos.ne', hexact]
      exact roundsInt_natCast rm _
    · rw [show (m % 2 ^ d != 0) = true from bne_iff_ne.2 hrest]
      exact roundsInt_fraction hpos hrest rfl

/-! ## A normal source -/

theorem fpValue_norm {f : FpFmt} {x : Dword} {neg : Bool} {m : Nat} {e : Int} (h : classify f x = .norm neg m e) :
    fpValue f x = withSignOf neg ((m : ℚ) * (2 : ℚ) ^ e) := by
  obtain ⟨rfl, rfl, k, hk, h0, -, rfl⟩ := classify_norm h
  rw [fpValue_of_exponent hk.symm h0]
  unfold withSignOf
  split <;> ring

/-- A source's value, its rounding and the machine's, in one place. -/
structure IntSource (rm : BitVec 2) (x : ℚ) (neg : Bool) (y : ℚ) (n : Nat) (inexact up : Bool) : Prop where
  value : x = withSignOf neg y
  pos : 0 < y
  near : (n : ℚ) < y + 1 ∧ y < n + 1
  side : up = false → (n : ℚ) ≤ y
  rounded : roundedInt rm x = withSignOf neg (n : Int)
  inexact_iff : inexact = true ↔ ((roundedInt rm x : Int) : ℚ) ≠ x

theorem roundInt_source {f : FpFmt} {a : Dword} {neg : Bool} {m : Nat} {e : Int} (rm : BitVec 2)
    (h : classify f a = .norm neg m e) : IntSource rm (fpValue f a) neg ((m : ℚ) * (2 : ℚ) ^ e) (roundInt rm neg m e).1
      (roundInt rm neg m e).2.1 (roundInt rm neg m e).2.2 := by
  have hpos : 0 < (m : ℚ) * (2 : ℚ) ^ e := by
    have : 0 < m := Nat.pos_of_ne_zero (normalParts_of_classify h).ne_zero
    positivity
  rw [fpValue_norm h]
  cases neg with
  | false =>
    obtain ⟨hrounded, hinexact, hnear, hside⟩ := roundInt_rounds rm m e
    refine ⟨rfl, hpos, hnear, hside, hrounded, hinexact.trans ?_⟩
    simp only [withSignOf, Bool.false_eq_true, if_false, hrounded, Int.cast_natCast]
  | true =>
    obtain ⟨hrounded, hinexact, hnear, hside⟩ := roundInt_rounds (mirrored rm) m e
    rw [roundInt_negative]
    have hneg : roundedInt rm (-((m : ℚ) * (2 : ℚ) ^ e)) = -((roundInt (mirrored rm) false m e).1 : Int) := by
      rw [roundedInt_neg hpos.le, hrounded]
    refine ⟨rfl, hpos, hnear, hside, hneg, hinexact.trans ?_⟩
    simp only [withSignOf, if_true, hneg, Int.cast_neg, Int.cast_natCast, ne_eq, neg_inj]

/-- The result of a conversion to an integer that is in range. -/
theorem intResult_eq {rm : BitVec 2} {x : ℚ} {neg : Bool} {y : ℚ} {n : Nat} {inexact up : Bool}
    (h : IntSource rm x neg y n inexact up) : intResult neg n inexact =
      { unimpl := false, flags := { FpFlags.none with i := decide (((roundedInt rm x : Int) : ℚ) ≠ x) }
        value := BitVec.ofInt 64 (roundedInt rm x) } := by
  have hi : inexact = decide (((roundedInt rm x : Int) : ℚ) ≠ x) := by
    rw [Bool.eq_iff_iff, decide_eq_true_iff, h.inexact_iff]
  rw [intResult, ← hi, h.rounded]
  cases neg <;> simp [withSignOf, inexactFlags, BitVec.ofInt_neg]

section ToInteger

variable {c : Fcr31} {f : FpFmt} {rm : BitVec 2} (w : Dword) {a : Dword} {neg : Bool} {m : Nat} {e : Int}
  (h : classify f a = .norm neg m e)
include h

theorem fpToWord_norm : fpToWord c f rm w a =
    if (if neg then 2 ^ 31 else 2 ^ 31 - 1) < (roundInt rm neg m e).1 then .invalid 0x7FFFFFFF
    else if (roundInt rm neg m e).1 == (if neg then 2 ^ 31 else 2 ^ 31 - 1) && (roundInt rm neg m e).2.1 &&
      !(roundInt rm neg m e).2.2 && w.getLsbD 0 then .invalid 0x7FFFFFFF
    else intResult neg (roundInt rm neg m e).1 (roundInt rm neg m e).2.1 := by
  rw [fpToWord, operand_of_classify h]
  rfl

theorem fpToLong_norm : fpToLong c f rm w a =
    if (if 0 ≤ e then decide (2 ^ 63 < m * 2 ^ e.toNat) else decide (2 ^ 63 * 2 ^ (-e).toNat < m))
    then .invalid 0x7FFFFFFFFFFFFFFF
    else if neg && (roundInt rm neg m e).1 == 2 ^ 52 then
      (if w.getLsbD 0 then .unimplemented else intResult neg (roundInt rm neg m e).1 (roundInt rm neg m e).2.1)
    else if 2 ^ 52 ≤ (roundInt rm neg m e).1 then .unimplemented
    else intResult neg (roundInt rm neg m e).1 (roundInt rm neg m e).2.1 := by
  rw [fpToLong, operand_of_classify h]
  rfl

end ToInteger

/-- The test of the greatest magnitudes is on the value itself. -/
theorem tooBig_iff (m : Nat) (e : Int) :
    (if 0 ≤ e then decide (2 ^ 63 < m * 2 ^ e.toNat) else decide (2 ^ 63 * 2 ^ (-e).toNat < m)) = true ↔
      2 ^ 63 < (m : ℚ) * (2 : ℚ) ^ e := by
  split
  · next he =>
    obtain ⟨d, rfl⟩ := Int.eq_ofNat_of_zero_le he
    rw [decide_eq_true_iff, Int.toNat_natCast, zpow_natCast]
    exact_mod_cast Iff.rfl
  · next he =>
    obtain ⟨d, hd⟩ := Int.eq_ofNat_of_zero_le (show 0 ≤ -e by omega)
    rw [decide_eq_true_iff, hd, ← neg_neg e, hd, zpow_neg, ← div_eq_mul_inv, lt_div_iff₀ (by positivity), Int.toNat_natCast,
      zpow_natCast]
    exact_mod_cast Iff.rfl

section Source

variable {rm : BitVec 2} {x : ℚ} {neg : Bool} {y : ℚ} {n : Nat} {inexact up : Bool}

theorem IntSource.abs_value (h : IntSource rm x neg y n inexact up) : |x| = y := by
  rw [h.value]
  cases neg <;> simp [withSignOf, abs_of_pos h.pos]

theorem IntSource.le_of_le (h : IntSource rm x neg y n inexact up) {t : Nat} (ht : y ≤ t) : n ≤ t := by
  have : (n : ℚ) < (t + 1 : Nat) := by push_cast; linarith [h.near.1]
  exact Nat.lt_succ_iff.1 (by exact_mod_cast this)

theorem IntSource.ne_of_inexact (h : IntSource rm x neg y n inexact up) (hi : inexact = true) : (n : ℚ) ≠ y := by
  intro heq
  refine h.inexact_iff.1 hi ?_
  rw [h.rounded, h.value, ← heq]
  cases neg <;> simp [withSignOf]

/-- A number that is not above a bound does not reach it by rounding toward zero. -/
theorem IntSource.side_of_le (h : IntSource rm x neg y n inexact up) {t : Nat} (ht : y ≤ t) :
    (n == t && inexact && !up) = false := by
  by_contra hb
  simp only [Bool.not_eq_false, Bool.and_eq_true, beq_iff_eq, Bool.not_eq_true'] at hb
  obtain ⟨⟨rfl, hi⟩, hup⟩ := hb
  exact h.ne_of_inexact hi (le_antisymm (h.side hup) ht)

end Source

section ToInteger

variable {c : Fcr31} {f : FpFmt} {rm : BitVec 2} (w : Dword) {a : Dword} {neg : Bool} {m : Nat} {e : Int}
  (h : classify f a = .norm neg m e)
include h

theorem fpToWord_inRange (hlo : -(2 ^ 31) ≤ fpValue f a) (hhi : fpValue f a ≤ 2 ^ 31 - 1) :
    fpToWord c f rm w a = intResult neg (roundInt rm neg m e).1 (roundInt rm neg m e).2.1 := by
  have hs := roundInt_source rm h
  have hy : (m : ℚ) * (2 : ℚ) ^ e ≤ ((if neg then 2 ^ 31 else 2 ^ 31 - 1 : Nat) : ℚ) := by
    rw [hs.value] at hlo hhi
    cases neg with
    | true => simp only [withSignOf, if_true] at hlo ⊢; push_cast; linarith
    | false => simp only [withSignOf, Bool.false_eq_true, if_false] at hhi ⊢; norm_num at hhi ⊢; linarith
  rw [fpToWord_norm w h, if_neg (not_lt.2 (hs.le_of_le hy)), hs.side_of_le hy, Bool.false_and, if_neg Bool.false_ne_true]

theorem fpToWord_outside (hk : roundedInt rm (fpValue f a) < -(2 ^ 31) ∨ 2 ^ 31 - 1 < roundedInt rm (fpValue f a)) :
    fpToWord c f rm w a = .invalid 0x7FFFFFFF := by
  rw [(roundInt_source rm h).rounded] at hk
  rw [fpToWord_norm w h, if_pos]
  cases neg with
  | true => simp only [withSignOf, if_true] at hk ⊢; omega
  | false => simp only [withSignOf, Bool.false_eq_true, if_false] at hk ⊢; omega

theorem fpToLong_inRange (hlo : -(2 ^ 52) < roundedInt rm (fpValue f a)) (hhi : roundedInt rm (fpValue f a) < 2 ^ 52) :
    fpToLong c f rm w a = intResult neg (roundInt rm neg m e).1 (roundInt rm neg m e).2.1 := by
  have hs := roundInt_source rm h
  have hn : (roundInt rm neg m e).1 < 2 ^ 52 := by
    rw [hs.rounded] at hlo hhi
    cases neg with
    | true => simp only [withSignOf, if_true] at hlo ⊢; omega
    | false => simp only [withSignOf, Bool.false_eq_true, if_false] at hhi ⊢; omega
  have hsmall : ¬(2 ^ 63 < (m : ℚ) * (2 : ℚ) ^ e) := by
    have : ((roundInt rm neg m e).1 : ℚ) < 2 ^ 52 := by exact_mod_cast hn
    linarith [hs.near.2]
  have hlimit : (neg && (roundInt rm neg m e).1 == 2 ^ 52) = false := by
    rw [beq_false_of_ne hn.ne, Bool.and_false]
  rw [fpToLong_norm w h, if_neg (mt (tooBig_iff m e).1 hsmall), hlimit, if_neg Bool.false_ne_true, if_neg (not_le.2 hn)]

theorem fpToLong_beyond (hx : |fpValue f a| ≤ 2 ^ 63)
    (hk : roundedInt rm (fpValue f a) < -(2 ^ 52) ∨ 2 ^ 52 ≤ roundedInt rm (fpValue f a)) :
    fpToLong c f rm w a = .unimplemented := by
  have hs := roundInt_source rm h
  rw [hs.abs_value] at hx
  rw [hs.rounded] at hk
  obtain ⟨hn, hlimit⟩ : 2 ^ 52 ≤ (roundInt rm neg m e).1 ∧ (neg && (roundInt rm neg m e).1 == 2 ^ 52) = false := by
    cases neg with
    | true =>
      simp only [withSignOf, if_true] at hk
      exact ⟨by omega, by rw [Bool.true_and, beq_eq_false_iff_ne]; omega⟩
    | false =>
      simp only [withSignOf, Bool.false_eq_true, if_false] at hk
      exact ⟨by omega, Bool.false_and _⟩
  rw [fpToLong_norm w h, if_neg (mt (tooBig_iff m e).1 (not_lt.2 hx)), hlimit, if_neg Bool.false_ne_true, if_pos hn]

theorem fpToLong_tooBig (hx : 2 ^ 63 < |fpValue f a|) : fpToLong c f rm w a = .invalid 0x7FFFFFFFFFFFFFFF := by
  rw [(roundInt_source rm h).abs_value] at hx
  rw [fpToLong_norm w h, if_pos ((tooBig_iff m e).2 hx)]

/-- Between the formats a normal number is rounded (rules R716, R717). -/
theorem fpToFp_rounded (g : FpFmt) : DeliversRounded c g (realValue f a) False (fpToFp c f g a) := by
  have hp := normalParts_of_classify h
  rw [hp.value, fpToFp, operand_of_classify h]
  exact deliversRounded_exact e hp.ne_zero Bool.false_eq_true.to_iff

end ToInteger

/-- An integer is rounded to the format (rules R716, R717). -/
theorem fpFromInt_rounded (c : Fcr31) (f : FpFmt) {n : Int} (hn : n ≠ 0) :
    DeliversRounded c f (n : ℝ) False (fpFromInt c f n) := by
  have hvalue : (n : ℝ) = withSignOf (decide (n < 0)) ((n.natAbs : ℝ) * (2 : ℝ) ^ (0 : Int)) := by
    rw [zpow_zero, mul_one, Nat.cast_natAbs, Int.cast_abs]
    rcases lt_or_ge n 0 with hneg | hpos
    · rw [abs_of_neg (by exact_mod_cast hneg), decide_eq_true hneg, withSignOf, if_pos rfl, neg_neg]
    · rw [abs_of_nonneg (by exact_mod_cast hpos), decide_eq_false (by omega), withSignOf, if_neg Bool.false_ne_true]
  rw [fpFromInt, if_neg hn, hvalue]
  exact deliversRounded_exact 0 (Int.natAbs_ne_zero.2 hn) Bool.false_eq_true.to_iff

/-- Settles O56: the source's class picks the clause; a normal one is rounded to an integer or to a format. -/
theorem fpConversionsRoundCorrectly : Obligations.FpConversionsRoundCorrectly := by
  intro c f g rm w a n
  refine ⟨?norm, fun neg h => ?zero, fun neg h => ?inf, fun neg h => ?nan, fun neg h => ?qnan,
    fun neg h => ?snan, fun neg m h => ?denorm, fun hn _ => fpFromInt_rounded c f hn, ?fromZero⟩
  case norm =>
    intro hA x k integer
    obtain ⟨neg, m, e, h⟩ := hA.2
    have hinteger := intResult_eq (roundInt_source rm h)
    exact ⟨fun hlo hhi => (fpToWord_inRange w h hlo hhi).trans hinteger, fpToWord_outside w h,
      fun hlo hhi => (fpToLong_inRange w h hlo hhi).trans hinteger, fpToLong_beyond w h, fpToLong_tooBig w h,
      fpToFp_rounded h g⟩
  case zero => simp [fpToWord, fpToLong, fpToFp, operand, h, flushOperand]
  case inf => simp [fpToWord, fpToLong, fpToFp, operand, h, flushOperand, intQnan]
  case nan => rcases h with h | h <;> simp [fpToWord, fpToLong, operand, h, flushOperand, intQnan]
  case qnan => simp [fpToFp, operand, h, flushOperand]
  case snan => simp [fpToFp, operand, h, flushOperand]
  case denorm =>
    exact ⟨fun hfs => by simp [fpToWord, fpToLong, fpToFp, operand, h, flushOperand, hfs],
      fun hfs => by simp [fpToWord, fpToLong, fpToFp, operand, h, flushOperand, hfs]⟩
  case fromZero => cases f <;> rfl

end Sys2Proof.Proofs

/-! # Special operands

What an operation does with an operand that is not a normal number depends on the operand's class alone, but for a NaN,
whose pattern is passed. So each class is named once with its sign (`operand_inf` and its companions), the screen for NaNs
is described once (`screenNan_snan`, `screenNan_qnan`, `screenNan_insert`), and a clause of Table 6.15 is the operation's own
line for the classes it names. -/

namespace Sys2Proof.Proofs

open Sys2Proof.Machine Sys2Proof.Safety Sys2Proof.Laws

/-! ## The class of an operand -/

section Classes

variable {c : Fcr31} {f : FpFmt} {x : Dword}

theorem operand_snan (h : IsSnan f x) : operand c f x = .snan (signOf f x) := by
  obtain ⟨n, h⟩ := h
  rw [← classify_neg, operand, h]; rfl

theorem operand_qnan (h : IsQnan f x) : operand c f x = .qnan (signOf f x) := by
  obtain ⟨n, h⟩ := h
  rw [← classify_neg, operand, h]; rfl

theorem operand_inf (h : IsInf f x) : operand c f x = .inf (signOf f x) := by
  obtain ⟨n, h⟩ := h
  rw [← classify_neg, operand, h]; rfl

theorem operand_zero (h : IsZero f x) : operand c f x = .zero (signOf f x) := by
  obtain ⟨-, n, h⟩ := h
  rw [← classify_neg, operand, h]; rfl

theorem operand_norm (h : IsNormal f x) : ∃ m e, operand c f x = .norm (signOf f x) m e := by
  obtain ⟨-, n, m, e, h⟩ := h
  exact ⟨m, e, by rw [← classify_neg, operand, h]; rfl⟩

theorem operand_denorm (h : IsDenorm f x) (hfs : c.fs = false) : ∃ m, operand c f x = .denorm (signOf f x) m := by
  obtain ⟨n, m, h⟩ := h
  exact ⟨m, by rw [← classify_neg, operand, h, flushOperand, hfs]; rfl⟩

/-- With `FS` = 1 a denormalized operand is the zero of its sign (rule R668). -/
theorem operand_flushed (h : IsDenorm f x) (hfs : c.fs = true) : operand c f x = .zero (signOf f x) := by
  obtain ⟨n, m, h⟩ := h
  rw [← classify_neg, operand, h, flushOperand, hfs]; rfl

theorem operand_fpOne (c : Fcr31) (f : FpFmt) :
    operand c f (fpOne f) = .norm false (2 ^ f.fracBits) (-(f.fracBits : Int)) := operand_of_classify (classify_fpOne f)

theorem signOf_zeroPattern (f : FpFmt) (n : Bool) : signOf f (zeroPattern f n) = n := by
  rw [← classify_neg, classify_zero]; rfl

theorem operand_zeroPattern (c : Fcr31) (f : FpFmt) (n : Bool) : operand c f (zeroPattern f n) = .zero n := by
  rw [operand, classify_zero]; rfl

theorem flushOperand_isSnan (fs : Bool) (x : FpClass) : (flushOperand fs x).isSnan = x.isSnan := by
  cases x <;> cases fs <;> rfl

theorem flushOperand_isQnan (fs : Bool) (x : FpClass) : (flushOperand fs x).isQnan = x.isQnan := by
  cases x <;> cases fs <;> rfl

theorem isSnan_operand_iff : (operand c f x).isSnan = true ↔ IsSnan f x := by
  rw [operand, flushOperand_isSnan, IsSnan]
  cases classify f x <;> simp [FpClass.isSnan]

theorem isQnan_operand_iff : (operand c f x).isQnan = true ↔ IsQnan f x := by
  rw [operand, flushOperand_isQnan, IsQnan]
  cases classify f x <;> simp [FpClass.isQnan]

/-- A number: neither infinite nor a NaN. -/
theorem operand_finite (hnan : ¬IsNan f x) (hinf : ¬IsInf f x) : operand c f x = .zero (signOf f x) ∨
    (∃ m, operand c f x = .denorm (signOf f x) m) ∨ ∃ m e, operand c f x = .norm (signOf f x) m e := by
  have hneg := classify_neg f x
  unfold IsNan IsQnan IsSnan at hnan
  unfold IsInf at hinf
  unfold operand
  cases hx : classify f x <;> simp [hx, FpClass.neg] at hnan hinf hneg
  · simp [flushOperand, hneg]
  · simp only [flushOperand]
    split <;> simp [hneg]
  · simp [flushOperand, hneg]

end Classes

/-! ## The screen for NaNs (rules R664, R669 step 2) -/

theorem screenNan_snan (f : FpFmt) (w : Dword) {xs : List (FpClass × Dword)} (h : ∃ x ∈ xs, x.1.isSnan = true) :
    screenNan f w xs = some (.invalid (genQnan f)) := if_pos (List.any_eq_true.2 h)

/-- Without a signaling NaN one of the quiet ones is passed. -/
theorem screenNan_qnan (f : FpFmt) (w : Dword) {xs : List (FpClass × Dword)} (hs : ∀ x ∈ xs, x.1.isSnan = false)
    (hq : ∃ x ∈ xs, x.1.isQnan = true) :
    ∃ q ∈ xs, q.1.isQnan = true ∧ screenNan f w xs = some (.exact q.2) := by
  have hany : xs.any (fun x => x.1.isSnan) = false := List.any_eq_false.2 fun x hx => by simp [hs x hx]
  have hmem : ∀ q ∈ xs.filter (fun x => x.1.isQnan), q ∈ xs ∧ q.1.isQnan = true := fun q h => List.mem_filter.1 h
  rw [screenNan, hany, if_neg Bool.false_ne_true]
  generalize hl : xs.filter (fun x => x.1.isQnan) = l at hmem
  match l, hl, hmem with
  | [], hl, _ =>
    obtain ⟨x, hx, hxq⟩ := hq
    exact absurd hxq (by simpa using List.filter_eq_nil_iff.1 hl x hx)
  | [q], _, hmem => exact ⟨q, (hmem q (by simp)).1, (hmem q (by simp)).2, rfl⟩
  | q :: q' :: qs, _, hmem =>
    have hlt : w.toNat % (q :: q' :: qs).length < (q :: q' :: qs).length := Nat.mod_lt _ (by simp)
    have hpick := hmem _ (List.getElem_mem hlt)
    refine ⟨_, hpick.1, hpick.2, ?_⟩
    dsimp only
    rw [List.getD_eq_getElem _ _ (by simpa using hlt), List.getElem_map]

/-- A number does not matter to the screen. -/
theorem screenNan_insert (f : FpFmt) (w : Dword) {x : FpClass} (h : FpClass.isNumber x = true) (a : Dword)
    (xs ys : List (FpClass × Dword)) : screenNan f w (xs ++ (x, a) :: ys) = screenNan f w (xs ++ ys) := by
  obtain ⟨hs, hq⟩ : x.isSnan = false ∧ x.isQnan = false := by simpa [FpClass.isNumber] using h
  have hany : (xs ++ (x, a) :: ys).any (fun x => x.1.isSnan) = (xs ++ ys).any (fun x => x.1.isSnan) := by
    rw [List.any_append, List.any_cons, List.any_append, hs, Bool.false_or]
  have hfilter : (xs ++ (x, a) :: ys).filter (fun x => x.1.isQnan) = (xs ++ ys).filter (fun x => x.1.isQnan) := by
    rw [List.filter_append, List.filter_cons, hq, if_neg Bool.false_ne_true, List.filter_append]
  rw [screenNan, hany, hfilter, screenNan]

@[simp] theorem isNumber_inf (n : Bool) : FpClass.isNumber (.inf n) = true := by
  simp [FpClass.isNumber, FpClass.isSnan, FpClass.isQnan]
@[simp] theorem isNumber_zero (n : Bool) : FpClass.isNumber (.zero n) = true := by
  simp [FpClass.isNumber, FpClass.isSnan, FpClass.isQnan]
@[simp] theorem isNumber_denorm (n : Bool) (m : Nat) : FpClass.isNumber (.denorm n m) = true := by
  simp [FpClass.isNumber, FpClass.isSnan, FpClass.isQnan]
@[simp] theorem isNumber_norm (n : Bool) (m : Nat) (e : Int) : FpClass.isNumber (.norm n m e) = true := by
  simp [FpClass.isNumber, FpClass.isSnan, FpClass.isQnan]

@[simp] theorem screenNan_number (f : FpFmt) (w : Dword) {x : FpClass} (a : Dword) (hx : FpClass.isNumber x = true) :
    screenNan f w [(x, a)] = none := screenNan_none f w (by simpa using hx)

@[simp] theorem screenNan_numbers (f : FpFmt) (w : Dword) {x y : FpClass} (a b : Dword) (hx : FpClass.isNumber x = true)
    (hy : FpClass.isNumber y = true) : screenNan f w [(x, a), (y, b)] = none := screenNan_none f w (by simpa using ⟨hx, hy⟩)

/-! ### What the screen answers for an operation -/

section Screened

variable {c : Fcr31} {f : FpFmt} {w a b : Dword} {r : FpResult}

theorem binary_screened (h : screenNan f w [(operand c f a, a), (operand c f b, b)] = some r) :
    (∀ sub, fpAdd c f sub w a b = r) ∧ fpMul c f w a b = r ∧ fpDiv c f w a b = r :=
  ⟨fun _ => by rw [fpAdd, h], by rw [fpMul, h], by rw [fpDiv, h]⟩

theorem unary_screened (h : screenNan f w [(operand c f a, a)] = some r) :
    fpSqrt c f w a = r ∧ fpRecip c f w a = r ∧ fpRsqrt c f w a = r := by
  have hone := screenNan_insert f w (x := operand c f (fpOne f)) (by rw [operand_fpOne]; rfl) (fpOne f) []
    [(operand c f a, a)]
  exact ⟨by rw [fpSqrt, h], (binary_screened (hone.trans h)).2.2, by rw [fpRsqrt, h]⟩

end Screened

theorem not_isSnan_of_isQnan {f : FpFmt} {x : Dword} (h : IsQnan f x) : ¬IsSnan f x := by
  obtain ⟨n, h⟩ := h
  rintro ⟨n', h'⟩
  rw [h] at h'
  cases h'

section NanOperands

variable (c : Fcr31) (f : FpFmt) (w : Dword) {a b : Dword}

theorem screenNan_pair_snan (h : IsSnan f a ∨ IsSnan f b) :
    screenNan f w [(operand c f a, a), (operand c f b, b)] = some (.invalid (genQnan f)) :=
  screenNan_snan f w (by simpa [isSnan_operand_iff] using h)

theorem screenNan_pair_qnan (ha : ¬IsSnan f a) (hb : ¬IsSnan f b) (h : IsQnan f a ∨ IsQnan f b) :
    ∃ q ∈ [a, b], IsQnan f q ∧ screenNan f w [(operand c f a, a), (operand c f b, b)] = some (.exact q) := by
  obtain ⟨q, hq, hnan, hscreen⟩ := screenNan_qnan f w (xs := [(operand c f a, a), (operand c f b, b)])
    (by simp [← Bool.not_eq_true, isSnan_operand_iff, ha, hb]) (by simpa [isQnan_operand_iff] using h)
  simp only [List.mem_cons, List.not_mem_nil, or_false] at hq
  rcases hq with rfl | rfl
  · exact ⟨a, by simp, isQnan_operand_iff.1 hnan, hscreen⟩
  · exact ⟨b, by simp, isQnan_operand_iff.1 hnan, hscreen⟩

/-- A quiet NaN and a number: the NaN is passed. -/
theorem screenNan_first (ha : IsQnan f a) (hb : ¬IsNan f b) :
    screenNan f w [(operand c f a, a), (operand c f b, b)] = some (.exact a) := by
  obtain ⟨q, hq, hnan, hscreen⟩ :=
    screenNan_pair_qnan c f w (not_isSnan_of_isQnan ha) (fun h => hb (.inr h)) (.inl ha)
  simp only [List.mem_cons, List.not_mem_nil, or_false] at hq
  rcases hq with rfl | rfl
  · exact hscreen
  · exact absurd (.inl hnan) hb

theorem screenNan_second (ha : ¬IsNan f a) (hb : IsQnan f b) :
    screenNan f w [(operand c f a, a), (operand c f b, b)] = some (.exact b) := by
  obtain ⟨q, hq, hnan, hscreen⟩ :=
    screenNan_pair_qnan c f w (fun h => ha (.inr h)) (not_isSnan_of_isQnan hb) (.inr hb)
  simp only [List.mem_cons, List.not_mem_nil, or_false] at hq
  rcases hq with rfl | rfl
  · exact absurd (.inl hnan) ha
  · exact hscreen

theorem screenNan_single_snan (ha : IsSnan f a) : screenNan f w [(operand c f a, a)] = some (.invalid (genQnan f)) :=
  screenNan_snan f w (by simpa [isSnan_operand_iff] using ha)

theorem screenNan_single (ha : IsQnan f a) : screenNan f w [(operand c f a, a)] = some (.exact a) := by
  obtain ⟨q, hq, -, hscreen⟩ := screenNan_qnan f w (xs := [(operand c f a, a)])
    (by simp [← Bool.not_eq_true, isSnan_operand_iff, not_isSnan_of_isQnan ha]) (by simpa [isQnan_operand_iff] using ha)
  rw [List.mem_singleton.1 hq] at hscreen
  exact hscreen

end NanOperands

/-! ## The sign operations (rules R705, R707) -/

section SignOps

variable {f : FpFmt}

theorem signPos_lt (f : FpFmt) : f.signPos < 64 := by cases f <;> decide

theorem getLsbD_signBit (f : FpFmt) (k : Nat) : BitVec.getLsbD (1#64 <<< f.signPos) k = decide (f.signPos = k) := by
  rw [← BitVec.twoPow_eq, BitVec.getLsbD_twoPow, decide_eq_true (signPos_lt f), Bool.true_and]

theorem withSign_eq (f : FpFmt) (n : Bool) (x : Dword) :
    withSign f n x = if n then x ||| 1#64 <<< f.signPos else x &&& ~~~(1#64 <<< f.signPos) := rfl

/-- `withSign` writes the sign and no other bit. -/
theorem getLsbD_withSign (f : FpFmt) (n : Bool) (x : Dword) {k : Nat} (hk : k ≤ f.signPos) :
    (withSign f n x).getLsbD k = if k = f.signPos then n else x.getLsbD k := by
  have hlt : k < 64 := hk.trans_lt (signPos_lt f)
  cases n with
  | true =>
    rw [withSign_eq, if_pos rfl, BitVec.getLsbD_or, getLsbD_signBit]
    rcases eq_or_ne k f.signPos with rfl | h <;> [simp; simp [h, h.symm]]
  | false =>
    rw [withSign_eq, if_neg Bool.false_ne_true, BitVec.getLsbD_and, BitVec.getLsbD_not, getLsbD_signBit, decide_eq_true hlt]
    rcases eq_or_ne k f.signPos with rfl | h <;> [simp; simp [h, h.symm]]

/-- The bits of a zero below its sign. -/
theorem getLsbD_of_classify_zero {x : Dword} {n : Bool} (h : classify f x = .zero n) {k : Nat} (hk : k < f.signPos) :
    x.getLsbD k = false := by
  obtain ⟨hexp, hfrac⟩ : x.toNat / 2 ^ f.fracBits % 2 ^ f.expBits = 0 ∧ x.toNat % 2 ^ f.fracBits = 0 := by
    simp only [classify] at h
    split_ifs at h with h1 h2 h3 h4 h5
    exact ⟨h4, h5⟩
  have hlow : x.toNat % 2 ^ f.signPos = 0 := by
    rw [FpFmt.signPos, pow_add, Nat.mod_mul, hexp, hfrac, Nat.mul_zero]
  have hbit := Nat.testBit_mod_two_pow x.toNat f.signPos k
  rw [hlow, Nat.zero_testBit, decide_eq_true hk, Bool.true_and] at hbit
  exact hbit.symm

/-- `ABS` and `NEG` change the sign only. -/
theorem fpSignOp_number {c : Fcr31} {a : Dword} (hnan : ¬IsNan f a) (hfs : IsDenorm f a → c.fs = false) (n : Bool) :
    ∃ v, fpSignOp c f n a = .exact v ∧ signOf f v = (n && !signOf f a) ∧
      ∀ k, k < f.signPos → v.getLsbD k = a.getLsbD k := by
  have hsign : ∀ m, signOf f (withSign f m a) = m := fun m =>
    (getLsbD_withSign f m a le_rfl).trans (if_pos rfl)
  have hbits : ∀ m k, k < f.signPos → (withSign f m a).getLsbD k = a.getLsbD k := fun m k hk =>
    (getLsbD_withSign f m a hk.le).trans (if_neg hk.ne)
  by_cases hinf : IsInf f a
  · exact ⟨_, by rw [fpSignOp, operand_inf hinf]; rfl, hsign _, hbits _⟩
  by_cases hden : IsDenorm f a
  · obtain ⟨m, h⟩ := operand_denorm hden (hfs hden)
    exact ⟨_, by rw [fpSignOp, h]; rfl, hsign _, hbits _⟩
  · cases hx : classify f a with
    | snan m => exact absurd (.inr ⟨m, hx⟩) hnan
    | qnan m => exact absurd (.inl ⟨m, hx⟩) hnan
    | inf m => exact absurd ⟨m, hx⟩ hinf
    | denorm m k => exact absurd ⟨m, k, hx⟩ hden
    | norm m k e =>
      obtain rfl : m = signOf f a := by rw [← classify_neg, hx]; rfl
      exact ⟨_, by rw [fpSignOp, operand_of_classify hx]; rfl, hsign _, hbits _⟩
    | zero m =>
      obtain rfl : m = signOf f a := by rw [← classify_neg, hx]; rfl
      have hop : operand c f a = .zero (signOf f a) := by rw [operand, hx]; rfl
      refine ⟨_, by rw [fpSignOp, hop], by rw [fpZero_eq, signOf_zeroPattern, FpClass.neg], fun k hk => ?_⟩
      rw [fpZero_eq, getLsbD_of_classify_zero (classify_zero f _) hk, getLsbD_of_classify_zero hx hk]

end SignOps

/-! ## Flushed operands (rule R668) -/

/-- An operand that reads as zero may be replaced by that zero, in every place. -/
theorem flushesOperands (c : Fcr31) (f : FpFmt) (w a b d : Dword) : FlushesOperands c f w a b d := by
  intro hfs hden z
  have ha : operand c f a = .zero (signOf f a) := operand_flushed hden hfs
  have hz : operand c f z = .zero (signOf f a) := operand_zeroPattern c f _
  have hfirst (ys) : screenNan f w ((.zero (signOf f a), a) :: ys) = screenNan f w ((.zero (signOf f a), z) :: ys) :=
    (screenNan_insert f w rfl a [] ys).trans (screenNan_insert f w rfl z [] ys).symm
  have hsecond (p ys) : screenNan f w (p :: (.zero (signOf f a), a) :: ys) =
      screenNan f w (p :: (.zero (signOf f a), z) :: ys) :=
    (screenNan_insert f w rfl a [p] ys).trans (screenNan_insert f w rfl z [p] ys).symm
  have hthird (p q) : screenNan f w [p, q, (.zero (signOf f a), a)] = screenNan f w [p, q, (.zero (signOf f a), z)] :=
    (screenNan_insert f w rfl a [p, q] []).trans (screenNan_insert f w rfl z [p, q] []).symm
  refine ⟨fun sub => ⟨?_, ?_⟩, ?_, ?_, ?_, ?_, ?_, ?_, ?_, fun n => ?_, fun sub n => ⟨?_, ?_, ?_⟩⟩
  · simp only [fpAdd, ha, hz, hfirst]
  · simp only [fpAdd, ha, hz, hsecond]
  · simp only [fpMul, ha, hz, hfirst]
  · simp only [fpMul, ha, hz, hsecond]
  · simp only [fpDiv, ha, hz, hfirst]
  · simp only [fpDiv, ha, hz, hsecond]
  · simp only [fpSqrt, ha, hz, hfirst]
  · simp only [fpRecip, fpDiv, ha, hz, hsecond]
  · simp only [fpRsqrt, ha, hz, hfirst]
  · simp only [fpSignOp, ha, hz]
  · simp only [fpMadd, fpMaddCore, ha, hz, hfirst]
  · simp only [fpMadd, fpMaddCore, ha, hz, hsecond]
  · simp only [fpMadd, fpMaddCore, ha, hz, hthird, fpMaddCore.infProduct, fpMaddCore.zeroProduct]

/-! ## Infinities, zeros and denormalized operands -/

section Operands

variable {c : Fcr31} {f : FpFmt} (w : Dword) {a b : Dword}

theorem inf_inf (ha : IsInf f a) (hb : IsInf f b) :
    fpAdd c f false w a b = (if signOf f a = signOf f b then .exact (infinityPattern f (signOf f a)) else .invalid (genQnan f)) ∧
    fpAdd c f true w a b = (if signOf f a = signOf f b then .invalid (genQnan f) else .exact (infinityPattern f (signOf f a))) ∧
    fpMul c f w a b = .exact (infinityPattern f (xor (signOf f a) (signOf f b))) ∧
    fpDiv c f w a b = .invalid (genQnan f) := by
  have hxa := operand_inf (c := c) ha
  have hxb := operand_inf (c := c) hb
  refine ⟨?_, ?_, ?_, ?_⟩
  · simp [fpAdd, hxa, hxb]
  · cases hs : signOf f a <;> cases ht : signOf f b <;> simp [fpAdd, hxa, hxb, hs, ht]
  · simp [fpMul, hxa, hxb, FpClass.neg]
  · simp [fpDiv, hxa, hxb]

/-- An infinity and a finite number. -/
theorem inf_finite (ha : IsInf f a) (hinf : ¬IsInf f b) (hnan : ¬IsNan f b) :
    (∀ sub, fpAdd c f sub w a b = .exact (infinityPattern f (signOf f a))) ∧
    fpAdd c f false w b a = .exact (infinityPattern f (signOf f a)) ∧
    fpAdd c f true w b a = .exact (infinityPattern f (!signOf f a)) ∧
    fpDiv c f w a b = .exact (infinityPattern f (xor (signOf f a) (signOf f b))) ∧
    fpDiv c f w b a = .exact (zeroPattern f (xor (signOf f a) (signOf f b))) := by
  have hxa := operand_inf (c := c) ha
  rcases operand_finite (c := c) hnan hinf with hxb | ⟨m, hxb⟩ | ⟨m, e, hxb⟩ <;>
    simp [fpAdd, fpDiv, hxa, hxb, FpClass.neg, Bool.xor_comm]

theorem inf_nonzero (ha : IsInf f a) (hb : IsNormal f b ∨ (IsDenorm f b ∧ c.fs = false)) :
    fpMul c f w a b = .exact (infinityPattern f (xor (signOf f a) (signOf f b))) ∧
    fpMul c f w b a = .exact (infinityPattern f (xor (signOf f a) (signOf f b))) := by
  have hxa := operand_inf (c := c) ha
  rcases hb with hb | ⟨hb, hfs⟩
  · obtain ⟨m, e, hxb⟩ := operand_norm (c := c) hb
    simp [fpMul, hxa, hxb, FpClass.neg, Bool.xor_comm]
  · obtain ⟨m, hxb⟩ := operand_denorm hb hfs
    simp [fpMul, hxa, hxb, FpClass.neg, Bool.xor_comm]

theorem inf_zero (ha : IsInf f a) (hb : IsZero f b) :
    fpMul c f w a b = .invalid (genQnan f) ∧ fpMul c f w b a = .invalid (genQnan f) := by
  simp [fpMul, operand_inf ha, operand_zero hb]

theorem inf_roots (ha : IsInf f a) : fpRecip c f w a = .exact (zeroPattern f (signOf f a)) ∧
    (signOf f a = false → fpSqrt c f w a = .exact (infinityPattern f false) ∧ fpRsqrt c f w a = .exact (zeroPattern f false)) ∧
    (signOf f a = true → fpSqrt c f w a = .invalid (genQnan f) ∧ fpRsqrt c f w a = .invalid (genQnan f)) := by
  have hxa := operand_inf (c := c) ha
  refine ⟨?_, fun hs => ?_, fun hs => ?_⟩
  · simp [fpRecip, fpDiv, hxa, operand_fpOne, FpClass.neg]
  · rw [hs] at hxa; simp [fpSqrt, fpRsqrt, hxa]
  · rw [hs] at hxa; simp [fpSqrt, fpRsqrt, hxa]

theorem zero_zero (ha : IsZero f a) (hb : IsZero f b) :
    (let sum (n : Bool) := FpResult.exact (zeroPattern f (if signOf f a = n then n else c.rm == 3))
     fpAdd c f false w a b = sum (signOf f b) ∧ fpAdd c f true w a b = sum (!signOf f b)) ∧
    fpMul c f w a b = .exact (zeroPattern f (xor (signOf f a) (signOf f b))) ∧ fpDiv c f w a b = .invalid (genQnan f) := by
  have hxa := operand_zero (c := c) ha
  have hxb := operand_zero (c := c) hb
  refine ⟨⟨?_, ?_⟩, ?_, ?_⟩
  · cases hs : signOf f a <;> cases ht : signOf f b <;> simp [fpAdd, hxa, hxb, zeroSum, hs, ht]
  · cases hs : signOf f a <;> cases ht : signOf f b <;> simp [fpAdd, hxa, hxb, zeroSum, hs, ht]
  · simp [fpMul, hxa, hxb, FpClass.neg]
  · simp [fpDiv, hxa, hxb]

/-- A normal number passes unchanged through a rounding; its sign may be inverted. -/
theorem roundTo_operand {b : Dword} {n : Bool} {m : Nat} {e : Int} (hb : b.toNat < 2 ^ (f.signPos + 1))
    (h : classify f b = .norm n m e) (sub : Bool) :
    roundTo c f (xor n sub) m e false false = .exact (if sub then invertSign f b else b) := by
  rw [roundTo_norm h hb]
  cases n <;> cases sub <;> rfl

theorem divByZero_eq (f : FpFmt) (n : Bool) : divByZero f n = divisionByZero f n := by
  rw [divByZero, fpInf_eq]; rfl

theorem zero_normal (ha : IsZero f a) (hb : IsNormal f b) :
    (fpAdd c f false w a b = .exact b ∧ fpAdd c f true w a b = .exact (invertSign f b) ∧
      ∀ sub, fpAdd c f sub w b a = .exact b) ∧
    (fpMul c f w a b = .exact (zeroPattern f (xor (signOf f a) (signOf f b))) ∧
      fpMul c f w b a = .exact (zeroPattern f (xor (signOf f a) (signOf f b)))) ∧
    fpDiv c f w a b = .exact (zeroPattern f (xor (signOf f a) (signOf f b))) ∧
    fpDiv c f w b a = divisionByZero f (xor (signOf f a) (signOf f b)) := by
  have hxa := operand_zero (c := c) ha
  obtain ⟨hlt, n, m, e, hb⟩ := hb
  have hxb := operand_of_classify (c := c) hb
  obtain rfl : n = signOf f b := by rw [← classify_neg, hb]; rfl
  have hround := roundTo_operand (c := c) hlt hb
  have hadd (sub) : fpAdd c f sub w a b = .exact (if sub then invertSign f b else b) := by
    simp [fpAdd, hxa, hxb, hround]
  have hadd' (sub) : fpAdd c f sub w b a = .exact b := by
    have h := hround false
    rw [Bool.xor_false] at h
    simp [fpAdd, hxa, hxb, h]
  exact ⟨⟨hadd false, hadd true, hadd'⟩, by simp [fpMul, hxa, hxb, FpClass.neg, Bool.xor_comm],
    by simp [fpDiv, hxa, hxb, FpClass.neg], by simp [fpDiv, hxa, hxb, FpClass.neg, Bool.xor_comm, divByZero_eq]⟩

theorem zero_roots (ha : IsZero f a) : fpSqrt c f w a = .exact (zeroPattern f (signOf f a)) ∧
    fpRecip c f w a = divisionByZero f (signOf f a) ∧ fpRsqrt c f w a = divisionByZero f (signOf f a) := by
  have hxa := operand_zero (c := c) ha
  simp [fpSqrt, fpRecip, fpRsqrt, fpDiv, hxa, operand_fpOne, FpClass.neg, divByZero_eq]

theorem negative_roots (ha : IsNormal f a) (hs : signOf f a = true) :
    fpSqrt c f w a = .invalid (genQnan f) ∧ fpRsqrt c f w a = .invalid (genQnan f) := by
  obtain ⟨m, e, hxa⟩ := operand_norm (c := c) ha
  rw [hs] at hxa
  simp [fpSqrt, fpRsqrt, hxa]

section Denorm

variable (ha : IsDenorm f a) (hfs : c.fs = false)
include ha hfs

theorem denorm_sum (hb : IsZero f b ∨ IsNormal f b ∨ IsDenorm f b) (sub : Bool) :
    fpAdd c f sub w a b = .unimplemented ∧ fpAdd c f sub w b a = .unimplemented := by
  obtain ⟨m, hxa⟩ := operand_denorm ha hfs
  rcases hb with hb | hb | hb
  · simp [fpAdd, hxa, operand_zero hb]
  · obtain ⟨m, e, hxb⟩ := operand_norm (c := c) hb
    simp [fpAdd, hxa, hxb]
  · obtain ⟨m, hxb⟩ := operand_denorm hb hfs
    simp [fpAdd, hxa, hxb]

theorem denorm_product (hb : IsNormal f b ∨ IsDenorm f b) :
    (fpMul c f w a b = .unimplemented ∧ fpMul c f w b a = .unimplemented) ∧ fpDiv c f w a b = .unimplemented ∧
      fpDiv c f w b a = .unimplemented := by
  obtain ⟨m, hxa⟩ := operand_denorm ha hfs
  rcases hb with hb | hb
  · obtain ⟨m, e, hxb⟩ := operand_norm (c := c) hb
    simp [fpMul, fpDiv, hxa, hxb]
  · obtain ⟨m, hxb⟩ := operand_denorm hb hfs
    simp [fpMul, fpDiv, hxa, hxb]

theorem denorm_zero (hb : IsZero f b) :
    (fpMul c f w a b = .exact (zeroPattern f (xor (signOf f a) (signOf f b))) ∧
      fpMul c f w b a = .exact (zeroPattern f (xor (signOf f a) (signOf f b)))) ∧
    fpDiv c f w b a = .exact (zeroPattern f (xor (signOf f a) (signOf f b))) ∧
    fpDiv c f w a b = divisionByZero f (xor (signOf f a) (signOf f b)) := by
  obtain ⟨m, hxa⟩ := operand_denorm ha hfs
  simp [fpMul, fpDiv, hxa, operand_zero hb, FpClass.neg, Bool.xor_comm, divByZero_eq]

theorem denorm_roots : fpSqrt c f w a = .unimplemented ∧ fpRecip c f w a = .unimplemented ∧
    fpRsqrt c f w a = .unimplemented := by
  obtain ⟨m, hxa⟩ := operand_denorm ha hfs
  simp [fpSqrt, fpRecip, fpRsqrt, fpDiv, hxa, operand_fpOne]

end Denorm

end Operands

/-! ## Multiply-adds (rule R710) -/

/-- One of two operands has one property and the other the other. -/
def EitherWay (p q : Dword → Prop) (a b : Dword) : Prop := (p a ∧ q b) ∨ (q a ∧ p b)

section MultiplyAddSpecial

variable {c : Fcr31} {f : FpFmt} (w : Dword) (sub : Bool) {a b : Dword} (d : Dword)

theorem fpMaddCore_snan (h : IsSnan f a ∨ IsSnan f b) : fpMaddCore c f sub w a b d = .invalid (genQnan f) := by
  rw [← isSnan_operand_iff (c := c), ← isSnan_operand_iff (c := c), ← Bool.or_eq_true] at h
  rw [fpMaddCore, if_pos h]

/-- With a quiet NaN in the product the screen over all three operands decides (steps 1 and 2). -/
theorem fpMaddCore_screened (ha : ¬IsSnan f a) (hb : ¬IsSnan f b) (h : IsQnan f a ∨ IsQnan f b) {r : FpResult}
    (hr : screenNan f w [(operand c f a, a), (operand c f b, b), (operand c f d, d)] = some r) :
    fpMaddCore c f sub w a b d = r := by
  rw [← isSnan_operand_iff (c := c)] at ha hb
  rw [← isQnan_operand_iff (c := c), ← isQnan_operand_iff (c := c), ← Bool.or_eq_true] at h
  rw [fpMaddCore, if_neg (by rw [Bool.or_eq_true, not_or]; exact ⟨ha, hb⟩), if_pos h, hr, Option.getD_some]

theorem fpMaddCore_qnan_snan (ha : ¬IsSnan f a) (hb : ¬IsSnan f b) (h : IsQnan f a ∨ IsQnan f b) (hd : IsSnan f d) :
    fpMaddCore c f sub w a b d = .invalid (genQnan f) :=
  fpMaddCore_screened w sub d ha hb h
    (screenNan_snan f w ⟨(operand c f d, d), by simp, isSnan_operand_iff.2 hd⟩)

theorem fpMaddCore_qnan (ha : ¬IsSnan f a) (hb : ¬IsSnan f b) (h : IsQnan f a ∨ IsQnan f b) (hd : ¬IsSnan f d) :
    ∃ q ∈ [a, b, d], IsQnan f q ∧ fpMaddCore c f sub w a b d = .exact q := by
  obtain ⟨q, hq, hnan, hscreen⟩ := screenNan_qnan f w
    (xs := [(operand c f a, a), (operand c f b, b), (operand c f d, d)])
    (by simp [← Bool.not_eq_true, isSnan_operand_iff, ha, hb, hd])
    (h.elim (fun h => ⟨(operand c f a, a), by simp, isQnan_operand_iff.2 h⟩)
      fun h => ⟨(operand c f b, b), by simp, isQnan_operand_iff.2 h⟩)
  have hres := fpMaddCore_screened w sub d ha hb h hscreen
  simp only [List.mem_cons, List.not_mem_nil, or_false] at hq
  rcases hq with rfl | rfl | rfl <;> exact ⟨_, by simp, isQnan_operand_iff.1 hnan, hres⟩

theorem fpMaddCore_inf_zero (h : EitherWay (IsInf f) (IsZero f) a b) :
    fpMaddCore c f sub w a b d = .invalid (genQnan f) := by
  rcases h with ⟨ha, hb⟩ | ⟨ha, hb⟩
  · simp [fpMaddCore, operand_inf ha, operand_zero hb, FpClass.isSnan, FpClass.isQnan]
  · simp [fpMaddCore, operand_zero ha, operand_inf hb, FpClass.isSnan, FpClass.isQnan]

/-- What a nonzero number that is not flushed is read as. -/
theorem operand_nonzero {x : Dword} (h : IsNormal f x ∨ IsDenorm f x ∧ c.fs = false) :
    (∃ m, operand c f x = .denorm (signOf f x) m) ∨ ∃ m e, operand c f x = .norm (signOf f x) m e :=
  h.elim (fun h => .inr (operand_norm h)) fun ⟨h, hfs⟩ => .inl (operand_denorm h hfs)

/-- Step 4: an infinite product. -/
theorem fpMaddCore_infProduct
    (h : EitherWay (IsInf f) (fun x => IsInf f x ∨ IsNormal f x ∨ IsDenorm f x ∧ c.fs = false) a b) :
    fpMaddCore c f sub w a b d = fpMaddCore.infProduct f sub (xor (signOf f a) (signOf f b)) (operand c f d) d := by
  rcases h with ⟨hinf, ho | ho⟩ | ⟨ho | ho, hinf⟩
  case inl.inl | inr.inl => simp [fpMaddCore, operand_inf hinf, operand_inf ho, FpClass.isSnan, FpClass.isQnan, FpClass.neg]
  all_goals rcases operand_nonzero ho with ⟨m, hx⟩ | ⟨m, e, hx⟩ <;>
    simp [fpMaddCore, operand_inf hinf, hx, FpClass.isSnan, FpClass.isQnan, FpClass.neg]

/-- Step 5: a zero product. -/
theorem fpMaddCore_zeroProduct
    (h : EitherWay (IsZero f) (fun x => IsZero f x ∨ IsNormal f x ∨ IsDenorm f x ∧ c.fs = false) a b) :
    fpMaddCore c f sub w a b d = fpMaddCore.zeroProduct c f sub (xor (signOf f a) (signOf f b)) (operand c f d) d := by
  rcases h with ⟨hzero, ho | ho⟩ | ⟨ho | ho, hzero⟩
  case inl.inl | inr.inl => simp [fpMaddCore, operand_zero hzero, operand_zero ho, FpClass.isSnan, FpClass.isQnan, FpClass.neg]
  all_goals rcases operand_nonzero ho with ⟨m, hx⟩ | ⟨m, e, hx⟩ <;>
    simp [fpMaddCore, operand_zero hzero, hx, FpClass.isSnan, FpClass.isQnan, FpClass.neg]

theorem fpMaddCore_denorm
    (h : EitherWay (fun x => IsDenorm f x ∧ c.fs = false) (fun x => IsNormal f x ∨ IsDenorm f x ∧ c.fs = false) a b) :
    fpMaddCore c f sub w a b d = .unimplemented := by
  rcases h with ⟨⟨hden, hfs⟩, ho⟩ | ⟨ho, hden, hfs⟩
  all_goals
    obtain ⟨k, hk⟩ := operand_denorm hden hfs
    rcases operand_nonzero ho with ⟨m, hx⟩ | ⟨m, e, hx⟩ <;> simp [fpMaddCore, hk, hx, FpClass.isSnan, FpClass.isQnan]

/-- An infinite product and the addend. -/
theorem infProduct_addend (product : Bool) :
    let r := fpMaddCore.infProduct f sub product (operand c f d) d
    (IsSnan f d → r = .invalid (genQnan f)) ∧ (IsQnan f d → r = .exact d) ∧
    (IsInf f d → r = if xor (signOf f d) sub = product then .exact (infinityPattern f product) else .invalid (genQnan f)) ∧
    (¬IsNan f d → ¬IsInf f d → r = .exact (infinityPattern f product)) := by
  intro r
  refine ⟨fun h => ?_, fun h => ?_, fun h => ?_, fun hnan hinf => ?_⟩
  · simp [r, operand_snan h, fpMaddCore.infProduct]
  · simp [r, operand_qnan h, fpMaddCore.infProduct]
  · simp [r, operand_inf h, fpMaddCore.infProduct]
  · rcases operand_finite (c := c) hnan hinf with hx | ⟨m, hx⟩ | ⟨m, e, hx⟩ <;> simp [r, hx, fpMaddCore.infProduct]

/-- A zero product and the addend. -/
theorem zeroProduct_addend (product : Bool) :
    let r := fpMaddCore.zeroProduct c f sub product (operand c f d) d
    let addend := xor (signOf f d) sub
    (IsSnan f d → r = .invalid (genQnan f)) ∧ (IsQnan f d → r = .exact d) ∧
    (IsDenorm f d ∧ c.fs = false → r = .unimplemented) ∧ (IsInf f d → r = .exact (infinityPattern f addend)) ∧
    (IsZero f d → r = .exact (zeroPattern f (if product = addend then product else c.rm == 3))) ∧
    (IsNormal f d → r = .exact (if sub then invertSign f d else d)) := by
  intro r addend
  refine ⟨fun h => ?_, fun h => ?_, fun ⟨h, hfs⟩ => ?_, fun h => ?_, fun h => ?_, fun ⟨hlt, n, m, e, h⟩ => ?_⟩
  · simp [r, operand_snan h, fpMaddCore.zeroProduct]
  · simp [r, operand_qnan h, fpMaddCore.zeroProduct]
  · obtain ⟨m, hx⟩ := operand_denorm h hfs
    simp [r, hx, fpMaddCore.zeroProduct]
  · simp [r, addend, operand_inf h, fpMaddCore.zeroProduct]
  · simp [r, addend, operand_zero h, fpMaddCore.zeroProduct, zeroSum]
  · simp only [r, operand_of_classify h, fpMaddCore.zeroProduct]
    exact roundTo_operand hlt h sub

/-- A normal product and a NaN or a denormalized addend (step 6). -/
theorem addProduct_unimplemented (neg : Bool) (p : Rounded) (hd : IsNan f d ∨ IsDenorm f d ∧ c.fs = false) :
    addProduct c f sub neg p (operand c f d) = .unimplemented := by
  rcases hd with (h | h) | ⟨h, hfs⟩
  · rw [operand_qnan h]; rfl
  · rw [operand_snan h]; rfl
  · obtain ⟨m, hx⟩ := operand_denorm h hfs
    rw [hx]; rfl

/-- In range, what was inexact before is the flag of a result that is exact now. -/
theorem deliver_also {neg : Bool} {p : Rounded} (ho : p.overflows f = false) (ht : p.tiny f = false) :
    deliver c f neg { p with inexact := false } p.inexact =
      { unimpl := false, flags := inexactFlags p.inexact, value := packNormal f neg p } :=
  deliver_normal (r := { p with inexact := false }) ho ht

/-- A normal product and an addend that is infinite or zero. -/
theorem fpMaddCore_normal (hA : IsNormal f a) (hB : IsNormal f b) :
    let r := fpMaddCore c f sub w a b d
    let v := realValue f a * realValue f b
    (IsNan f d ∨ IsDenorm f d ∧ c.fs = false → r = .unimplemented) ∧
    (IsInf f d ∨ IsZero f d → ∃ p, IsRounded f c.rm v p ∧
      (maxFinite f < |p| ∨ |p| < (2 : ℝ) ^ f.emin → r = .unimplemented) ∧
      ((2 : ℝ) ^ f.emin ≤ |p| → |p| ≤ maxFinite f →
        r.unimpl = false ∧ r.flags = { FpFlags.none with i := r.flags.i } ∧ (r.flags.i = true ↔ p ≠ v) ∧
        (IsInf f d → r.value = infinityPattern f (xor (signOf f d) sub)) ∧
        (IsZero f d → IsFinite f r.value ∧ realValue f r.value = p))) := by
  obtain ⟨-, n₁, m₁, e₁, ha⟩ := hA
  obtain ⟨-, n₂, m₂, e₂, hb⟩ := hB
  intro r v
  obtain ⟨p, hp, hout, hin⟩ := fpMaddCore_product (c := c) w d ha hb sub
  have habs := abs_withSignOf (xor n₁ n₂) (y := (p.m : ℝ) * (2 : ℝ) ^ p.e) (by positivity)
  refine ⟨fun hd => ?_, fun hd => ⟨_, hp.rounded, ?_, ?_⟩⟩
  · by_cases hrange : maxFinite f < (p.m : ℝ) * (2 : ℝ) ^ p.e ∨ (p.m : ℝ) * (2 : ℝ) ^ p.e < (2 : ℝ) ^ f.emin
    · exact hout hrange
    · rw [not_or, not_lt, not_lt] at hrange
      exact (hin hrange.2 hrange.1).2.2.trans (addProduct_unimplemented sub d _ p hd)
  · rw [habs]; exact hout
  · rw [habs]
    intro hlo hhi
    obtain ⟨ho, ht, hsum⟩ := hin hlo hhi
    have hr : r = addProduct c f sub (xor n₁ n₂) p (operand c f d) := hsum
    rcases hd with hd | hd
    · have hnot : ¬IsZero f d := fun hz => by
        have h := (operand_inf (c := c) hd).symm.trans (operand_zero hz)
        cases h
      rw [operand_inf hd] at hr
      rw [hr]
      refine ⟨rfl, rfl, hp.inexact_iff, fun _ => ?_, fun hz => absurd hz hnot⟩
      simp only [addProduct, fpInf_eq]
    · have hnot : ¬IsInf f d := fun hi => by
        have h := (operand_inf (c := c) hi).symm.trans (operand_zero hd)
        cases h
      rw [operand_zero hd] at hr
      rw [hr.trans (deliver_also ho ht)]
      exact ⟨rfl, rfl, hp.inexact_iff, fun hi => absurd hi hnot, fun _ => packNormal_value hp.pos hp.fits _ ho ht⟩

/-- The negated forms: the sign of a number is inverted, that of a NaN may be (step 8). -/
theorem fpMadd_negated_cases :
    let r := fpMadd c f sub false w a b d
    let n := fpMadd c f sub true w a b d
    let inverted := { r with value := invertSign f r.value }
    (n = r ∨ n = inverted) ∧ (¬IsNan f r.value → n = inverted) := by
  intro r n inverted
  have hn : n = if !isNan f r.value || w.getLsbD 63 then inverted else r := rfl
  refine ⟨?_, fun hnan => ?_⟩
  · rw [hn]
    split
    · exact .inr rfl
    · exact .inl rfl
  · have hnot : isNan f r.value = false := by
      rw [Bool.eq_false_iff]
      intro h
      refine hnan ?_
      rw [isNan, Bool.or_eq_true] at h
      rcases h with h | h
      · exact .inr (isSnan_operand_iff.1 ((flushOperand_isSnan c.fs _).trans h))
      · exact .inl (isQnan_operand_iff.1 ((flushOperand_isQnan c.fs _).trans h))
    rw [hn, hnot]
    rfl

/-- The clauses of rule R710 for the special operands of a multiply-add. -/
theorem maddSpecial : MaddSpecial c f sub w a b d := by
  refine ⟨fpMaddCore_snan w sub d, fun ha hb h => ⟨fpMaddCore_qnan_snan w sub d ha hb h, fpMaddCore_qnan w sub d ha hb h⟩,
    fpMaddCore_inf_zero w sub d, fun h => ?inf, fun h => ?zero, fpMaddCore_denorm w sub d,
    fun hA hB => fpMaddCore_normal w sub d hA hB, fpMadd_negated_cases w sub d⟩
  case inf =>
    have haddend := infProduct_addend (c := c) (f := f) sub d (xor (signOf f a) (signOf f b))
    rw [← fpMaddCore_infProduct w sub d h] at haddend
    exact haddend
  case zero =>
    have haddend := zeroProduct_addend (c := c) (f := f) sub d (xor (signOf f a) (signOf f b))
    rw [← fpMaddCore_zeroProduct w sub d h] at haddend
    exact haddend

end MultiplyAddSpecial

/-! ## The statement -/

/-- Settles O57: the screen answers for the NaNs; every other clause is the line of its operation for the classes it
names. -/
theorem fpSpecialOperands : Obligations.FpSpecialOperands := by
  intro c f w a b d invalid product infinity zero roots products all
  have screened {r : FpResult} {P : FpResult → Prop}
      (h : screenNan f w [(operand c f a, a), (operand c f b, b)] = some r) (hr : P r) : all P := by
    obtain ⟨hadd, hmul, hdiv⟩ := binary_screened h
    simp only [all, hadd, hmul, hdiv, hr, and_self]
  refine ⟨fun h => screened (P := (· = invalid)) (screenNan_pair_snan c f w h) rfl,
    fun ha hb => screened (P := (· = .exact a)) (screenNan_first c f w ha hb) rfl,
    fun ha hb => screened (P := (· = .exact b)) (screenNan_second c f w ha hb) rfl,
    fun ha hb => ?qnans, fun h => ⟨unary_screened (screenNan_single_snan c f w h), fun n => ?snanSign⟩,
    fun h => ⟨unary_screened (screenNan_single c f w h), fun n => ?qnanSign⟩,
    fun ha hb => inf_inf w ha hb, fun ha hinf hnan => inf_finite w ha hinf hnan, fun ha hb => inf_nonzero w ha hb,
    fun ha hb => inf_zero w ha hb, fun ha => inf_roots w ha, fun ha hb => zero_zero w ha hb,
    fun ha hb => zero_normal w ha hb, fun ha => zero_roots w ha, fun ha hs => negative_roots w ha hs,
    fun ha hfs => ⟨denorm_sum w ha hfs, denorm_product w ha hfs, denorm_zero w ha hfs, denorm_roots w ha hfs⟩,
    fun hnan hfs n => fpSignOp_number hnan hfs n, flushesOperands c f w a b d, fun sub => maddSpecial w sub d⟩
  case qnans =>
    obtain ⟨q, hq, -, hscreen⟩ :=
      screenNan_pair_qnan c f w (not_isSnan_of_isQnan ha) (not_isSnan_of_isQnan hb) (.inl ha)
    refine screened (P := fun r => r = .exact a ∨ r = .exact b) hscreen ?_
    simp only [List.mem_cons, List.not_mem_nil, or_false] at hq
    exact hq.imp (congrArg FpResult.exact) (congrArg FpResult.exact)
  case snanSign => rw [fpSignOp, operand_snan h]
  case qnanSign => rw [fpSignOp, operand_qnan h]

end Sys2Proof.Proofs

/-! # The registers of the floating-point unit, and the end of an operation

A result reaches the unit through `writeFpr`, whose two widths and two register models (`FR` = 0 and 1) are told apart once,
in `fprHolds_writeFpr` and `keepsFgrBut_writeFpr`. Everything else an instruction of the unit does to the state is in
`FpuSide`: the unit itself, and the count of free values. -/

namespace Sys2Proof.Proofs

open Sys2Proof.Machine Sys2Proof.Safety Sys2Proof.Laws

/-! ### The registers (48_fpu.md rule R662) -/

theorem readFgr_congr {s t : State} (h : t.fpu.fgr = s.fpu.fgr) (q : RegNum) : readFgr t q = readFgr s q := by
  simp only [readFgr, h]

theorem readFgr_writeFgr_same (s : State) (f : RegNum) (v : Dword) : readFgr (writeFgr f v s) f = v :=
  Vector.getElem_set_self f.isLt

theorem readFgr_writeFgr_other (s : State) {f q : RegNum} (v : Dword) (h : q ≠ f) :
    readFgr (writeFgr f v s) q = readFgr s q :=
  Vector.getElem_set_ne f.isLt q.isLt fun hq => h (BitVec.eq_of_toNat_eq hq.symm)

theorem readFgr_drew (s : State) (n : Nat) (q : RegNum) : readFgr (s.drew n) q = readFgr s q := rfl

theorem low32_append (a b : Word) : low32 (a ++ b) = b := by
  rw [low32, BitVec.truncate_eq_setWidth, BitVec.setWidth_append_eq_right]

theorem high32_append (a b : Word) : high32 (a ++ b) = a := BitVec.extractLsb'_append_eq_left

theorem high32_append_low32 (v : Dword) : high32 v ++ low32 v = v := by
  rw [high32, low32, BitVec.truncate_eq_setWidth, BitVec.setWidth_eq_extractLsb' (by decide),
    BitVec.extractLsb'_append_extractLsb'_eq_extractLsb' (by decide), BitVec.extractLsb'_eq_self]

theorem succ_ne_self (f : RegNum) : f + 1 ≠ f := by bv_omega

section Views

variable {s : State} (fd : RegNum)

theorem writeFpr_word_fr (h : s.status.fr = true) (v : Dword) :
    writeFpr false fd v s = writeFgr fd (high32 (s.free 0) ++ low32 v) (s.drew 1) := if_pos h

theorem writeFpr_word (h : s.status.fr = false) (v : Dword) :
    writeFpr false fd v s = writeFgr fd (high32 (readFgr s fd) ++ low32 v) s :=
  if_neg (ne_true_of_eq_false h)

theorem writeFpr_wide_fr (h : s.status.fr = true) (v : Dword) : writeFpr true fd v s = writeFgr fd v s := if_pos h

/-- With `FR` = 0 the two halves of a wide result go to two registers. -/
theorem writeFpr_wide (h : s.status.fr = false) (v : Dword) :
    writeFpr true fd v s = writeFgr fd (high32 (readFgr s fd) ++ low32 v)
      (writeFgr (fd + 1) (high32 (readFgr s (fd + 1)) ++ high32 v) s) :=
  if_neg (ne_true_of_eq_false h)

theorem readFprDword_fr (h : s.status.fr = true) : readFprDword s fd = readFgr s fd := if_pos h

theorem readFprDword_pair (h : s.status.fr = false) :
    readFprDword s fd = low32 (readFgr s (fd + 1)) ++ low32 (readFgr s fd) :=
  if_neg (ne_true_of_eq_false h)

end Views

/-- Registers outside the one or two that a result covers are not written. -/
theorem keepsFgrBut_writeFpr (isWide : Bool) (fd : RegNum) (v : Dword) (s : State) :
    KeepsFgrBut isWide fd s (writeFpr isWide fd v s) := by
  intro q hq hpair
  cases hfr : s.status.fr <;> cases isWide
  · rw [writeFpr_word fd hfr, readFgr_writeFgr_other _ _ hq]
  · have hq' : q ≠ fd + 1 := by simpa [hfr] using hpair
    rw [writeFpr_wide fd hfr, readFgr_writeFgr_other _ _ hq, readFgr_writeFgr_other _ _ hq']
  · rw [writeFpr_word_fr fd hfr, readFgr_writeFgr_other _ _ hq, readFgr_drew]
  · rw [writeFpr_wide_fr fd hfr, readFgr_writeFgr_other _ _ hq]

/-- A register written with the upper half it had keeps every upper half. -/
theorem high32_readFgr_writeFgr (s : State) (f q : RegNum) (w : Word) :
    high32 (readFgr (writeFgr f (high32 (readFgr s f) ++ w) s) q) = high32 (readFgr s q) := by
  by_cases h : q = f
  · rw [h, readFgr_writeFgr_same, high32_append]
  · rw [readFgr_writeFgr_other _ _ h]

theorem fprHolds_writeFpr (isWide : Bool) (fd : RegNum) (v : Dword) (s : State) :
    FprHolds isWide fd v s (writeFpr isWide fd v s) := by
  have hcp0 : (writeFpr isWide fd v s).status = s.status := congrArg Cp0.status (writeFpr_cp0 s isWide fd v)
  cases hfr : s.status.fr <;> cases isWide
  · rw [writeFpr_word fd hfr]
    refine ⟨?_, fun _ q => high32_readFgr_writeFgr s fd q _⟩
    show low32 (readFgr _ fd) = low32 v
    rw [readFgr_writeFgr_same, low32_append]
  · have hkept : readFgr (writeFgr (fd + 1) (high32 (readFgr s (fd + 1)) ++ high32 v) s) fd = readFgr s fd :=
      readFgr_writeFgr_other _ _ (succ_ne_self fd).symm
    rw [FprHolds, if_pos rfl, readFprDword_pair fd (hcp0 ▸ hfr), writeFpr_wide fd hfr]
    refine ⟨?_, fun _ q => ?_⟩
    · rw [readFgr_writeFgr_other _ _ (succ_ne_self fd), readFgr_writeFgr_same, readFgr_writeFgr_same, low32_append,
        low32_append, high32_append_low32]
    · rw [← hkept, high32_readFgr_writeFgr, high32_readFgr_writeFgr]
  · rw [writeFpr_word_fr fd hfr]
    refine ⟨?_, fun h => absurd (hfr.symm.trans h) Bool.noConfusion⟩
    show low32 (readFgr _ fd) = low32 v
    rw [readFgr_writeFgr_same, low32_append]
  · rw [FprHolds, if_pos rfl, readFprDword_fr fd (hcp0 ▸ hfr), writeFpr_wide_fr fd hfr]
    exact ⟨readFgr_writeFgr_same s fd v, fun h => absurd (hfr.symm.trans h) Bool.noConfusion⟩

/-- What a state shows through the register views depends on the registers and `FR` alone. -/
theorem readFprDword_congr {s t : State} (h : t.fpu.fgr = s.fpu.fgr) (hc : t.cp0 = s.cp0) (q : RegNum) :
    readFprDword t q = readFprDword s q := by
  have hst : t.status = s.status := congrArg Cp0.status hc
  rw [readFprDword, hst, readFgr_congr h, readFgr_congr h]
  rfl

theorem fprHolds_congr {isWide : Bool} {fd : RegNum} {v : Dword} {s s' t t' : State} (h : FprHolds isWide fd v s t)
    (hs : s.fpu.fgr = s'.fpu.fgr) (hsc : s.cp0 = s'.cp0) (ht : t'.fpu.fgr = t.fpu.fgr) (htc : t'.cp0 = t.cp0) :
    FprHolds isWide fd v s' t' := by
  simp only [FprHolds, readFprDword_congr ht htc, readFprWord, readFgr_congr ht, ← readFgr_congr hs, State.status,
    ← hsc] at h ⊢
  exact h

theorem keepsFgrBut_congr {isWide : Bool} {fd : RegNum} {s s' t t' : State} (h : KeepsFgrBut isWide fd s t)
    (hs : s.fpu.fgr = s'.fpu.fgr) (hsc : s.cp0 = s'.cp0) (ht : t'.fpu.fgr = t.fpu.fgr) :
    KeepsFgrBut isWide fd s' t' := by
  intro q hq hpair
  rw [readFgr_congr ht, ← readFgr_congr hs]
  refine h q hq ?_
  rw [State.status, hsc]
  exact hpair

theorem writeFpr_fcr31 (isWide : Bool) (fd : RegNum) (v : Dword) (s : State) :
    (writeFpr isWide fd v s).fpu.fcr31 = s.fpu.fcr31 := by
  cases hfr : s.status.fr <;> cases isWide
  · rw [writeFpr_word fd hfr]; rfl
  · rw [writeFpr_wide fd hfr]; rfl
  · rw [writeFpr_word_fr fd hfr]; rfl
  · rw [writeFpr_wide_fr fd hfr]; rfl

/-! ### What an instruction of the unit may change -/

/-- Only the floating-point unit and the count of free values differ. -/
def FpuSide (s t : State) : Prop := ∃ fpu n, t = { s with fpu := fpu, freeCount := n }

theorem FpuSide.trans {s t u : State} : FpuSide s t → FpuSide t u → FpuSide s u := by
  rintro ⟨_, _, rfl⟩ ⟨fpu, n, rfl⟩
  exact ⟨fpu, n, rfl⟩

theorem fpuSide_writeFpr (isWide : Bool) (fd : RegNum) (v : Dword) (s : State) : FpuSide s (writeFpr isWide fd v s) := by
  cases hfr : s.status.fr <;> cases isWide
  · rw [writeFpr_word fd hfr]; exact ⟨_, _, rfl⟩
  · rw [writeFpr_wide fd hfr]; exact ⟨_, _, rfl⟩
  · rw [writeFpr_word_fr fd hfr]; exact ⟨_, _, rfl⟩
  · rw [writeFpr_wide_fr fd hfr]; exact ⟨_, _, rfl⟩

theorem onlyFpu_advance {s t : State} (h : FpuSide s t) : OnlyFpu s (advance t) := by
  obtain ⟨fpu, n, rfl⟩ := h
  exact ⟨fun q => readGpr_congr (by simp) q, by simp [KeepsHiLo], by simp [KeepsControl], by simp, by simp [KeepsRest],
    fun a => by simp, continues_advance s _ rfl rfl rfl⟩

/-- A result written, after free values were drawn and `FCR31` was written, and the instruction completes. -/
theorem writeFpr_advance {isWide : Bool} {fd : RegNum} {v : Dword} {s u : State} (hu : FpuSide s u)
    (hfgr : u.fpu.fgr = s.fpu.fgr) :
    let t := advance (writeFpr isWide fd v u)
    OnlyFpu s t ∧ FprHolds isWide fd v s t ∧ KeepsFgrBut isWide fd s t ∧ t.fpu.fcr31 = u.fpu.fcr31 := by
  have hcp0 : u.cp0 = s.cp0 := by
    obtain ⟨fpu, n, rfl⟩ := hu
    rfl
  have ht : (advance (writeFpr isWide fd v u)).fpu.fgr = (writeFpr isWide fd v u).fpu.fgr :=
    congrArg Fpu.fgr (advance_fpu _)
  exact ⟨onlyFpu_advance (hu.trans (fpuSide_writeFpr isWide fd v u)),
    fprHolds_congr (fprHolds_writeFpr isWide fd v u) hfgr hcp0 ht (advance_cp0 _),
    keepsFgrBut_congr (keepsFgrBut_writeFpr isWide fd v u) hfgr hcp0 ht,
    (congrArg Fpu.fcr31 (advance_fpu _)).trans (writeFpr_fcr31 isWide fd v u)⟩

/-! ### The enabling tests (rules R661, R676) -/

section Tests

variable {s : State} {regs : List RegNum} {k : Out}

/-- The exception of an operation the unit does not implement. -/
def takesUnimplemented (s : State) : Out := .next (takeException .fpe (withFpCause true .none s))

theorem oddForbidden_of_not_even (h : ¬EvenRegs s regs) : oddForbidden s regs = true := by
  obtain ⟨hfr, hodd⟩ := not_or.1 h
  obtain ⟨r, hr, hr'⟩ := not_forall₂.1 hodd
  rw [oddForbidden, Bool.and_eq_true, List.any_eq_true]
  refine ⟨by simpa using hfr, r, hr, ?_⟩
  rw [BitVec.getLsbD, Nat.testBit_zero, decide_eq_true_eq]
  omega

theorem requireEven_odd (h : ¬EvenRegs s regs) : requireEven regs s k = .fault .oddFpr :=
  if_pos (oddForbidden_of_not_even h)

theorem requireFpMips4_missing (h : isMips4 s = false) : requireFpMips4 true s k = takesUnimplemented s := by
  rw [requireFpMips4, h]
  rfl

theorem fpGuard_ready {mips4 : Bool} (hcu1 : s.status.cu1 = true) (hm : mips4 = false ∨ isMips4 s = true)
    (h : EvenRegs s regs) : fpGuard mips4 regs s k = k := by
  rw [fpGuard, requireCu1_usable hcu1, requireEven_even h]
  rcases hm with rfl | hm
  · rfl
  · exact requireFpMips4_enabled hm _ _

theorem fpGuard_odd {mips4 : Bool} (hcu1 : s.status.cu1 = true) (hm : mips4 = false ∨ isMips4 s = true)
    (h : ¬EvenRegs s regs) : fpGuard mips4 regs s k = .fault .oddFpr := by
  rw [fpGuard, requireCu1_usable hcu1, requireEven_odd h]
  rcases hm with rfl | hm
  · rfl
  · exact requireFpMips4_enabled hm _ _

theorem fpGuard_missing (hcu1 : s.status.cu1 = true) (h : isMips4 s = false) :
    fpGuard true regs s k = takesUnimplemented s := by
  rw [fpGuard, requireCu1_usable hcu1, requireFpMips4_missing h]

end Tests

/-! ### The end of an operation (rule R670) -/

theorem fpTraps_iff (r : FpResult) (e : FpFlags) : fpTraps r.unimpl r.flags e = true ↔ TrapsOn r e := by
  simp only [fpTraps, FpFlags.meets, TrapsOn, Bool.or_eq_true, Bool.and_eq_true, or_assoc]

section Finish

variable {s : State} {unimpl : Bool} {flags : FpFlags} {store : State → State}

theorem fpFinish_traps (h : fpTraps unimpl flags s.fpu.fcr31.enables = true) :
    fpFinish unimpl flags store s = .next (takeException .fpe (withFpCause unimpl flags s)) :=
  congrArg Host.Outcome.next (if_pos h)

theorem fpFinish_completes (h : ¬fpTraps unimpl flags s.fpu.fcr31.enables = true) :
    fpFinish unimpl flags store s = complete (store (addFpFlags flags (setFpCause unimpl flags s))) :=
  congrArg Host.Outcome.next (if_neg h)

end Finish

theorem fpDelivers_of_exec {i : Instr} {s : State} {c : FpCase} (h : exec i s = fpResult c.isWide c.fd c.result s) :
    FpDelivers i s c := by
  by_cases ht : TrapsOn c.result s.fpu.fcr31.enables
  · exact ⟨_, h.trans (fpFinish_traps ((fpTraps_iff _ _).2 ht)), fun _ => rfl, fun hn => absurd ht hn⟩
  · refine ⟨_, h.trans (fpFinish_completes (mt (fpTraps_iff _ _).1 ht)), fun hp => absurd hp ht, fun _ => ?_⟩
    obtain ⟨honly, hholds, hkeeps, hfcr⟩ := writeFpr_advance (isWide := c.isWide) (fd := c.fd) (v := c.result.value)
      (s := s) (u := addFpFlags c.result.flags (setFpCause c.result.unimpl c.result.flags (s.drew 1))) ⟨_, _, rfl⟩ rfl
    refine ⟨honly, hholds, hkeeps, ?_⟩
    rw [KeepsFcr31Modes, hfcr]
    exact ⟨⟨rfl, rfl, rfl⟩, rfl, rfl, rfl, rfl⟩

/-- How an operation ends: by rule R670, or with the stop of an odd register. -/
def EndsAs (i : Instr) (s : State) (c : FpCase) : Prop :=
  (EvenRegs s c.regs → FpDelivers i s c) ∧ (¬EvenRegs s c.regs → exec i s = .fault .oddFpr)

section Ends

variable {i : Instr} {s : State} {c : FpCase} (hcu1 : s.status.cu1 = true)
include hcu1

theorem endsAs_of_fpGuard {mips4 : Bool}
    (h : exec i s = fpGuard mips4 c.regs s (fpResult c.isWide c.fd c.result s))
    (hm : mips4 = false ∨ isMips4 s = true) : EndsAs i s c :=
  ⟨fun he => fpDelivers_of_exec (h.trans (fpGuard_ready hcu1 hm he)), fun he => h.trans (fpGuard_odd hcu1 hm he)⟩

theorem endsAs_of_fpGuardLong (h : exec i s = fpGuardLong c.regs s (fpResult c.isWide c.fd c.result s))
    (h64 : is64 s = true) : EndsAs i s c :=
  endsAs_of_fpGuard hcu1 (h.trans (requireIs64_enabled h64 _)) (.inl rfl)

theorem endsAs_of_fpGuardCop1x (h : exec i s = fpGuardCop1x c.regs s (fpResult c.isWide c.fd c.result s))
    (hm : isMips4 s = true) : EndsAs i s c :=
  endsAs_of_fpGuard hcu1 (mips4 := false) (h.trans (requireMips4_enabled hm _)) (.inl rfl)

end Ends

/-! ### The tables of operations -/

section Tables

variable {i : Instr} {s : State} {c : FpCase}

theorem exec_fpArithCase (h : fpArithCase i s = some c) :
    exec i s = fpGuard false c.regs s (fpResult c.isWide c.fd c.result s) := by
  unfold fpArithCase at h
  split at h <;> cases h <;> rfl

theorem exec_fpConvertCase (h : fpConvertCase i s = some c) :
    exec i s = fpGuard false c.regs s (fpResult c.isWide c.fd c.result s) := by
  unfold fpConvertCase at h
  split at h <;> cases h <;> rfl

theorem exec_fpLongCase (h : fpLongCase i s = some c) :
    exec i s = fpGuardLong c.regs s (fpResult c.isWide c.fd c.result s) := by
  unfold fpLongCase at h
  split at h <;> cases h <;> rfl

/-- The reciprocals are encodings of opcode 17, the multiply-adds of opcode 19: only the first are tested for MIPS IV
after the unit's usability. -/
theorem exec_fpMips4Case (h : fpMips4Case i s = some c) :
    exec i s = fpGuard true c.regs s (fpResult c.isWide c.fd c.result s) ∨
      (opF (encode i) = 19 ∧ exec i s = fpGuardCop1x c.regs s (fpResult c.isWide c.fd c.result s)) := by
  unfold fpMips4Case at h
  split at h <;> cases h
  case h_1 | h_2 | h_3 | h_4 => exact .inl rfl
  all_goals exact .inr ⟨opF_rType _ _ _ _ _ _, rfl⟩

end Tables

/-- Settles O54: each table's operations end through `fpResult` behind their tests. -/
theorem fpOperationsDeliver : Obligations.FpOperationsDeliver := by
  intro s i c hcu1
  constructor
  · rintro (h | h | ⟨h64, h⟩ | ⟨hm, h⟩)
    · exact endsAs_of_fpGuard hcu1 (exec_fpArithCase h) (.inl rfl)
    · exact endsAs_of_fpGuard hcu1 (exec_fpConvertCase h) (.inl rfl)
    · exact endsAs_of_fpGuardLong hcu1 (exec_fpLongCase h) h64
    · rcases exec_fpMips4Case h with h | ⟨-, h⟩
      · exact endsAs_of_fpGuard hcu1 h (.inr hm)
      · exact endsAs_of_fpGuardCop1x hcu1 h hm
  · intro hm h hop
    rcases exec_fpMips4Case h with h | ⟨hop', -⟩
    · exact h.trans (fpGuard_missing hcu1 hm)
    · exact absurd (hop.symm.trans hop') (by decide)

end Sys2Proof.Proofs

/-! # Compares, and the branches, copies and moves of the unit

The order of the values of two patterns is that of their signed magnitudes (`fpValue_eq_signedMagnitude`): the value of the
magnitude `n` grows with `n`, across the border of two exponents too, which `magnitude_lt_succ` says. -/

namespace Sys2Proof.Proofs

open Sys2Proof.Machine Sys2Proof.Safety Sys2Proof.Laws

/-! ### The order of the values (rule R730) -/

/-- The value of the pattern with sign 0 whose number is `n`. -/
def magnitude (f : FpFmt) (n : Nat) : Rat :=
  ((if n / 2 ^ f.fracBits = 0 then n % 2 ^ f.fracBits else 2 ^ f.fracBits + n % 2 ^ f.fracBits : Nat) : Rat) *
    (2 : Rat) ^ (((max (n / 2 ^ f.fracBits) 1 : Nat) : Int) - f.bias - f.fracBits)

theorem magnitude_zero (f : FpFmt) : magnitude f 0 = 0 := by
  rw [magnitude, Nat.zero_div, if_pos rfl, Nat.zero_mod, Nat.cast_zero, zero_mul]

theorem magnitude_fields (f : FpFmt) (q : Nat) {r : Nat} (hr : r < 2 ^ f.fracBits) :
    magnitude f (2 ^ f.fracBits * q + r) =
      ((if q = 0 then r else 2 ^ f.fracBits + r : Nat) : Rat) * (2 : Rat) ^ (((max q 1 : Nat) : Int) - f.bias - f.fracBits) := by
  rw [magnitude, Nat.mul_add_div (Nat.two_pow_pos _), Nat.div_eq_of_lt hr, add_zero, Nat.mul_add_mod, Nat.mod_eq_of_lt hr]

/-- Within an exponent the fraction grows; after the last fraction comes the next exponent, whose least significand is as
large as the next one would be, in half as many units. -/
theorem magnitude_lt_succ (f : FpFmt) (n : Nat) : magnitude f n < magnitude f (n + 1) := by
  have hunit (k : Int) : (0 : Rat) < (2 : Rat) ^ k := zpow_pos two_pos k
  have hpos : 0 < 2 ^ f.fracBits := Nat.two_pow_pos _
  have hr : n % 2 ^ f.fracBits < 2 ^ f.fracBits := Nat.mod_lt _ hpos
  rw [← Nat.div_add_mod n (2 ^ f.fracBits)]
  generalize n / 2 ^ f.fracBits = q at hr ⊢
  generalize n % 2 ^ f.fracBits = r at hr ⊢
  by_cases hnext : r + 1 < 2 ^ f.fracBits
  · rw [add_assoc, magnitude_fields f q hr, magnitude_fields f q hnext]
    refine mul_lt_mul_of_pos_right (Nat.cast_lt.2 ?_) (hunit _)
    split <;> omega
  · have hcarry : 2 ^ f.fracBits * q + r + 1 = 2 ^ f.fracBits * (q + 1) + 0 := by
      rw [mul_add, mul_one]
      omega
    rw [hcarry, magnitude_fields f q hr, magnitude_fields f (q + 1) hpos, if_neg (Nat.succ_ne_zero q), add_zero]
    rcases Nat.eq_zero_or_pos q with rfl | hq
    · exact mul_lt_mul_of_pos_right (Nat.cast_lt.2 hr) (hunit _)
    · rw [if_neg hq.ne', max_eq_left hq, max_eq_left (Nat.le_add_left 1 q)]
      have htwice : ((q + 1 : Nat) : Int) - f.bias - f.fracBits = ((q : Int) - f.bias - f.fracBits) + 1 := by
        push_cast
        ring
      rw [htwice, zpow_add_one₀ two_ne_zero, ← mul_assoc, mul_right_comm]
      refine mul_lt_mul_of_pos_right ?_ (hunit _)
      exact_mod_cast (by omega : 2 ^ f.fracBits + r < 2 ^ f.fracBits * 2)

/-- The value of the pattern whose signed magnitude is `z`. -/
def signedMagnitude (f : FpFmt) : Int → Rat
  | .ofNat n => magnitude f n
  | .negSucc n => -magnitude f (n + 1)

theorem signedMagnitude_strictMono (f : FpFmt) : StrictMono (signedMagnitude f) := by
  refine strictMono_int_of_lt_succ fun z => ?_
  match z with
  | .ofNat n => exact magnitude_lt_succ f n
  | .negSucc 0 =>
    show -magnitude f 1 < magnitude f 0
    have h := magnitude_lt_succ f 0
    rw [magnitude_zero] at h ⊢
    exact neg_lt_zero.2 h
  | .negSucc (n + 1) => exact neg_lt_neg (magnitude_lt_succ f (n + 1))

theorem signedMagnitude_neg (f : FpFmt) (n : Nat) : signedMagnitude f (-(n : Int)) = -magnitude f n := by
  cases n with
  | zero => show magnitude f 0 = -magnitude f 0; rw [magnitude_zero, neg_zero]
  | succ n => rfl

theorem fpValue_eq_signedMagnitude (f : FpFmt) (x : Dword) : fpValue f x = signedMagnitude f (orderKey f x) := by
  have hmag : magnitude f (x.toNat % 2 ^ f.signPos) =
      let e := x.toNat / 2 ^ f.fracBits % 2 ^ f.expBits
      let m := x.toNat % 2 ^ f.fracBits
      if e = 0 then (m : Rat) * (2 : Rat) ^ (f.emin - f.fracBits)
      else ((2 ^ f.fracBits + m : Nat) : Rat) * (2 : Rat) ^ ((e : Int) - f.bias - f.fracBits) := by
    have hexp : x.toNat % 2 ^ f.signPos / 2 ^ f.fracBits = x.toNat / 2 ^ f.fracBits % 2 ^ f.expBits := by
      rw [FpFmt.signPos, pow_add, Nat.mod_mul_right_div_self]
    have hfrac : x.toNat % 2 ^ f.signPos % 2 ^ f.fracBits = x.toNat % 2 ^ f.fracBits :=
      Nat.mod_mod_of_dvd _ (pow_dvd_pow 2 (Nat.le_add_right _ _))
    rw [magnitude, hexp, hfrac]
    dsimp only
    split
    · next h => rw [h]; rfl
    · next h => rw [max_eq_left (Nat.one_le_iff_ne_zero.2 h)]
  unfold fpValue orderKey
  dsimp only at hmag ⊢
  rw [← hmag]
  split
  · exact (signedMagnitude_neg f _).symm
  · rfl

theorem orderKey_lt_iff (f : FpFmt) (a b : Dword) : orderKey f a < orderKey f b ↔ fpValue f a < fpValue f b := by
  rw [fpValue_eq_signedMagnitude, fpValue_eq_signedMagnitude, (signedMagnitude_strictMono f).lt_iff_lt]

theorem orderKey_eq_iff (f : FpFmt) (a b : Dword) : orderKey f a = orderKey f b ↔ fpValue f a = fpValue f b := by
  rw [fpValue_eq_signedMagnitude, fpValue_eq_signedMagnitude, (signedMagnitude_strictMono f).injective.eq_iff]

section Conditions

variable {f : FpFmt} {cond : BitVec 4} {a b : Dword}

theorem isSnan_classify_iff : (classify f a).isSnan = true ↔ IsSnan f a := by
  cases h : classify f a <;> simp [IsSnan, FpClass.isSnan, h]

theorem isSnan_of_not_nan (h : isNan f a = false) : (classify f a).isSnan = false := (Bool.or_eq_false_iff.1 h).1

theorem fpCompare_ordered (ha : isNan f a = false) (hb : isNan f b = false) :
    ((fpCompare f cond a b).1 = true ↔ (cond.getLsbD 2 = true ∧ fpValue f a < fpValue f b) ∨
      (cond.getLsbD 1 = true ∧ fpValue f a = fpValue f b)) ∧ (fpCompare f cond a b).2 = false := by
  simp [fpCompare, ha, hb, isSnan_of_not_nan ha, isSnan_of_not_nan hb, orderKey_lt_iff, orderKey_eq_iff]

theorem fpCompare_unordered (h : isNan f a = true ∨ isNan f b = true) :
    (fpCompare f cond a b).1 = cond.getLsbD 0 ∧
      ((fpCompare f cond a b).2 = true ↔ cond.getLsbD 3 = true ∨ IsSnan f a ∨ IsSnan f b) := by
  have hn : (isNan f a || isNan f b) = true := Bool.or_eq_true_iff.2 h
  simp [fpCompare, hn, isSnan_classify_iff, or_comm]

end Conditions

/-! ### The compares -/

theorem getLsbD_setBit8 (w : BitVec 8) (i : BitVec 3) (b : Bool) {k : Nat} (hk : k < 8) :
    (setBit8 w i b).getLsbD k = if k = i.toNat then b else w.getLsbD k := by
  rcases lt_trichotomy k i.toNat with h | rfl | h
  · simp [setBit8, hk, h, h.ne]
  · simp [setBit8, hk]
  · simp [setBit8, hk, h.ne', not_lt_of_gt h, Nat.sub_ne_zero_of_lt h]

theorem fpTraps_invalid (inv : Bool) (e : FpFlags) :
    fpTraps false { FpFlags.none with v := inv } e = true ↔ inv = true ∧ e.v = true := by
  simp [fpTraps, FpFlags.meets, FpFlags.none]

theorem exec_fpCompareCase {i : Instr} {f : FpFmt} {cond : BitVec 4} {ft fs : RegNum} {cc : BitVec 3}
    (h : fpCompareCase i = some (f, cond, ft, fs, cc)) (s : State) : exec i s = fpCompareInto f cond ft fs cc s := by
  unfold fpCompareCase at h
  split at h <;> cases h <;> rfl

/-- A compare that is not taken as an exception writes its condition code, `Cause` and the flags. -/
theorem writesCondition {i : Instr} {s : State} {cc : BitVec 3} {b : Bool} {v : FpFlags}
    (h : exec i s = complete (writeFcc cc b (addFpFlags v (setFpCause false v s)))) :
    Does i s (fun t => OnlyFpu s t ∧ t.fpu.fgr = s.fpu.fgr ∧
      (∀ k, k < 8 → t.fpu.fcr31.cc.getLsbD k = if k = cc.toNat then b else s.fpu.fcr31.cc.getLsbD k) ∧
      t.fpu.fcr31.causeE = false ∧ t.fpu.fcr31.cause = v ∧ t.fpu.fcr31.flags = s.fpu.fcr31.flags.or v ∧
      KeepsFcr31Modes s t) := by
  refine ⟨_, h, onlyFpu_advance ⟨_, _, rfl⟩, ?_⟩
  rw [KeepsFcr31Modes, advance_fpu]
  exact ⟨rfl, fun k hk => getLsbD_setBit8 _ cc b hk, rfl, rfl, rfl, rfl, rfl, rfl⟩

/-- Settles O58: the order of the values is that of the keys the compare tests, and its end is that of every operation. -/
theorem fpComparesOrderValues : Obligations.FpComparesOrderValues := by
  refine ⟨fun f cond a b _ _ => ⟨fpCompare_ordered, fpCompare_unordered⟩, fun s i f cond ft fs cc h hcu1 => ?_⟩
  have hexec := exec_fpCompareCase h s
  refine ⟨fun hcc hm => ?_, fun hok => ?_⟩
  · rw [hexec, fpCompareInto, bne_iff_ne.2 hcc]
    exact fpGuard_missing hcu1 hm
  · replace hok : (cc != 0) = false ∨ isMips4 s = true := hok.imp_left bne_eq_false_iff_eq.2
    refine ⟨fun ho => hexec.trans (fpGuard_odd hcu1 hok ho), fun he => ?_⟩
    replace hexec := hexec.trans (fpGuard_ready hcu1 hok he)
    refine ⟨fun hinv hen => hexec.trans (fpFinish_traps ((fpTraps_invalid _ _).2 ⟨hinv, hen⟩)), fun hno => ?_⟩
    refine writesCondition (hexec.trans (fpFinish_completes fun ht => ?_))
    obtain ⟨hinv, hen⟩ := (fpTraps_invalid _ _).1 ht
    rcases hno with hno | hno
    · exact Bool.noConfusion (hno.symm.trans hinv)
    · exact Bool.noConfusion (hno.symm.trans hen)

/-! ### Branches on a condition code (rule R735) -/

section Branch

variable {s : State} {likely tf : Bool} {cc : BitVec 3} {offset : BitVec 16} (hcu1 : s.status.cu1 = true)
include hcu1

theorem fpBranch_ready (h : cc = 0 ∨ isMips4 s = true) : fpBranch likely tf cc offset s =
    if likely then branchLikely (readFcc s cc == tf) (branchDest s offset) s
    else branch (readFcc s cc == tf) (branchDest s offset) s := by
  rw [fpBranch, requireCu1_usable hcu1]
  rcases h with rfl | h
  · rfl
  · exact requireFpMips4_enabled h _ _

theorem fpBranch_missing (hcc : cc ≠ 0) (h : isMips4 s = false) : fpBranch likely tf cc offset s = takesUnimplemented s := by
  rw [fpBranch, requireCu1_usable hcu1, bne_iff_ne.2 hcc, requireFpMips4_missing h]

theorem fpBranches (hslot : s.inDelaySlot = false) (h : cc = 0 ∨ isMips4 s = true) :
    let set : Prop := s.fpu.fcr31.cc.getLsbD cc.toNat = true
    Branches (.bc1f cc offset) s (¬set) offset none ∧ Branches (.bc1t cc offset) s set offset none ∧
      BranchesLikely (.bc1fl cc offset) s (¬set) offset none ∧ BranchesLikely (.bc1tl cc offset) s set offset none := by
  have hset : (readFcc s cc == true) = true ↔ s.fpu.fcr31.cc.getLsbD cc.toNat = true := beq_iff_eq
  have hclear : (readFcc s cc == false) = true ↔ ¬s.fpu.fcr31.cc.getLsbD cc.toNat = true :=
    beq_iff_eq.trans (Bool.not_eq_true _).to_iff.symm
  exact ⟨branches_of_branch hslot none (fpBranch_ready hcu1 h) hclear,
    branches_of_branch hslot none (fpBranch_ready hcu1 h) hset,
    branchesLikely_of_branchLikely hslot none (fpBranch_ready hcu1 h) hclear,
    branchesLikely_of_branchLikely hslot none (fpBranch_ready hcu1 h) hset⟩

end Branch

/-! ### Copies (rules R706, R740 to R744) -/

theorem givesFpr_of_writeFpr {i : Instr} {s : State} {isWide : Bool} {fd : RegNum} {v : Dword}
    (h : exec i s = complete (writeFpr isWide fd v s)) : GivesFpr isWide fd v i s :=
  ⟨_, h, writeFpr_advance ⟨_, _, rfl⟩ rfl⟩

theorem copiesWhen_of_fpMoveIf {i : Instr} {s : State} {f : FpFmt} {fs fd : RegNum} {c : Bool} {p : Prop}
    (h : exec i s = fpMoveIf f c fs fd s) (hcu1 : s.status.cu1 = true) (hm : isMips4 s = true)
    (he : EvenRegs s [fs, fd]) (hc : c = true ↔ p) : CopiesWhen i s p f fs fd := by
  replace h := h.trans (fpGuard_ready hcu1 (.inr hm) he)
  refine ⟨fun hp => givesFpr_of_writeFpr (h.trans ?_), fun hp => does_onlyPc_of_drew (n := 0) (h.trans ?_)⟩
  · rw [if_pos (hc.2 hp)]
    rfl
  · rw [if_neg (mt hc.1 hp)]
    rfl

/-- The conditional copies, all of them MIPS IV. -/
def conditionalCopies (rt fs fd : RegNum) (cc : BitVec 3) : List Instr :=
  [.movfS cc fs fd, .movtS cc fs fd, .movnS rt fs fd, .movzS rt fs fd, .movfD cc fs fd, .movtD cc fs fd, .movnD rt fs fd,
    .movzD rt fs fd]

/-- One test stands before every conditional copy. -/
theorem exec_conditionalCopy {rt fs fd : RegNum} {cc : BitVec 3} {i : Instr} (h : i ∈ conditionalCopies rt fs fd cc)
    (s : State) : ∃ k, exec i s = fpGuard true [fs, fd] s k := by
  simp only [conditionalCopies, List.mem_cons, List.not_mem_nil, or_false] at h
  rcases h with rfl | rfl | rfl | rfl | rfl | rfl | rfl | rfl <;> exact ⟨_, rfl⟩

theorem fpCopies {s : State} (rt : RegNum) {fs fd : RegNum} (cc : BitVec 3) (hcu1 : s.status.cu1 = true)
    (hm : isMips4 s = true) (he : EvenRegs s [fs, fd]) :
    let set : Prop := s.fpu.fcr31.cc.getLsbD cc.toNat = true
    CopiesWhen (.movfS cc fs fd) s (¬set) .single fs fd ∧ CopiesWhen (.movtS cc fs fd) s set .single fs fd ∧
      CopiesWhen (.movnS rt fs fd) s (uval s rt ≠ 0) .single fs fd ∧
      CopiesWhen (.movzS rt fs fd) s (uval s rt = 0) .single fs fd ∧
      CopiesWhen (.movfD cc fs fd) s (¬set) .double fs fd ∧ CopiesWhen (.movtD cc fs fd) s set .double fs fd ∧
      CopiesWhen (.movnD rt fs fd) s (uval s rt ≠ 0) .double fs fd ∧
      CopiesWhen (.movzD rt fs fd) s (uval s rt = 0) .double fs fd := by
  have hclear : (!readFcc s cc) = true ↔ ¬s.fpu.fcr31.cc.getLsbD cc.toNat = true := Bool.not_eq_true' _ |>.to_iff.trans
    (Bool.not_eq_true _).to_iff.symm
  have copies {i : Instr} {f : FpFmt} {c : Bool} {p : Prop} (h : exec i s = fpMoveIf f c fs fd s) (hc : c = true ↔ p) :
      CopiesWhen i s p f fs fd := copiesWhen_of_fpMoveIf h hcu1 hm he hc
  exact ⟨copies rfl hclear, copies rfl Iff.rfl, copies rfl (readGpr_bne_zero_iff s rt), copies rfl (readGpr_beq_zero_iff s rt),
    copies rfl hclear, copies rfl Iff.rfl, copies rfl (readGpr_bne_zero_iff s rt), copies rfl (readGpr_beq_zero_iff s rt)⟩

/-! ### The control registers (10_state.md rules R51, R53; rules R694, R695) -/

theorem flags_toBits_ofBits (b : BitVec 5) : (FpFlags.ofBits b).toBits = b := by
  revert b
  decide

theorem fcr31_write (x : Fcr31) (w : Word) : (Fcr31.ofWord w).toWord = masked x.toWord 0xFF83FFFF w 0 := by
  unfold Fcr31.toWord
  repeat rw [masked_append]
  simp only [Fcr31.ofWord, BitVec.extractLsb'_append_eq_left, BitVec.extractLsb'_append_eq_right, flags_toBits_ofBits]
  simp [extractLsb'_bit]

theorem fcr31_toWord_ofWord (w : Word) : (Fcr31.ofWord w).toWord = w &&& 0xFF83FFFF := by
  have hzero : (Fcr31.ofWord 0).toWord = 0 := by decide
  rw [fcr31_write (.ofWord 0), masked_register, hzero]
  exact (congrArg (· ||| _) BitVec.zero_and).trans BitVec.zero_or

theorem sext32_pridWord (p : Params) : sext32 (pridWord p) = BitVec.ofNat 64 (0x2700 + p.rev.toNat) := by
  have h : ∀ r : BitVec 8, sext32 (0#16 ++ Config.imp ++ r) = BitVec.ofNat 64 (0x2700 + r.toNat) := by decide
  exact h p.rev

theorem meets_ofBits_iff (a b : BitVec 5) : (FpFlags.ofBits a).meets (.ofBits b) = true ↔ ¬a &&& b = 0 := by
  revert a b
  decide

/-- `E`, or a `Cause` bit together with its enable. -/
theorem fcr31_traps_iff (w : Word) :
    fpTraps (Fcr31.ofWord w).causeE (Fcr31.ofWord w).cause (Fcr31.ofWord w).enables = true ↔
      ¬(w.getLsbD 17 = false ∧ w.extractLsb' 12 5 &&& w.extractLsb' 7 5 = 0) := by
  rw [fpTraps, Bool.or_eq_true, not_and_or, Bool.not_eq_false]
  exact or_congr Iff.rfl (meets_ofBits_iff _ _)

section Control

variable {s : State} {rt : RegNum} (hcu1 : s.status.cu1 = true)
include hcu1

/-- A move to `FCR31`: the answer by its bits. -/
theorem exec_ctc1_fcr31 : exec (.ctc1 rt 31) s =
    if fpTraps (Fcr31.ofWord (low32 (readGpr s rt))).causeE (Fcr31.ofWord (low32 (readGpr s rt))).cause
      (Fcr31.ofWord (low32 (readGpr s rt))).enables = true then raise .fpe (writeFcr31 (low32 (readGpr s rt)) s)
    else complete (writeFcr31 (low32 (readGpr s rt)) s) :=
  fpGuard_enabled hcu1 evenRegs_nil

theorem ctc1_writes :
    let w := low32 (readGpr s rt)
    (w.getLsbD 17 = false → w.extractLsb' 12 5 &&& w.extractLsb' 7 5 = 0 →
      Does (.ctc1 rt 31) s (fun t => OnlyFpu s t ∧ t.fpu.fgr = s.fpu.fgr ∧ t.fpu.fcr31.toWord = w &&& 0xFF83FFFF)) ∧
    (¬(w.getLsbD 17 = false ∧ w.extractLsb' 12 5 &&& w.extractLsb' 7 5 = 0) →
      Does (.ctc1 rt 31) s (fun t => t.cp0.cause.excCode = 15 ∧ t.cp0.status.exl = true ∧ t.fpu.fgr = s.fpu.fgr ∧
        t.fpu.fcr31.toWord = w &&& 0xFF83FFFF ∧ KeepsGpr s t ∧ KeepsMem s t)) := by
  refine ⟨fun he hmeets => ?_, fun htraps => ?_⟩
  · refine ⟨_, (exec_ctc1_fcr31 hcu1).trans (if_neg (mt (fcr31_traps_iff _).1 (not_not.2 ⟨he, hmeets⟩))),
      onlyFpu_advance ⟨_, _, rfl⟩, ?_⟩
    rw [advance_fpu]
    exact ⟨rfl, fcr31_toWord_ofWord _⟩
  · have h := takesGeneral_takeException .fpe (writeFcr31 (low32 (readGpr s rt)) s)
    refine ⟨_, (exec_ctc1_fcr31 hcu1).trans (if_pos ((fcr31_traps_iff _).2 htraps)), h.excCode, ?_, ?_, ?_, h.gpr, h.mem⟩
    · rw [h.status]
    · rw [h.fpu]
      rfl
    · rw [h.fpu]
      exact fcr31_toWord_ofWord _

theorem cfc1_reads (fs : RegNum) :
    (fs = 0 → Gives (.cfc1 rt fs) s rt (BitVec.ofNat 64 (0x2700 + s.params.rev.toNat))) ∧
    (fs = 31 → Gives (.cfc1 rt fs) s rt (word (s.fpu.fcr31.toWord.toNat : Int))) ∧
    (fs ≠ 0 → fs ≠ 31 → Does (.cfc1 rt fs) s (OnlyGpr rt s)) := by
  have h : exec (.cfc1 rt fs) s = _ := fpGuard_enabled hcu1 evenRegs_nil
  refine ⟨?_, ?_, fun h0 h31 => ?_⟩
  · rintro rfl
    exact gives_of_writeResult h (sext32_pridWord s.params)
  · rintro rfl
    exact gives_of_writeResult h (sext32_eq_word _)
  · rw [if_neg h0, if_neg h31] at h
    obtain ⟨t, hnext, -, honly⟩ := writeResult_drew s 1 rt (sext32 (low32 (s.free 0)))
    exact ⟨t, h.trans hnext, honly⟩

end Control

/-- Settles O59, by the kind of instruction. -/
theorem fpBranchesAndMoves : Obligations.FpBranchesAndMoves := by
  intro s rt fs fd cc offset hcu1
  obtain ⟨hprid, hfcr31, hreserved⟩ := cfc1_reads (rt := rt) hcu1 fs
  refine ⟨fun hslot h => fpBranches hcu1 hslot h, fun hcc hm => ?bc1,
    fun he => ⟨?movS, ?movD, fun hm => fpCopies rt cc hcu1 hm he⟩,
    fun hm i hi => ?missing, fun ho => ⟨?oddS, ?oddD, fun hm i hi => ?odd⟩, ?mfc1, ?mtc1, fun h64 he => ⟨?dmfc1, ?dmtc1⟩,
    fun h64 ho => ⟨?dmfc1Odd, ?dmtc1Odd⟩, hprid, hfcr31, hreserved, fun hne => ?ctc1, fun h31 => h31 ▸ ctc1_writes hcu1⟩
  case bc1 =>
    simp only [List.forall_mem_cons, List.not_mem_nil, false_imp_iff, implies_true, and_true]
    exact ⟨fpBranch_missing hcu1 hcc hm, fpBranch_missing hcu1 hcc hm, fpBranch_missing hcu1 hcc hm,
      fpBranch_missing hcu1 hcc hm⟩
  case movS | movD => exact givesFpr_of_writeFpr (fpGuard_enabled hcu1 he)
  case missing =>
    obtain ⟨k, hk⟩ := exec_conditionalCopy hi s
    exact hk.trans (fpGuard_missing hcu1 hm)
  case oddS | oddD => exact fpGuard_odd hcu1 (.inl rfl) ho
  case odd =>
    obtain ⟨k, hk⟩ := exec_conditionalCopy hi s
    exact hk.trans (fpGuard_odd hcu1 (.inr hm) ho)
  case mfc1 => exact gives_of_writeResult (fpGuard_enabled hcu1 evenRegs_nil) (sext32_low32 _)
  case mtc1 => exact givesFpr_of_writeFpr (fpGuard_enabled hcu1 evenRegs_nil)
  case dmfc1 =>
    exact gives_of_writeResult ((requireIs64_enabled h64 _).trans (fpGuard_enabled hcu1 he)) rfl
  case dmtc1 => exact givesFpr_of_writeFpr ((requireIs64_enabled h64 _).trans (fpGuard_enabled hcu1 he))
  case dmfc1Odd | dmtc1Odd => exact (requireIs64_enabled h64 _).trans (fpGuard_odd hcu1 (.inl rfl) ho)
  case ctc1 =>
    exact does_onlyPc_of_drew (n := 0) ((fpGuard_enabled hcu1 evenRegs_nil).trans (if_neg hne))

end Sys2Proof.Proofs

/-! # Loads and stores of the floating-point unit

They are `loadData` and `storeData` of 43_load_store.md, with a register of the unit in the place of a general one: what
they read and write is said by `Reads`, `stores_direct` and `storesThrough_store`, and here is the register. -/

namespace Sys2Proof.Proofs

open Sys2Proof.Machine Sys2Proof.Safety Sys2Proof.Laws

section Loads

variable {i : Instr} {s u : State} {isWide : Bool} {f : RegNum} {n : Nat} {va : Dword} {pa : PAddr} {attr : BitVec 3}

theorem Reads.toFpr {x : Nat} (h : Reads n pa attr s x u) (htr : translateAligned .load n va s = .ok (pa, attr))
    (isWide : Bool) (f : RegNum) :
    fpLoad isWide f (loadData n va s) = complete (writeFpr isWide f (BitVec.ofNat 64 x) u) := by
  obtain ⟨v, hload, hx, -⟩ := h
  rw [loadData_of_translate htr, hload, ← eq_ofNat_of_toNat hx]
  rfl

/-- A register of the unit written over the state that an access left. -/
theorem writeFpr_memSide (hu : MemSide s u) (v : Dword) :
    let t := advance (writeFpr isWide f v u)
    (KeepsGpr s t ∧ KeepsHiLo s t ∧ KeepsControl s t ∧ t.llBit = s.llBit ∧ KeepsRest s { t with caches := s.caches }) ∧
      Continues s t ∧ FprHolds isWide f v s t ∧ KeepsFgrBut isWide f s t ∧ t.fpu.fcr31 = s.fpu.fcr31 := by
  obtain ⟨-, hholds, hkeeps, hfcr31⟩ := writeFpr_advance (isWide := isWide) (fd := f) (v := v) (s := u) ⟨_, _, rfl⟩ rfl
  have hfgr : u.fpu.fgr = s.fpu.fgr := congrArg Fpu.fgr hu.fpu
  refine ⟨⟨fun q => readGpr_congr (by simp [hu.gpr]) q, by simp [KeepsHiLo, hu.hi, hu.lo],
    by simp [KeepsControl, hu.cp0, hu.tlb], by simp [hu.llBit], ?_⟩,
    continues_advance s _ (by simp [hu.pc]) (by simp [hu.inDelaySlot]) (by simp [hu.branchTarget]),
    fprHolds_congr hholds hfgr hu.cp0 rfl rfl, keepsFgrBut_congr hkeeps hfgr hu.cp0 rfl,
    hfcr31.trans (congrArg Fpu.fcr31 hu.fpu)⟩
  simp [KeepsRest, hu.intReg, hu.intPin, hu.nmiPin, hu.nmiLevel, hu.timerPending, hu.standby, hu.busIdle, hu.params,
    hu.pendingErrors, hu.events]

/-- The caches and memory are those that the access left. -/
theorem lineFilled_writeFpr (v : Dword) (h : LineFilled pa s u) : LineFilled pa s (advance (writeFpr isWide f v u)) := by
  obtain ⟨fpu, m, hwrite⟩ := fpuSide_writeFpr isWide f v u
  obtain ⟨pc, slot, hdone⟩ := advance_eq (writeFpr isWide f v u)
  rw [hdone, hwrite]
  exact h

theorem fillsFpr_of_writeFpr {v : Dword} (h : exec i s = complete (writeFpr isWide f v (dataFilled pa attr true s))) :
    FillsFpr isWide f v pa i s := by
  obtain ⟨⟨hgpr, hhilo, hcontrol, hlink, hrest⟩, hcont, hholds, hkeeps, hfcr31⟩ :=
    writeFpr_memSide (isWide := isWide) (f := f) (dataFilled_side s pa attr true) v
  exact ⟨_, h, hgpr, hhilo, hcontrol, hlink, hrest, fun a => by simp [dataFilled], hcont, hholds, hkeeps, hfcr31,
    lineFilled_writeFpr v (lineFilled_dataFilled s pa attr true)⟩

end Loads

/-- What a load of the unit does, on memory, in a line, over a miss, and misaligned. -/
structure LoadsFpr (i : Instr) (s : State) (isWide : Bool) (f : RegNum) (n : Nat) (va : Dword) (pa : PAddr)
    (attr : BitVec 3) : Prop where
  direct : Direct s attr → LoadReaches n va s pa attr →
    GivesFpr isWide f (BitVec.ofNat 64 (numberAt (bigEndianCpu s) s.mem pa.toNat n)) i s
  hit : ∀ k, lookupD s pa = .ok (some k) → AccessCached .load n va s pa attr →
    GivesFpr isWide f (BitVec.ofNat 64 (lineNumber (bigEndianCpu s) (dLine s k).data (pa.toNat % 32) n)) i s
  miss : MissesCleanly s pa attr → AccessCached .load n va s pa attr →
    FillsFpr isWide f (BitVec.ofNat 64 (numberAt (bigEndianCpu s) s.mem pa.toNat n)) pa i s
  misaligned : va.toNat % n ≠ 0 → Raises i s (.adE false va)

/-- What a store of the unit does, on memory, through the caches, and misaligned. -/
structure StoresFpr (i : Instr) (s : State) (n : Nat) (d : Nat) (va : Dword) (pa : PAddr) (attr : BitVec 3) : Prop where
  direct : Direct s attr → StoreReaches n va s pa attr → Stores i s pa n d
  cached : StoresCached i s va pa attr n d
  misaligned : va.toNat % n ≠ 0 → Raises i s (.adE true va)

section Forms

variable {i : Instr} {s : State} {n : Nat} {va : Dword} (hn : n ∈ [1, 2, 4, 8]) (pa : PAddr) (attr : BitVec 3)
include hn

theorem loadsFpr_of_fpLoad {isWide : Bool} {f : RegNum} (h : exec i s = fpLoad isWide f (loadData n va s)) :
    LoadsFpr i s isWide f n va pa attr where
  direct hd hr := by
    obtain ⟨htr, hread⟩ := loadReaches_reads hd hn hr
    exact givesFpr_of_writeFpr (h.trans (hread.toFpr htr isWide f))
  hit k hk hr := by
    obtain ⟨htr, hread⟩ := accessCached_hit hk hn hr
    exact givesFpr_of_writeFpr (h.trans (hread.toFpr htr isWide f))
  miss hm hr := by
    obtain ⟨htr, hread⟩ := accessCached_miss hm hn hr
    exact fillsFpr_of_writeFpr (h.trans (hread.toFpr htr isWide f))
  misaligned hne := h.trans ((loadsVia_aligned (ready := True) false _).stopped (accessAddress_misaligned hne))

theorem storesFpr_of_fpStore {d : Dword} (h : exec i s = fpStore (storeData n va d s)) :
    StoresFpr i s n d.toNat va pa attr where
  direct hd hr := by
    obtain ⟨htr, hdev, hw⟩ := hr
    rw [storeData_of_translate htr] at h
    exact stores_direct h hw hd (le_eight hn) hdev
  cached hr := by
    obtain ⟨ht, htr, hw⟩ := hr
    rw [storeData_of_translate htr] at h
    exact storesThrough_store h hw ht (le_eight hn) (offset_of_aligned htr hn)
  misaligned hne := h.trans ((storesVia_aligned (ready := True) d).stopped (accessAddress_misaligned hne))

end Forms

theorem readFprWord_toNat (s : State) (f : RegNum) : ((readFprWord s f).zeroExtend 64).toNat = (readFprWord s f).toNat :=
  BitVec.toNat_setWidth_of_le (by decide)

/-! ### The tests of the indexed forms (rules R661, R679) -/

section Indexed

variable {s : State} {regs : List RegNum} {k : Out}

theorem fpGuardCop1x_odd (hm : isMips4 s = true) (hcu1 : s.status.cu1 = true) (h : ¬EvenRegs s regs) :
    fpGuardCop1x regs s k = .fault .oddFpr := by
  rw [fpGuardCop1x, requireMips4_enabled hm, requireCu1_usable hcu1, requireEven_odd h]

/-- An index that changes the region is an Address Error. -/
theorem fpGuardCop1x_region (hm : isMips4 s = true) (hcu1 : s.status.cu1 = true) (h : EvenRegs s regs)
    {base index : RegNum} (kind : AccessKind)
    (hne : uval s base / 2 ^ 62 ≠ (indexAddr s base index).toNat / 2 ^ 62) :
    fpGuardCop1x regs s (sameRegion kind (readGpr s base) (indexAddr s base index) s k) =
      raise (.adE kind.isStore (indexAddr s base index)) s := by
  rw [fpGuardCop1x, requireMips4_enabled hm, requireCu1_usable hcu1, requireEven_even h]
  refine if_pos ?_
  rw [bne_iff_ne, ne_eq, ← BitVec.toNat_inj, region_toNat, region_toNat]
  exact hne

end Indexed

/-- Settles O60: each form, past its tests, is a load or a store of the unit. -/
theorem fpLoadsAndStores : Obligations.FpLoadsAndStores := by
  intro s base index f offset pa attr hcu1 x forms
  have key : ∀ lw ld sw sd va, exec lw s = fpLoad false f (loadData 4 va s) →
      exec sw s = fpStore (storeData 4 va ((readFprWord s f).zeroExtend 64) s) →
      (EvenRegs s [f] → exec ld s = fpLoad true f (loadData 8 va s) ∧
        exec sd s = fpStore (storeData 8 va (readFprDword s f) s)) →
      (¬EvenRegs s [f] → exec ld s = .fault .oddFpr ∧ exec sd s = .fault .oddFpr) → forms lw ld sw sd va := by
    intro lw ld sw sd va hlw hsw hwide hodd
    have hlw := loadsFpr_of_fpLoad (by decide) pa attr hlw
    have hsw := storesFpr_of_fpStore (by decide) pa attr hsw
    rw [readFprWord_toNat] at hsw
    have hld (he : EvenRegs s [f]) := loadsFpr_of_fpLoad (by decide) pa attr (hwide he).1
    have hsd (he : EvenRegs s [f]) := storesFpr_of_fpStore (by decide) pa attr (hwide he).2
    exact ⟨fun hd => ⟨hlw.direct hd, fun hr he => (hld he).direct hd hr, hsw.direct hd, fun hr he => (hsd he).direct hd hr⟩,
      fun k hk => ⟨hlw.hit k hk, fun hr he => (hld he).hit k hk hr⟩,
      fun hm => ⟨hlw.miss hm, fun hr he => (hld he).miss hm hr⟩, hsw.cached, fun he => (hsd he).cached,
      fun hne => ⟨hlw.misaligned hne, hsw.misaligned hne⟩,
      fun hne he => ⟨(hld he).misaligned hne, (hsd he).misaligned hne⟩, hodd⟩
  refine ⟨key _ _ _ _ _ (fpGuard_enabled hcu1 evenRegs_nil) (fpGuard_enabled hcu1 evenRegs_nil)
    (fun he => ⟨fpGuard_enabled hcu1 he, fpGuard_enabled hcu1 he⟩)
    (fun ho => ⟨fpGuard_odd hcu1 (.inl rfl) ho, fpGuard_odd hcu1 (.inl rfl) ho⟩), fun hm => ⟨fun hregion => ?_, fun hne => ?_⟩⟩
  · have hready : IndexedReady s base index := ⟨hm, hcu1, hregion⟩
    exact key _ _ _ _ _ (indexed_enabled hready evenRegs_nil) (indexed_enabled hready evenRegs_nil)
      (fun he => ⟨indexed_enabled hready he, indexed_enabled hready he⟩)
      (fun ho => ⟨fpGuardCop1x_odd hm hcu1 ho, fpGuardCop1x_odd hm hcu1 ho⟩)
  · exact ⟨fpGuardCop1x_region hm hcu1 evenRegs_nil .load hne, fpGuardCop1x_region hm hcu1 evenRegs_nil .store hne,
      fun he => ⟨fpGuardCop1x_region hm hcu1 he .load hne, fpGuardCop1x_region hm hcu1 he .store hne⟩⟩

end Sys2Proof.Proofs

/-! # What User mode cannot change

A step in User mode is an interrupt, a failing fetch or an instruction, with the counters behind it. Each of them leaves
the control part of the state alone (`controlPart`) or enters the handler of an exception: `OutConfined`. Two facts carry
this. The operations of the memory system change memory and caches only (`OpSide`) and stop with no cache error and no
interrupt (`OpOrdinary`). And the instructions of CP0 and `CACHE` raise Coprocessor Unusable (`exec_confined`). -/

namespace Sys2Proof.Proofs

open Sys2Proof.Machine Sys2Proof.Safety Sys2Proof.Laws

/-! ## The operating mode (60_exceptions.md rules R840, R842, R843) -/

theorem ksu_cases (k : BitVec 2) : k = 0 ∨ k = 1 ∨ k = 2 ∨ k = 3 := by
  revert k
  decide

/-- The mode by `ERL`, `EXL` and `KSU` (rule R840). -/
theorem mode_iff (s : State) :
    (mode s = .kernel ↔ s.cp0.status.erl = true ∨ s.cp0.status.exl = true ∨ s.cp0.status.ksu = 0) ∧
    (mode s = .supervisor ↔ s.cp0.status.erl = false ∧ s.cp0.status.exl = false ∧ s.cp0.status.ksu = 1) ∧
    (mode s = .user ↔ s.cp0.status.erl = false ∧ s.cp0.status.exl = false ∧ s.cp0.status.ksu = 2) := by
  cases herl : s.cp0.status.erl with
  | true => simp [mode, State.status, herl]
  | false =>
    cases hexl : s.cp0.status.exl with
    | true => simp [mode, State.status, herl, hexl]
    | false => rcases ksu_cases s.cp0.status.ksu with h | h | h | h <;> simp [mode, State.status, herl, hexl, h]

theorem is64_iff (s : State) : is64 s = true ↔ mode s = .kernel ∨ (mode s = .supervisor ∧ s.cp0.status.sx = true) ∨
    (mode s = .user ∧ s.cp0.status.ux = true) := by
  cases h : mode s <;> simp [is64, h, State.status]

theorem isMips4_iff (s : State) : isMips4 s = true ↔ mode s = .kernel ∨ mode s = .supervisor ∨
    (mode s = .user ∧ s.cp0.status.xx = true) := by
  cases h : mode s <;> simp [isMips4, h, State.status]

theorem cp0Usable_iff (s : State) : cp0Usable s = true ↔ mode s = .kernel ∨ s.cp0.status.cu0 = true := by
  rw [cp0Usable, Bool.or_eq_true, beq_iff_eq, State.status]

/-- `RE` reverses the byte order of User mode (20_memory.md rule R253). -/
theorem bigEndianCpu_iff (s : State) : bigEndianCpu s = true ↔
    (s.params.bigEndian = true ∧ ¬(s.cp0.status.re = true ∧ mode s = .user)) ∨
    (s.params.bigEndian = false ∧ s.cp0.status.re = true ∧ mode s = .user) := by
  cases h : s.params.bigEndian <;> cases hre : s.cp0.status.re <;> simp [bigEndianCpu, h, hre, State.status]

/-- The operating mode depends on `Status` alone (60_exceptions.md rule R840). -/
theorem mode_congr {s t : State} (h : t.cp0.status = s.cp0.status) : mode t = mode s := by
  unfold mode State.status
  rw [h]

theorem cp0Usable_congr {s t : State} (h : t.cp0.status = s.cp0.status) : cp0Usable t = cp0Usable s := by
  rw [cp0Usable, cp0Usable, mode_congr h, State.status, State.status, h]

theorem mode_user_exl {s : State} (h : mode s = .user) : s.cp0.status.exl = false := by
  obtain ⟨-, -, huser⟩ := mode_iff s
  obtain ⟨-, hexl, -⟩ := huser.1 h
  exact hexl

/-- Settles O14: the mode by cases on `ERL`, `EXL` and `KSU`, each permission by cases on the mode. -/
theorem modeDecidesPermissions : Obligations.ModeDecidesPermissions := by
  intro s
  obtain ⟨hkernel, hsupervisor, huser⟩ := mode_iff s
  exact ⟨hkernel, hsupervisor, huser, is64_iff s, isMips4_iff s, cp0Usable_iff s, bigEndianCpu_iff s⟩

/-! ## The exceptions an operation of the memory system can answer with -/

/-- An interrupt: the one exception of the general kind that is not raised by an instruction, its fetch or an error. -/
def isInterrupt : Exc → Bool
  | .int _ => true
  | _ => false

/-- A stop that raises, if anything, an exception of the general kind that is no interrupt: no cache error. -/
def StopOrdinary : Stop → Prop
  | .exc e _ => isInterrupt e = false
  | .cacheError _ => False
  | .fault _ => True
  | .refused _ => True

/-- An operation that stops, if at all, with such a stop. -/
def OpOrdinary {α : Type} : Except Stop α → Prop
  | .ok _ => True
  | .error e => StopOrdinary e

theorem OpOrdinary.error {α : Type} {x : Except Stop α} {e : Stop} (h : OpOrdinary x) (hx : x = .error e) :
    StopOrdinary e := by
  subst hx
  exact h

theorem opOrdinary_ite {α : Type} {c : Prop} [Decidable c] {x y : Except Stop α} (hx : OpOrdinary x) (hy : OpOrdinary y) :
    OpOrdinary (if c then x else y) := by
  split
  · exact hx
  · exact hy

/-- A writeback that is made only on a condition. -/
theorem maybeWrite_ordinary (c : Bool) {x : Except Stop State} (s : State) (h : OpOrdinary x) :
    OpOrdinary (if c then x else .ok s) :=
  opOrdinary_ite h trivial

theorem lookupD_ordinary (s : State) (pa : PAddr) : OpOrdinary (lookupD s pa) := by
  cases h : lookupD s pa with
  | ok a => trivial
  | error e => rw [lookupD_error s pa e h]; trivial

theorem lookupI_ordinary (s : State) (pa : PAddr) : OpOrdinary (lookupI s pa) := by
  cases h : lookupI s pa with
  | ok a => trivial
  | error e => rw [lookupI_error s pa e h]; trivial

theorem lookupT_ordinary (s : State) (pa : PAddr) : OpOrdinary (lookupT s pa) := by
  cases h : lookupT s pa with
  | ok a => trivial
  | error e => rw [lookupT_error s pa e h]; trivial

theorem mainWrite_ordinary (a : PAddr) (n : Nat) (v : Dword) (s : State) : OpOrdinary (mainWrite a n v s) := by
  unfold mainWrite
  split <;> trivial

theorem mainWriteLine_ordinary (a : PAddr) (v : BitVec 256) (s : State) : OpOrdinary (mainWriteLine a v s) := by
  unfold mainWriteLine
  split <;> trivial

theorem readable_ordinary (f : Bool) (pa : PAddr) (s : State) : OpOrdinary (readable f pa s) := by
  unfold readable
  split
  case h_4 => cases f <;> rfl
  all_goals trivial

theorem mainReadLine_ordinary (f : Bool) (a : PAddr) (s : State) : OpOrdinary (mainReadLine f a s) := by
  unfold mainReadLine
  split
  · next h => exact (readable_ordinary f a s).error h
  · trivial

theorem writeBelow_ordinary (a : PAddr) (v : BitVec 256) (s : State) : OpOrdinary (writeBelow a v s) := by
  unfold writeBelow
  split
  · next h => exact (mainWriteLine_ordinary a v s).error h
  · refine opOrdinary_ite ?_ trivial
    split
    · trivial
    · trivial
    · next h => exact (lookupT_ordinary _ a).error h

theorem writebackD_ordinary (a : PAddr) (x : DLine) (s : State) : OpOrdinary (writebackD a x s) := by
  unfold writebackD
  refine opOrdinary_ite (mainWriteLine_ordinary a x.data s) (opOrdinary_ite ?_ (writeBelow_ordinary a x.data s))
  split
  · trivial
  · exact writeBelow_ordinary a x.data s

theorem blockBelow_ordinary (f : Bool) (a : PAddr) (s : State) : OpOrdinary (blockBelow f a s) := by
  unfold blockBelow
  refine opOrdinary_ite ?_ ?_
  · split
    · trivial
    · split
      · next h => exact (mainReadLine_ordinary f a s).error h
      · trivial
    · next h => exact (lookupT_ordinary s a).error h
  · split
    · next h => exact (mainReadLine_ordinary f a s).error h
    · trivial

theorem fillS_ordinary (a : PAddr) (lock : Bool) (v : BitVec 256) (s : State) : OpOrdinary (fillS a lock v s) := by
  unfold fillS
  dsimp only
  split
  · trivial
  · next h => exact (maybeWrite_ordinary _ s (writeBelow_ordinary _ _ s)).error h

theorem blockSecondary_ordinary (f m : Bool) (a : PAddr) (s : State) : OpOrdinary (blockSecondary f m a s) := by
  unfold blockSecondary
  refine opOrdinary_ite ?_ (blockBelow_ordinary f a s)
  split
  · trivial
  · split
    · split
      · trivial
      · next h => exact (fillS_ordinary a _ _ _).error h
    · next h => exact (blockBelow_ordinary f a s).error h

theorem fillSource_ordinary (c f m : Bool) (a : PAddr) (s : State) : OpOrdinary (fillSource c f m a s) := by
  unfold fillSource
  refine opOrdinary_ite (blockSecondary_ordinary f m a s) ?_
  split
  · next h => exact (mainReadLine_ordinary f a s).error h
  · trivial

theorem evictD_ordinary (a : PAddr) (lock : Bool) (s : State) : OpOrdinary (evictD a lock s) := by
  unfold evictD
  dsimp only
  split
  · trivial
  · next h => exact (maybeWrite_ordinary _ s (writebackD_ordinary _ _ s)).error h

theorem fillD_ordinary (a : PAddr) (attr : BitVec 3) (load : Bool) (s : State) : OpOrdinary (fillD a attr load s) := by
  unfold fillD
  split
  · next h => exact (fillSource_ordinary _ false load a s).error h
  · split
    · next h => exact (evictD_ordinary a _ _).error h
    · trivial

theorem fillI_ordinary (a : PAddr) (attr : BitVec 3) (fill : Bool) (s : State) : OpOrdinary (fillI a attr fill s) := by
  unfold fillI
  split
  · next h => exact (fillSource_ordinary _ _ fill a s).error h
  · trivial

theorem cachedRead_ordinary (pa : PAddr) (n : Nat) (attr : BitVec 3) (s : State) : OpOrdinary (cachedRead pa n attr s) := by
  unfold cachedRead
  split
  · trivial
  · split
    · trivial
    · next h => exact (fillD_ordinary pa attr true s).error h
  · next h => exact (lookupD_ordinary s pa).error h

theorem storeMissFill_ordinary (pa : PAddr) (attr : BitVec 3) (s : State) : OpOrdinary (storeMissFill pa attr s) := by
  unfold storeMissFill
  split
  · trivial
  · trivial
  · next h => exact (fillD_ordinary pa attr false s).error h

theorem cachedWrite_ordinary (pa : PAddr) (n : Nat) (v : Dword) (attr : BitVec 3) (s : State) :
    OpOrdinary (cachedWrite pa n v attr s) := by
  unfold cachedWrite
  split
  · next h => exact (lookupD_ordinary s pa).error h
  · refine opOrdinary_ite ?_ trivial
    split
    · trivial
    · next h => exact (mainWrite_ordinary pa n v s).error h
  · refine opOrdinary_ite (mainWrite_ordinary pa n v s) (opOrdinary_ite ?_ ?_)
    · split
      · next h => exact (mainWrite_ordinary pa n v s).error h
      · split
        · trivial
        · next h => exact (storeMissFill_ordinary pa attr _).error h
    · split
      · trivial
      · trivial
      · next h => exact (storeMissFill_ordinary pa attr s).error h

theorem memRead_ordinary (pa : PAddr) (n : Nat) (attr : BitVec 3) (s : State) : OpOrdinary (memRead pa n attr s) := by
  unfold memRead
  refine opOrdinary_ite (cachedRead_ordinary pa n attr s) ?_
  split
  · next h => exact (readable_ordinary false pa s).error h
  · trivial

theorem memWrite_ordinary (pa : PAddr) (n : Nat) (v : Dword) (attr : BitVec 3) (s : State) :
    OpOrdinary (memWrite pa n v attr s) := by
  unfold memWrite
  refine opOrdinary_ite (cachedWrite_ordinary pa n v attr s) (opOrdinary_ite (mainWrite_ordinary pa n v s) ?_)
  split <;> trivial

theorem fetchRead_ordinary (pa : PAddr) (attr : BitVec 3) (s : State) : OpOrdinary (fetchRead pa attr s) := by
  unfold fetchRead
  refine opOrdinary_ite ?_ ?_
  · split
    · next h => exact (lookupI_ordinary s pa).error h
    · dsimp only
      split
      · trivial
      · exact opOrdinary_ite trivial trivial
    · split
      · trivial
      · next h => exact (fillI_ordinary pa attr false s).error h
  · split
    · next h => exact (readable_ordinary true pa s).error h
    · trivial

theorem translateMapped_ordinary (kind : AccessKind) (va : Dword) (s : State) :
    OpOrdinary (translateMapped kind va s) := by
  unfold translateMapped
  refine opOrdinary_ite trivial ?_
  split
  · rfl
  · exact opOrdinary_ite rfl (opOrdinary_ite rfl trivial)
  · trivial

theorem translate_ordinary (kind : AccessKind) (va : Dword) (s : State) : OpOrdinary (Machine.translate kind va s) := by
  unfold Machine.translate
  split
  · rfl
  · exact opOrdinary_ite trivial trivial
  · split
    · exact opOrdinary_ite trivial trivial
    · next h => exact (translateMapped_ordinary kind va s).error h

theorem translateAligned_ordinary (kind : AccessKind) (n : Nat) (va : Dword) (s : State) :
    OpOrdinary (translateAligned kind n va s) :=
  opOrdinary_ite (translate_ordinary kind va s) rfl

theorem watchData_ordinary (kind : AccessKind) (pa : PAddr) (n : Nat) (s : State) : OpOrdinary (watchData kind pa n s) :=
  opOrdinary_ite rfl trivial

theorem loadAt_ordinary (n : Nat) (pa : PAddr) (attr : BitVec 3) (s : State) : OpOrdinary (loadAt n pa attr s) := by
  unfold loadAt
  split
  · next h => exact (watchData_ordinary .load pa n s).error h
  · split
    · next h => exact (memRead_ordinary pa n attr s).error h
    · trivial

theorem storeAt_ordinary (n : Nat) (pa : PAddr) (attr : BitVec 3) (v : Dword) (s : State) :
    OpOrdinary (storeAt n pa attr v s) := by
  unfold storeAt
  split
  · next h => exact (watchData_ordinary .store pa n s).error h
  · exact memWrite_ordinary pa n _ attr s

theorem loadData_ordinary (n : Nat) (va : Dword) (s : State) : OpOrdinary (loadData n va s) := by
  unfold loadData
  split
  · next h => exact (translateAligned_ordinary .load n va s).error h
  · exact loadAt_ordinary n _ _ s

theorem storeData_ordinary (n : Nat) (va v : Dword) (s : State) : OpOrdinary (storeData n va v s) := by
  unfold storeData
  split
  · next h => exact (translateAligned_ordinary .store n va s).error h
  · exact storeAt_ordinary n _ _ v s

theorem loadLeft_ordinary (n : Nat) (va : Dword) (s : State) : OpOrdinary (loadLeft n va s) := by
  unfold loadLeft
  split
  · next h => exact (translate_ordinary .load va s).error h
  · exact loadAt_ordinary _ _ _ s

theorem loadRight_ordinary (n : Nat) (va : Dword) (s : State) : OpOrdinary (loadRight n va s) := by
  unfold loadRight
  split
  · next h => exact (translate_ordinary .load va s).error h
  · exact loadAt_ordinary _ _ _ s

theorem storeLeft_ordinary (n : Nat) (va v : Dword) (s : State) : OpOrdinary (storeLeft n va v s) := by
  unfold storeLeft
  split
  · next h => exact (translate_ordinary .store va s).error h
  · exact storeAt_ordinary _ _ _ _ s

theorem storeRight_ordinary (n : Nat) (va v : Dword) (s : State) : OpOrdinary (storeRight n va v s) := by
  unfold storeRight
  split
  · next h => exact (translate_ordinary .store va s).error h
  · exact storeAt_ordinary _ _ _ _ s

theorem prepareForStore_ordinary (pa : PAddr) (attr : BitVec 3) (s : State) : OpOrdinary (prepareForStore pa attr s) := by
  unfold prepareForStore
  refine opOrdinary_ite ?_ trivial
  split
  · next h => exact (lookupD_ordinary s pa).error h
  · trivial
  · split
    · next h => exact (evictD_ordinary pa false s).error h
    · trivial

theorem prefetchLine_ordinary (pa : PAddr) (attr : BitVec 3) (s : State) : OpOrdinary (prefetchLine pa attr s) := by
  unfold prefetchLine
  refine opOrdinary_ite (opOrdinary_ite ?_ trivial) trivial
  split
  · next h => exact (lookupD_ordinary s pa).error h
  · trivial
  · split <;> trivial

/-- Without a parity error of the board, a fetch raises no cache error (60_exceptions.md rule R811). -/
theorem fetch_ordinary (s : State) : OpOrdinary (fetch none s) := by
  unfold fetch
  split
  · next h => exact (translateAligned_ordinary .fetch 4 s.pc s).error h
  · split
    · next h => cases h
    · split
      · next h => exact (fetchRead_ordinary _ _ s).error h
      · split
        · next h => exact (opOrdinary_ite rfl trivial : OpOrdinary (watchFetch _ _)).error h
        · trivial

/-! ## The control part of the state -/

/-- What no User-mode program writes but through an exception: the JTLB, the parameters, Standby and the CP0 registers,
`LLAddr` and the counters aside (60_exceptions.md rule R841). -/
def controlPart (s : State) : Cp0 × Vector TlbEntry 64 × Params × Bool :=
  ({ s.cp0 with llAddr := 0, count := 0, random := 0, perfCount := 0 }, s.tlb, s.params, s.standby)

/-- The fields of the control part that permissions and vectors depend on. -/
theorem controlPart_status {s t : State} (h : controlPart t = controlPart s) : t.cp0.status = s.cp0.status :=
  congrArg (fun c => c.1.status) h

theorem controlPart_intControl {s t : State} (h : controlPart t = controlPart s) :
    t.cp0.intControl = s.cp0.intControl :=
  congrArg (fun c => c.1.intControl) h

theorem controlPart_of_eq {s t : State} (hcp0 : t.cp0 = s.cp0) (htlb : t.tlb = s.tlb) (hparams : t.params = s.params)
    (hstandby : t.standby = s.standby) : controlPart t = controlPart s := by
  rw [controlPart, hcp0, htlb, hparams, hstandby]
  rfl

theorem controlPart_memSide {s t : State} (h : MemSide s t) : controlPart t = controlPart s :=
  controlPart_of_eq h.cp0 h.tlb h.params h.standby

/-! An update of the general registers, `HI` and `LO`, the floating-point unit, `LLAddr` or the program counter leaves the
control part alone by definition (`rfl`); those that branch are said here once. -/

@[simp] theorem controlPart_advance (s : State) : controlPart (advance s) = controlPart s :=
  controlPart_of_eq (by simp) (by simp) (by simp) (by simp)
@[simp] theorem controlPart_writeGpr (s : State) (r : RegNum) (v : Dword) :
    controlPart (writeGpr s r v) = controlPart s :=
  controlPart_of_eq (by simp) (by simp) (by simp) (by simp)
@[simp] theorem controlPart_link (s : State) (r : RegNum) : controlPart (link r s) = controlPart s :=
  controlPart_writeGpr s r _
@[simp] theorem controlPart_writeFcc (s : State) (cc : BitVec 3) (b : Bool) :
    controlPart (writeFcc cc b s) = controlPart s := rfl
@[simp] theorem controlPart_writeFprWord (s : State) (f : RegNum) (v : Word) :
    controlPart (writeFprWord f v s) = controlPart s :=
  controlPart_of_eq (by simp) (by simp) (by simp) (by simp)
@[simp] theorem controlPart_writeFprDword (s : State) (f : RegNum) (v : Dword) :
    controlPart (writeFprDword f v s) = controlPart s :=
  controlPart_of_eq (by simp) (by simp) (by simp) (by simp)
@[simp] theorem controlPart_writeFpr (s : State) (isWide : Bool) (f : RegNum) (v : Dword) :
    controlPart (writeFpr isWide f v s) = controlPart s :=
  controlPart_of_eq (by simp) (by simp) (by simp) (by simp)
@[simp] theorem controlPart_sampled (s : State) : controlPart (sampled s) = controlPart s := rfl

/-- The counters of a step write no control state. -/
@[simp] theorem controlPart_tick (before : State) (executed random : Bool) (s : State) :
    controlPart (tick before executed random s) = controlPart s := by
  obtain ⟨u, htick, hu⟩ := tick_eq_stepPerf before executed random s
  obtain ⟨hcp0, hrest⟩ := stepPerf_frame before executed u
  rw [htick, controlPart, hcp0, hrest, hu]
  rfl

/-! ## Answers that leave the control part alone -/

/-- The handler of an exception taken with `EXL` = 0 lies at one of the offsets of the vectors (60_exceptions.md rules
R777, R855). -/
def Vectored (s : State) (e : Exc) : Prop := ∃ k : Nat, HandlerOffset s k ∧ excOffset e = BitVec.ofNat 64 k

theorem vectored_ordinary (s : State) {e : Exc} (h : isInterrupt e = false) : Vectored s e := by
  cases e with
  | int offset => cases h
  | tlbRefill store xtlb va =>
    cases xtlb with
    | false => exact ⟨0, .inl rfl, rfl⟩
    | true => exact ⟨0x80, .inr (.inl rfl), rfl⟩
  | _ => exact ⟨0x180, .inr (.inr (.inl rfl)), rfl⟩

/-- The entry of an exception, at a vector, from a state with the control part of `s`. -/
def EntersHandler (s t : State) : Prop :=
  ∃ e u, controlPart u = controlPart s ∧ Vectored s e ∧ t = takeException e u

/-- A next state, if the answer is one, has the control part of `s` or enters a handler. -/
def OutConfined (s : State) : Out → Prop
  | .next t => controlPart t = controlPart s ∨ EntersHandler s t
  | .fault _ => True
  | .refused _ => True

theorem stopConfined_answer {s : State} {e : Stop} (hside : StopSide s e) (hord : StopOrdinary e) :
    OutConfined s e.answer := by
  cases e with
  | exc e t => exact .inr ⟨e, t, controlPart_memSide hside, vectored_ordinary s hord, rfl⟩
  | cacheError t => exact hord.elim
  | fault _ => trivial
  | refused _ => trivial

/-- Continuing after an operation of the memory system. -/
theorem onOk_confined {α : Type} {s : State} {st : α → State} {x : Except Stop α} {k : α → Out} (hside : OpSide s st x)
    (hord : OpOrdinary x) (hk : ∀ a, controlPart (st a) = controlPart s → OutConfined s (k a)) :
    OutConfined s (onOk x k) := by
  cases x with
  | ok a => exact hk a (controlPart_memSide hside)
  | error e => exact stopConfined_answer hside hord

section Answers

variable {s t : State}

theorem raise_confined {e : Exc} (ht : controlPart t = controlPart s) (he : isInterrupt e = false) :
    OutConfined s (raise e t) :=
  .inr ⟨e, t, ht, vectored_ordinary s he, rfl⟩

theorem complete_confined (ht : controlPart t = controlPart s) : OutConfined s (complete t) :=
  .inl ((controlPart_advance t).trans ht)

theorem writeResult_confined {r : RegNum} {v : Dword} (ht : controlPart t = controlPart s) :
    OutConfined s (writeResult r v t) :=
  complete_confined ((controlPart_writeGpr t r v).trans ht)

theorem outConfined_ite {c : Prop} [Decidable c] {x y : Out} (hx : OutConfined s x) (hy : OutConfined s y) :
    OutConfined s (if c then x else y) := by
  split
  · exact hx
  · exact hy

theorem requireIs64_confined {k : Out} (hk : OutConfined s k) : OutConfined s (requireIs64 s k) :=
  outConfined_ite hk (raise_confined rfl rfl)

theorem requireMips4_confined {k : Out} (hk : OutConfined s k) : OutConfined s (requireMips4 s k) :=
  outConfined_ite hk (raise_confined rfl rfl)

theorem requireCu1_confined {k : Out} (hk : OutConfined s k) : OutConfined s (requireCu1 s k) :=
  outConfined_ite hk (raise_confined rfl rfl)

theorem requireEven_confined {regs : List RegNum} {k : Out} (hk : OutConfined s k) :
    OutConfined s (requireEven regs s k) :=
  outConfined_ite trivial hk

/-! ### Integer computation -/

theorem wordResult_confined {ok : Bool} {r : RegNum} {v : Word} : OutConfined s (wordResult ok r v s) :=
  outConfined_ite (writeResult_confined rfl) (writeResult_confined rfl)

theorem trappingWord_confined {ok overflow : Bool} {r : RegNum} {v : Word} :
    OutConfined s (trappingWord ok overflow r v s) := by
  refine outConfined_ite (outConfined_ite (raise_confined rfl rfl) (writeResult_confined rfl)) ?_
  split
  · exact raise_confined rfl rfl
  · exact writeResult_confined rfl

theorem trappingDword_confined {overflow : Bool} {r : RegNum} {v : Dword} :
    OutConfined s (trappingDword overflow r v s) :=
  requireIs64_confined (outConfined_ite (raise_confined rfl rfl) (writeResult_confined rfl))

theorem moveIf_confined {c : Bool} {rs rd : RegNum} : OutConfined s (moveIf c rs rd s) :=
  outConfined_ite (writeResult_confined rfl) (complete_confined rfl)

theorem trapIf_confined {c : Bool} : OutConfined s (trapIf c s) :=
  outConfined_ite (raise_confined rfl rfl) (complete_confined rfl)

theorem absentCop2_confined : OutConfined s (absentCop2 s) :=
  outConfined_ite (raise_confined rfl rfl) (raise_confined rfl rfl)

/-- The products and quotients of words: `HI` and `LO`, or free values in them. -/
theorem hiLoOrFree_confined {c : Prop} [Decidable c] {hi lo : Dword} :
    OutConfined s (if c then complete (writeHiLo hi lo s) else hiLoFree s) :=
  outConfined_ite (complete_confined rfl) (complete_confined rfl)

/-- The quotients of doublewords: free values in `HI` and `LO` where there is none. -/
theorem freeOrHiLo_confined {c : Prop} [Decidable c] {hi lo : Dword} :
    OutConfined s (if c then hiLoFree s else complete (writeHiLo hi lo s)) :=
  outConfined_ite (complete_confined rfl) (complete_confined rfl)

/-! ### Jumps and branches -/

theorem jumpTo_confined {target : Dword} (ht : controlPart t = controlPart s) : OutConfined s (jumpTo target t) :=
  outConfined_ite trivial (.inl ht)

theorem branchLikely_confined {taken : Bool} {target : Dword} (ht : controlPart t = controlPart s) :
    OutConfined s (branchLikely taken target t) :=
  outConfined_ite (jumpTo_confined ht) (outConfined_ite trivial (.inl ht))

/-! ### Loads, stores, prefetch -/

theorem loadInto_confined {r : RegNum} {x : Except Stop (Dword × State)} {extend : Dword → Dword}
    (hside : OpSide s (·.2) x) (hord : OpOrdinary x) : OutConfined s (loadInto r x extend) :=
  onOk_confined hside hord fun _ ht => writeResult_confined ht

theorem storeDone_confined {x : Except Stop State} (hside : OpSide s id x) (hord : OpOrdinary x) :
    OutConfined s (storeDone x) :=
  onOk_confined hside hord fun _ ht => complete_confined ht

theorem loadLinked_confined {n : Nat} {r : RegNum} {va : Dword} {extend : Dword → Dword} :
    OutConfined s (loadLinked n r va extend s) :=
  onOk_confined (translateAligned_side .load n va s) (translateAligned_ordinary .load n va s) fun _ _ =>
    onOk_confined (loadAt_side n _ _ s) (loadAt_ordinary n _ _ s) fun _ ht => writeResult_confined ht

theorem storeConditional_confined {n : Nat} {r : RegNum} {va : Dword} : OutConfined s (storeConditional n r va s) :=
  onOk_confined (translateAligned_side .store n va s) (translateAligned_ordinary .store n va s) fun _ _ =>
    onOk_confined (watchData_side .store _ n s) (watchData_ordinary .store _ n s) fun _ _ =>
      outConfined_ite
        (onOk_confined (memWrite_side _ n _ _ s) (memWrite_ordinary _ n _ _ s) fun _ ht => writeResult_confined ht)
        (writeResult_confined rfl)

theorem prefetch_confined {hint : BitVec 5} {baseValue va : Dword} : OutConfined s (prefetch hint baseValue va s) := by
  refine outConfined_ite trivial ?_
  split
  · trivial
  · exact complete_confined rfl
  · refine outConfined_ite (complete_confined rfl) (outConfined_ite ?_ ?_)
    · exact onOk_confined (prepareForStore_side _ _ s) (prepareForStore_ordinary _ _ s) fun _ ht => complete_confined ht
    · exact onOk_confined (prefetchLine_side _ _ s) (prefetchLine_ordinary _ _ s) fun _ ht => complete_confined ht

/-! ### Floating point -/

theorem raiseUnimplemented_confined : OutConfined s (raiseUnimplemented s) := raise_confined rfl rfl

theorem requireFpMips4_confined {needed : Bool} {k : Out} (hk : OutConfined s k) :
    OutConfined s (requireFpMips4 needed s k) :=
  outConfined_ite raiseUnimplemented_confined hk

theorem fpGuard_confined {mips4 : Bool} {regs : List RegNum} {k : Out} (hk : OutConfined s k) :
    OutConfined s (fpGuard mips4 regs s k) :=
  requireCu1_confined (requireFpMips4_confined (requireEven_confined hk))

theorem fpGuardLong_confined {regs : List RegNum} {k : Out} (hk : OutConfined s k) :
    OutConfined s (fpGuardLong regs s k) :=
  requireIs64_confined (fpGuard_confined hk)

theorem fpGuardCop1x_confined {regs : List RegNum} {k : Out} (hk : OutConfined s k) :
    OutConfined s (fpGuardCop1x regs s k) :=
  requireMips4_confined (requireCu1_confined (requireEven_confined hk))

theorem fpFinish_confined {unimpl : Bool} {flags : FpFlags} {store : State → State}
    (ht : controlPart t = controlPart s) (hstore : ∀ u, controlPart (store u) = controlPart u) :
    OutConfined s (fpFinish unimpl flags store t) := by
  unfold fpFinish
  dsimp only
  split
  · exact raise_confined ht rfl
  · exact complete_confined ((hstore _).trans ht)

theorem fpResult_confined {isWide : Bool} {fd : RegNum} {r : FpResult} : OutConfined s (fpResult isWide fd r s) :=
  fpFinish_confined rfl fun u => controlPart_writeFpr u _ _ _

theorem fpBinary_confined {fmt : FpFmt} {op : Fcr31 → FpFmt → Dword → Dword → Dword → FpResult} {ft fs fd : RegNum} :
    OutConfined s (fpBinary fmt op ft fs fd s) :=
  fpGuard_confined fpResult_confined

theorem fpUnary_confined {mips4 : Bool} {fmt : FpFmt} {op : Fcr31 → FpFmt → Dword → Dword → FpResult} {fs fd : RegNum} :
    OutConfined s (fpUnary mips4 fmt op fs fd s) :=
  fpGuard_confined fpResult_confined

theorem fpMultiplyAdd_confined {fmt : FpFmt} {sub negate : Bool} {fr ft fs fd : RegNum} :
    OutConfined s (fpMultiplyAdd fmt sub negate fr ft fs fd s) :=
  fpGuardCop1x_confined fpResult_confined

theorem fpCompareInto_confined {fmt : FpFmt} {cond : BitVec 4} {ft fs : RegNum} {cc : BitVec 3} :
    OutConfined s (fpCompareInto fmt cond ft fs cc s) :=
  fpGuard_confined (fpFinish_confined rfl fun u => controlPart_writeFcc u _ _)

theorem fpBranch_confined {likely tf : Bool} {cc : BitVec 3} {offset : BitVec 16} :
    OutConfined s (fpBranch likely tf cc offset s) :=
  requireCu1_confined (requireFpMips4_confined (outConfined_ite (branchLikely_confined rfl) (jumpTo_confined rfl)))

theorem controlPart_fpCopy {fmt : FpFmt} {fs fd : RegNum} : controlPart (fpCopy fmt fs fd s) = controlPart s :=
  controlPart_writeFpr s _ _ _

theorem fpMoveIf_confined {fmt : FpFmt} {c : Bool} {fs fd : RegNum} : OutConfined s (fpMoveIf fmt c fs fd s) := by
  refine fpGuard_confined (complete_confined ?_)
  split
  · exact controlPart_fpCopy
  · rfl

theorem fpLoad_confined {isWide : Bool} {f : RegNum} {x : Except Stop (Dword × State)} (hside : OpSide s (·.2) x)
    (hord : OpOrdinary x) : OutConfined s (fpLoad isWide f x) :=
  onOk_confined hside hord fun vs ht => complete_confined ((controlPart_writeFpr vs.2 _ _ _).trans ht)

theorem sameRegion_confined {kind : AccessKind} {baseValue va : Dword} {k : Out} (hk : OutConfined s k) :
    OutConfined s (sameRegion kind baseValue va s k) :=
  outConfined_ite (raise_confined rfl rfl) hk

theorem execCfc1_confined {rt fs : RegNum} : OutConfined s (execCfc1 rt fs s) :=
  fpGuard_confined (outConfined_ite (writeResult_confined rfl)
    (outConfined_ite (writeResult_confined rfl) (writeResult_confined rfl)))

theorem execCtc1_confined {rt fs : RegNum} : OutConfined s (execCtc1 rt fs s) :=
  fpGuard_confined (outConfined_ite (outConfined_ite (raise_confined rfl rfl) (complete_confined rfl))
    (complete_confined rfl))

end Answers

/-! ## Every instruction, where CP0 is not usable -/

section Unusable

variable {s : State} (h0 : cp0Usable s = false)
include h0

theorem requireCp0_confined {k : Out} : OutConfined s (requireCp0 s k) := by
  rw [requireCp0_unusable h0]
  exact raise_confined rfl rfl

theorem requireCache_confined (hco : s.cp0.status.co = false) {userForm : Bool} {k : Out} :
    OutConfined s (requireCache userForm s k) := by
  have hperm : (cp0Usable s || (userForm && s.status.co)) = false := by simp [h0, State.status, hco]
  rw [requireCache, hperm]
  exact raise_confined rfl rfl

/-- No instruction writes the control part: the arms of `exec`, by the shared operation each one ends in. Those of CP0 and
`CACHE` raise Coprocessor Unusable (60_exceptions.md rule R841). -/
theorem exec_confined (hco : s.cp0.status.co = false) (i : Instr) : OutConfined s (exec i s) := by
  cases i with
  -- integer computation
  | add | sub | addi => exact trappingWord_confined
  | addu | subu | addiu | sll | srl | sra | sllv | srlv | srav => exact wordResult_confined
  | dadd | dsub | daddi => exact trappingDword_confined
  | daddu | dsubu | daddiu | dsll | dsrl | dsra | dsll32 | dsrl32 | dsra32 | dsllv | dsrlv | dsrav =>
    exact requireIs64_confined (writeResult_confined rfl)
  | slt | sltu | slti | sltiu | and | or | xor | nor | andi | ori | xori | lui | mfhi | mflo | mul =>
    exact writeResult_confined rfl
  | mult | multu | div | divu => exact hiLoOrFree_confined
  | dmult | dmultu => exact requireIs64_confined (complete_confined rfl)
  | ddiv | ddivu => exact requireIs64_confined freeOrHiLo_confined
  | mthi | mtlo | mad | madu | sync => exact complete_confined rfl
  | movn | movz => exact requireMips4_confined moveIf_confined
  | movf | movt => exact requireMips4_confined (requireCu1_confined moveIf_confined)
  -- jumps and branches
  | j | jr | beq | bne | blez | bgtz | bltz | bgez => exact jumpTo_confined rfl
  | jal | jalr | bltzal | bgezal => exact jumpTo_confined (controlPart_link s _)
  | beql | bnel | blezl | bgtzl | bltzl | bgezl => exact branchLikely_confined rfl
  | bltzall | bgezall => exact branchLikely_confined (controlPart_link s 31)
  -- traps, absent coprocessor
  | syscall | brk => exact raise_confined rfl rfl
  | tge | tgeu | tlt | tltu | teq | tne | tgei | tgeiu | tlti | tltiu | teqi | tnei => exact trapIf_confined
  | lwc2 | ldc2 | swc2 | sdc2 | cop2 => exact absentCop2_confined
  -- loads, stores, prefetch
  | lb | lbu | lh | lhu | lw => exact loadInto_confined (loadData_side _ _ s) (loadData_ordinary _ _ s)
  | lwu | ld => exact requireIs64_confined (loadInto_confined (loadData_side _ _ s) (loadData_ordinary _ _ s))
  | lwl base rt offset =>
    exact (loadInto_confined (loadLeft_side 4 _ s) (loadLeft_ordinary 4 _ s) : OutConfined s (execLwl base rt offset s))
  | lwr base rt offset =>
    exact (loadInto_confined (loadRight_side 4 _ s) (loadRight_ordinary 4 _ s) : OutConfined s (execLwr base rt offset s))
  | ldl => exact requireIs64_confined (loadInto_confined (loadLeft_side _ _ s) (loadLeft_ordinary _ _ s))
  | ldr => exact requireIs64_confined (loadInto_confined (loadRight_side _ _ s) (loadRight_ordinary _ _ s))
  | sb | sh | sw => exact storeDone_confined (storeData_side _ _ _ s) (storeData_ordinary _ _ _ s)
  | sd => exact requireIs64_confined (storeDone_confined (storeData_side _ _ _ s) (storeData_ordinary _ _ _ s))
  | swl => exact storeDone_confined (storeLeft_side _ _ _ s) (storeLeft_ordinary _ _ _ s)
  | swr => exact storeDone_confined (storeRight_side _ _ _ s) (storeRight_ordinary _ _ _ s)
  | sdl => exact requireIs64_confined (storeDone_confined (storeLeft_side _ _ _ s) (storeLeft_ordinary _ _ _ s))
  | sdr => exact requireIs64_confined (storeDone_confined (storeRight_side _ _ _ s) (storeRight_ordinary _ _ _ s))
  | ll => exact loadLinked_confined
  | lld => exact requireIs64_confined loadLinked_confined
  | sc => exact storeConditional_confined
  | scd => exact requireIs64_confined storeConditional_confined
  | pref => exact requireMips4_confined prefetch_confined
  | prefx => exact requireMips4_confined (requireCu1_confined prefetch_confined)
  -- `CACHE`
  | cacheIndexInvalidateI | cacheIndexWritebackInvalidateD | cacheFlashInvalidateT | cacheIndexWritebackInvalidateS
  | cacheIndexLoadTagI | cacheIndexLoadTagD | cacheIndexLoadTagT | cacheIndexLoadTagS | cacheIndexStoreTagI
  | cacheIndexStoreTagD | cacheIndexStoreTagT | cacheIndexStoreTagS | cacheCreateDirtyExclusiveD | cacheHitInvalidateI
  | cacheHitInvalidateD | cacheHitInvalidateS | cacheFillI | cacheHitWritebackInvalidateD | cachePageInvalidateT
  | cacheHitWritebackInvalidateS | cacheHitWritebackI | cacheHitWritebackD | cacheHitWritebackS
  | cacheOp0C | cacheOp0E | cacheOp0F | cacheOp12 | cacheOp1A | cacheOp1C | cacheOp1D | cacheOp1E | cacheOp1F =>
    exact requireCache_confined h0 hco
  -- coprocessor 0
  | mfc0 | cfc0 | mtc0 | ctc0 | tlbr | tlbwi | tlbwr | tlbp | eret | wait => exact requireCp0_confined h0
  | dmfc0 | dmtc0 => exact requireIs64_confined (requireCp0_confined h0)
  -- floating point
  | mfc1 => exact fpGuard_confined (writeResult_confined rfl)
  | mtc1 => exact fpGuard_confined (complete_confined (controlPart_writeFprWord s _ _))
  | dmfc1 => exact fpGuardLong_confined (writeResult_confined rfl)
  | dmtc1 => exact fpGuardLong_confined (complete_confined (controlPart_writeFprDword s _ _))
  | cfc1 => exact execCfc1_confined
  | ctc1 => exact execCtc1_confined
  | bc1f | bc1t | bc1fl | bc1tl => exact fpBranch_confined
  | lwc1 | ldc1 => exact fpGuard_confined (fpLoad_confined (loadData_side _ _ s) (loadData_ordinary _ _ s))
  | swc1 | sdc1 => exact fpGuard_confined (storeDone_confined (storeData_side _ _ _ s) (storeData_ordinary _ _ _ s))
  | lwxc1 | ldxc1 =>
    exact fpGuardCop1x_confined (sameRegion_confined (fpLoad_confined (loadData_side _ _ s) (loadData_ordinary _ _ s)))
  | swxc1 | sdxc1 =>
    exact fpGuardCop1x_confined
      (sameRegion_confined (storeDone_confined (storeData_side _ _ _ s) (storeData_ordinary _ _ _ s)))
  | addS ft fs fd => exact (fpBinary_confined : OutConfined s (execAddS ft fs fd s))
  | addD ft fs fd => exact (fpBinary_confined : OutConfined s (execAddD ft fs fd s))
  | subS ft fs fd => exact (fpBinary_confined : OutConfined s (execSubS ft fs fd s))
  | subD ft fs fd => exact (fpBinary_confined : OutConfined s (execSubD ft fs fd s))
  | mulS | mulD | divS | divD => exact fpBinary_confined
  | absS fs fd => exact (fpUnary_confined : OutConfined s (execAbsS fs fd s))
  | absD fs fd => exact (fpUnary_confined : OutConfined s (execAbsD fs fd s))
  | negS fs fd => exact (fpUnary_confined : OutConfined s (execNegS fs fd s))
  | negD fs fd => exact (fpUnary_confined : OutConfined s (execNegD fs fd s))
  | sqrtS | sqrtD | recipS | recipD | rsqrtS | rsqrtD => exact fpUnary_confined
  | maddS | maddD | msubS | msubD | nmaddS | nmaddD | nmsubS | nmsubD => exact fpMultiplyAdd_confined
  | roundWS | roundWD | truncWS | truncWD | ceilWS | ceilWD | floorWS | floorWD | cvtWS | cvtWD | cvtSD | cvtSW | cvtDS
  | cvtDW => exact fpGuard_confined fpResult_confined
  | roundLS | roundLD | truncLS | truncLD | ceilLS | ceilLD | floorLS | floorLD | cvtLS | cvtLD | cvtSL | cvtDL =>
    exact fpGuardLong_confined fpResult_confined
  | movS | movD => exact fpGuard_confined (complete_confined controlPart_fpCopy)
  | movfS | movtS | movzS | movnS | movfD | movtD | movzD | movnD => exact fpMoveIf_confined
  | cFS | cUnS | cEqS | cUeqS | cOltS | cUltS | cOleS | cUleS | cSfS | cNgleS | cSeqS | cNglS | cLtS | cNgeS | cLeS
  | cNgtS | cFD | cUnD | cEqD | cUeqD | cOltD | cUltD | cOleD | cUleD | cSfD | cNgleD | cSeqD | cNglD | cLtD | cNgeD
  | cLeD | cNgtD => exact fpCompareInto_confined

theorem reservedEncoding_confined (r : Reserved) : OutConfined s (reservedEncoding r s) := by
  cases r with
  | cop0 => exact requireCp0_confined h0
  | cop1 fmt funct =>
    exact outConfined_ite (requireIs64_confined (requireCu1_confined raiseUnimplemented_confined))
      (requireCu1_confined raiseUnimplemented_confined)
  | cop1x => exact requireMips4_confined (requireCu1_confined raiseUnimplemented_confined)
  | majorOpcode | special | regimm | rm7000 | truncated => exact raise_confined rfl rfl

end Unusable

/-! ## The phases of a step before an instruction (60_exceptions.md rule R772) -/

/-- A step without an event of the board, outside Standby, where no NMI comes: it goes on from the imprecise errors. -/
theorem step_eq_errorOrRun {s : State} (hevents : s.events = []) (hnmi : nmiNow s = false ∨ s.nmiLevel = true)
    (hstandby : s.standby = false) : step s = errorOrRun s none (sampled s) := by
  have hedge : (nmiNow s && !s.nmiLevel) = false := by rcases hnmi with h | h <;> simp [h]
  calc step s = afterEvent s .quiet s := by rw [step, stepOnce, hevents]; rfl
    _ = errorOrRun s none (sampled s) := by
      rw [afterEvent, hedge]
      exact (if_neg Bool.false_ne_true).trans (if_neg (by rw [hstandby]; decide))

/-- With no error to report either, it goes on from the interrupt. -/
theorem step_eq_interruptOrRun {s : State} (hevents : s.events = []) (hnmi : nmiNow s = false ∨ s.nmiLevel = true)
    (hstandby : s.standby = false) (herrors : s.pendingErrors = []) : step s = interruptOrRun s none (sampled s) := by
  have herrors' : (sampled s).pendingErrors = [] := herrors
  rw [step_eq_errorOrRun hevents hnmi hstandby, errorOrRun, herrors']

theorem interruptOrRun_requested {before s : State} {parity : Option ParityBits} (h : intRequest s = true) :
    interruptOrRun before parity s = tickOut before false true (takeInterrupt s) :=
  if_pos h

/-! ## The smallest priority level (60_exceptions.md rule R855) -/

theorem foldr_min_le {α : Type} (f : α → Nat) (l : List α) (b : Nat) : l.foldr (fun n m => min (f n) m) b ≤ b := by
  induction l with
  | nil => exact Nat.le_refl b
  | cons a l ih => exact (Nat.min_le_right _ _).trans ih

theorem foldr_min_le_of_mem {α : Type} (f : α → Nat) (b : Nat) {l : List α} {a : α} (h : a ∈ l) :
    l.foldr (fun n m => min (f n) m) b ≤ f a := by
  induction l with
  | nil => cases h
  | cons c l ih =>
    rcases List.mem_cons.1 h with rfl | h
    · exact Nat.min_le_left _ _
    · exact (Nat.min_le_right _ _).trans (ih h)

theorem foldr_min_reached {α : Type} (f : α → Nat) (b : Nat) (l : List α) :
    l.foldr (fun n m => min (f n) m) b = b ∨ ∃ a ∈ l, f a = l.foldr (fun n m => min (f n) m) b := by
  induction l with
  | nil => exact .inl rfl
  | cons c l ih =>
    rw [List.foldr_cons]
    rcases Nat.le_total (f c) (l.foldr (fun n m => min (f n) m) b) with h | h
    · exact .inr ⟨c, List.mem_cons_self, (Nat.min_eq_left h).symm⟩
    · rw [Nat.min_eq_right h]
      exact ih.imp_right fun ⟨a, ha, heq⟩ => ⟨a, List.mem_cons_of_mem c ha, heq⟩

theorem intLevelOf_le (s : State) (n : Nat) : intLevelOf s n ≤ 15 := by
  unfold intLevelOf
  split <;> exact Nat.le_of_lt_succ (BitVec.isLt _)

theorem winningLevel_le (s : State) : winningLevel s ≤ 15 := foldr_min_le (intLevelOf s) (pendingSources s) 15

/-! ## A step in User mode -/

theorem vectored_congr {s t : State} (h : t.cp0.intControl = s.cp0.intControl) {e : Exc} (he : Vectored t e) :
    Vectored s e := by
  simpa only [Vectored, HandlerOffset, h] using he

theorem outConfined_congr {s t : State} {o : Out} (ht : controlPart t = controlPart s) (h : OutConfined t o) :
    OutConfined s o := by
  cases o with
  | next u =>
    refine h.imp (·.trans ht) ?_
    rintro ⟨e, v, hv, hvec, rfl⟩
    exact ⟨e, v, hv.trans ht, vectored_congr (controlPart_intControl ht) hvec, rfl⟩
  | fault _ => trivial
  | refused _ => trivial

/-- Without a parity error of the board, a fetch changes the memory system only. -/
theorem fetch_side (s : State) : OpSide s (fun a => a.2.2) (fetch none s) := by
  have htrans := translateAligned_side .fetch 4 s.pc s
  unfold fetch
  split
  · next e h => rw [h] at htrans; exact htrans
  · next pa attr _ =>
    have hread := fetchRead_side pa attr s
    split
    · next h => cases h
    · split
      · next e h => rw [h] at hread; exact hread
      · next raw t h =>
        rw [h] at hread
        split
        · next e h' =>
          unfold watchFetch at h'
          dsimp only at h'
          split at h'
          · cases h'
            exact hread
          · cases h'
        · exact hread

/-- The answer of a step: that of an interrupt, a fetch or an instruction, with the counters behind it. -/
def StepConfined (before s : State) (o : Out) : Prop :=
  ∃ executed random u, o = tickOut before executed random u ∧ OutConfined s u

section Unprivileged

variable {s : State} (h0 : cp0Usable s = false) (hco : s.cp0.status.co = false)
include h0 hco

theorem runInstr_confined (i : Instr) (attr : BitVec 3) : OutConfined s (runInstr i attr s) := by
  refine outConfined_ite ?_ (exec_confined h0 hco i)
  split
  · trivial
  · exact outConfined_congr rfl (exec_confined (s := { s with hazards := nextHazards i s }) h0 hco i)

theorem runWord_confined (before : State) (w : Word) (attr : BitVec 3) :
    StepConfined before s (runWord before w attr s) := by
  unfold runWord
  split
  · exact ⟨_, _, _, rfl, runInstr_confined h0 hco _ attr⟩
  · exact ⟨_, _, _, rfl, outConfined_ite trivial (reservedEncoding_confined h0 _)⟩

theorem fetchAndRun_confined (before : State) : StepConfined before s (fetchAndRun before none s) := by
  have hside := fetch_side s
  unfold fetchAndRun
  split
  · exact ⟨true, true, .fault _, rfl, trivial⟩
  · split
    · exact ⟨true, true, .fault _, rfl, trivial⟩
    · split
      · next e h =>
        rw [h] at hside
        exact ⟨_, _, _, rfl, stopConfined_answer hside ((fetch_ordinary s).error h)⟩
      · next w attr t h =>
        rw [h] at hside
        have ht : controlPart t = controlPart s := controlPart_memSide hside
        have hstatus := controlPart_status ht
        obtain ⟨executed, random, u, hu, hconf⟩ := runWord_confined ((cp0Usable_congr hstatus).trans h0)
          ((congrArg Status.co hstatus).trans hco) before w attr
        exact ⟨executed, random, u, hu, outConfined_congr ht hconf⟩

omit h0 hco in
theorem takeInterrupt_confined : OutConfined s (takeInterrupt s) := by
  unfold takeInterrupt
  refine outConfined_ite ?_ (.inr ⟨_, s, rfl, ⟨0x180, .inr (.inr (.inl rfl)), rfl⟩, rfl⟩)
  split
  · next sp h =>
    exact .inr ⟨_, s, rfl, ⟨_, .inr (.inr (.inr ⟨_, sp, winningLevel_le s, h, rfl⟩)), rfl⟩, rfl⟩
  · trivial

theorem interruptOrRun_confined (before : State) : StepConfined before s (interruptOrRun before none s) := by
  unfold interruptOrRun
  split
  · exact ⟨_, _, _, rfl, takeInterrupt_confined⟩
  · exact fetchAndRun_confined h0 hco before

end Unprivileged

/-! ### What a confined answer leaves -/

/-- The registers that a failing address is loaded into keep the fields that software alone writes
(60_exceptions.md rule R803). -/
theorem takeException_softwareFields (e : Exc) (s : State) :
    (takeException e s).cp0.entryHi.asid = s.cp0.entryHi.asid ∧
      (takeException e s).cp0.context.pteBase = s.cp0.context.pteBase ∧
      (takeException e s).cp0.xcontext.pteBase = s.cp0.xcontext.pteBase := by
  cases e <;> exact ⟨rfl, rfl, rfl⟩

theorem keepsPrivileged_of_controlPart {s t : State} (h : controlPart t = controlPart s) : KeepsPrivileged s t := by
  simp only [controlPart, Prod.mk.injEq, Cp0.mk.injEq] at h
  simp only [KeepsPrivileged, h, and_self]

theorem keepsPrivileged_trans {s t u : State} (h : KeepsPrivileged s t) (k : KeepsPrivileged t u) :
    KeepsPrivileged s u := by
  unfold KeepsPrivileged at *
  simp_all only [and_self]

theorem keepsPrivileged_takeException (e : Exc) (s : State) : KeepsPrivileged s (takeException e s) := by
  obtain ⟨hasid, hpte, hxpte⟩ := takeException_softwareFields e s
  have hgeneral := takesGeneral_takeException e s
  simp only [KeepsPrivileged, hgeneral.others, hgeneral.software, hasid, hpte, hxpte, takeException_tlb,
    takeException_params, takeException_standby, and_self]

/-- The ways out of User mode: none, or the entry of an exception, at a vector. -/
def LeavesByException (s t : State) : Prop :=
  (t.cp0.status = s.cp0.status ∧ t.cp0.entryLo0 = s.cp0.entryLo0 ∧ t.cp0.entryLo1 = s.cp0.entryLo1) ∨
    (t.cp0.status = { s.cp0.status with exl := true } ∧
      ∃ k : Nat, HandlerOffset s k ∧ t.pc = vectorBase s + BitVec.ofNat 64 k)

theorem leavesByException_of_controlPart {s t : State} (h : controlPart t = controlPart s) : LeavesByException s t :=
  .inl ⟨controlPart_status h, congrArg (fun c => c.1.entryLo0) h, congrArg (fun c => c.1.entryLo1) h⟩

theorem leavesByException_of_entersHandler {s t u : State} (hexl : s.cp0.status.exl = false) (h : EntersHandler s t)
    (hu : controlPart u = controlPart t) (hpc : u.pc = t.pc) : LeavesByException s u := by
  obtain ⟨e, v, hv, ⟨k, hk, hoffset⟩, rfl⟩ := h
  have hstatus := controlPart_status hv
  have hgeneral := takesGeneral_takeException e v
  refine .inr ⟨?_, k, hk, ?_⟩
  · rw [controlPart_status hu, hgeneral.status, hstatus]
  · rw [hpc, takeException_pc, hstatus, hexl, hoffset, vectorBase, State.status, hstatus]
    rfl

/-- Settles O13: in User mode without `CU0` and `CO` every answer of a step is confined (`interruptOrRun_confined`), and
an exception entry writes `EXL` alone of the control state. -/
theorem userModeCannotChangeControlState : Obligations.UserModeCannotChangeControlState := by
  intro s t hmode hcu0 hco hevents hnmi hstandby herrors hstep
  have h0 : cp0Usable (sampled s) = false := by
    have hmode' : mode (sampled s) = .user := hmode
    have hcu0' : (sampled s).status.cu0 = false := hcu0
    simp [cp0Usable, hmode', hcu0']
  obtain ⟨executed, random, o, ho, hconf⟩ := interruptOrRun_confined h0 hco s
  rw [step_eq_interruptOrRun hevents (.inl hnmi) hstandby herrors, ho] at hstep
  obtain ⟨u, rfl, rfl⟩ : ∃ u, o = .next u ∧ t = tick s executed random u := by
    cases o with
    | next u => exact ⟨u, rfl, (Host.Outcome.next.inj hstep).symm⟩
    | fault _ => cases hstep
    | refused _ => cases hstep
  have htick := controlPart_tick s executed random u
  obtain hkept | henters := outConfined_congr (controlPart_sampled s) hconf
  · have h := htick.trans hkept
    exact ⟨keepsPrivileged_of_controlPart h, leavesByException_of_controlPart h⟩
  · refine ⟨?_, leavesByException_of_entersHandler (mode_user_exl hmode) henters htick (tick_pc u s executed random)⟩
    obtain ⟨e, v, hv, -, rfl⟩ := henters
    exact keepsPrivileged_trans (keepsPrivileged_of_controlPart hv)
      (keepsPrivileged_trans (keepsPrivileged_takeException e v) (keepsPrivileged_of_controlPart htick))

end Sys2Proof.Proofs

/-! # Exceptions, resets and interrupts

Taking an exception is the general sequence (`takesGeneral_takeException`) and what the exception loads of its own. The
phases before an instruction are one equation of `step` each: `step_eq_errorOrRun`, `step_eq_interruptOrRun`,
`step_undisturbed`. What is left of each statement is what the phase answers. -/

namespace Sys2Proof.Proofs

open Sys2Proof.Machine Sys2Proof.Safety Sys2Proof.Laws

/-! ## What an exception writes (60_exceptions.md rules R775, R777, R790) -/

/-- A precise bus error clears `EC` and loads the index (rule R815); no other exception writes `CacheErr`. -/
theorem takeException_cacheErr (e : Exc) (s : State) :
    (∀ pa, e = .ibe pa ∨ e = .dbe pa →
      (takeException e s).cp0.cacheErr = { s.cp0.cacheErr with ec := false, idx := pa.extractLsb' 3 19 }) ∧
    ((∀ pa, e ≠ .ibe pa ∧ e ≠ .dbe pa) → (takeException e s).cp0.cacheErr = s.cp0.cacheErr) := by
  constructor
  · rintro pa (rfl | rfl) <;> rfl
  · intro h
    cases e with
    | ibe pa => exact absurd rfl (h pa).1
    | dbe pa => exact absurd rfl (h pa).2
    | _ => rfl

/-- Only a Watch exception writes `W1` and `W2` (rule R854). -/
theorem takeException_watch (e : Exc) (s : State) (h : ∀ w1 w2, e ≠ .iwe w1 w2 ∧ e ≠ .dwe w1 w2) :
    (takeException e s).cp0.cause.w1 = s.cp0.cause.w1 ∧ (takeException e s).cp0.cause.w2 = s.cp0.cause.w2 := by
  cases e with
  | iwe w1 w2 => exact absurd rfl (h w1 w2).1
  | dwe w1 w2 => exact absurd rfl (h w1 w2).2
  | _ => exact ⟨rfl, rfl⟩

/-- Settles O17: every exception follows the general sequence (`takesGeneral_takeException`), its code and vector read off
the tables; `CE`, `W1`, `W2` and `CacheErr` are what `loadCe` and `loadExc` write. -/
theorem exceptionsFollowTheGeneralSequence : Obligations.ExceptionsFollowTheGeneralSequence := by
  intro s
  have general (e : Exc) := takesGeneral_takeException e s
  refine ⟨?int, ?tlbMod, ?refill, ?xrefill, ?invalid, ?adE, ?ibe, ?dbe, ?imprecise, ?sys, ?bp, ?ri, ?cpU, ?ov, ?tr, ?fpe,
    ?iwe, ?dwe, ?frames⟩
  case int => exact fun off => general (.int off)
  case tlbMod => exact fun va => general (.tlbMod va)
  case refill => exact fun store va => general (.tlbRefill store false va)
  case xrefill => exact fun store va => general (.tlbRefill store true va)
  case invalid => exact fun store va => general (.tlbInvalid store va)
  case adE => exact fun store va => general (.adE store va)
  case ibe => exact fun pa => general (.ibe pa)
  case dbe => exact fun pa => general (.dbe pa)
  case imprecise => exact general .dbeImprecise
  case sys => exact general .sys
  case bp => exact general .bp
  case ri => exact general .ri
  case cpU => exact fun u => ⟨general (.cpU u), rfl⟩
  case ov => exact general .ov
  case tr => exact general .tr
  case fpe => exact general .fpe
  case iwe => exact fun w1 w2 => ⟨general (.iwe w1 w2), rfl, rfl⟩
  case dwe => exact fun w1 w2 => ⟨general (.dwe w1 w2), rfl, rfl⟩
  case frames =>
    intro e t
    obtain ⟨hbus, hother⟩ := takeException_cacheErr e s
    exact ⟨hbus, hother, takeException_watch e s⟩

/-- The exceptions that load or lose the registers of a failing address are the three of the TLB and Address Error
(rules R794, R803). -/
theorem loadExc_keepsFaultAddress (e : Exc) (s : State) (hmod : ∀ va, e ≠ .tlbMod va)
    (hrefill : ∀ st x va, e ≠ .tlbRefill st x va) (hinvalid : ∀ st va, e ≠ .tlbInvalid st va)
    (hadE : ∀ st va, e ≠ .adE st va) : KeepsFaultAddress s (loadExc e s) := by
  cases e with
  | tlbMod va => exact absurd rfl (hmod va)
  | tlbRefill st x va => exact absurd rfl (hrefill st x va)
  | tlbInvalid st va => exact absurd rfl (hinvalid st va)
  | adE st va => exact absurd rfl (hadE st va)
  | _ => exact ⟨rfl, rfl, rfl, rfl, rfl, rfl⟩

/-- Settles O18: the three TLB exceptions write what `loadTlbFault` loads, Address Error what `loadAddressError` does, and
the general sequence none of these registers. -/
theorem faultAddressRegisters : Obligations.FaultAddressRegisters := by
  intro s e t
  refine ⟨fun va h => ?_, fun st va h => ?_, fun hmod hrefill hinvalid hadE => ?_⟩
  · obtain rfl | ⟨st, x, rfl⟩ | ⟨st, rfl⟩ := h <;> exact ⟨rfl, rfl, rfl, rfl⟩
  · subst h
    exact ⟨rfl, takeException_softwareFields (.adE st va) s⟩
  · exact keepsFaultAddress_takeException (loadExc_keepsFaultAddress e s hmod hrefill hinvalid hadE)

/-! ## Soft Reset and NMI (60_exceptions.md rules R780, R781) -/

/-- The entry to the reset vector reads the program counter and CP0, and writes nothing else. -/
theorem entersResetVector_enterSoftReset (s : State) : EntersResetVector s (enterSoftReset s) := ⟨rfl, rfl, rfl, rfl⟩

theorem entersResetVector_memSide {s u : State} (h : MemSide s u) : EntersResetVector s (enterSoftReset u) := by
  refine ⟨rfl, rfl, rfl, ?_⟩
  simp only [enterSoftReset, restartPc, h.cp0, h.pc, h.inDelaySlot]

/-- Settles O10: losing the caches before a Soft Reset changes the memory system only, and the entry itself writes the
program counter and CP0. -/
theorem softResetAndNmiPreserveRegisters : Obligations.SoftResetAndNmiPreserveRegisters := by
  intro s
  refine ⟨fun es hevents => ?_, fun hevents hlevel hnmi => ?_⟩
  · have hlost := MemSide_loseCacheState { s with events := es }
    have henters := entersResetVector_memSide hlost
    refine ⟨softReset { s with events := es }, ?_, henters, readGpr_congr hlost.gpr, ⟨hlost.hi, hlost.lo⟩, hlost.fpu,
      hlost.tlb, hlost.llBit⟩
    rw [step, stepOnce, hevents]
    rfl
  · refine ⟨enterSoftReset (sampled s), ?_, entersResetVector_enterSoftReset s, fun _ => rfl, ⟨rfl, rfl⟩, rfl, rfl, rfl,
      rfl, fun _ => rfl, hnmi⟩
    have hedge : (nmiNow s && !s.nmiLevel) = true := by rw [hnmi, hlevel]; rfl
    calc step s = afterEvent s .quiet s := by rw [step, stepOnce, hevents]; rfl
      _ = _ := if_pos hedge

/-! ## A step that nothing disturbs (60_exceptions.md rule R772) -/

theorem runInstr_lenient {i : Instr} {attr : BitVec 3} {s : State} (h : s.params.strictHazards = false) :
    runInstr i attr s = exec i s := by
  rw [runInstr, h]
  rfl

theorem runInstr_strict {i : Instr} {attr : BitVec 3} {s : State} (h : s.params.strictHazards = true)
    (hh : hazardOf i s attr = none) : runInstr i attr s = exec i { s with hazards := nextHazards i s } := by
  rw [runInstr, if_pos h, hh]

theorem runInstr_hazard {i : Instr} {attr : BitVec 3} {s : State} {k : HazardKind} (h : s.params.strictHazards = true)
    (hh : hazardOf i s attr = some k) : runInstr i attr s = .fault (.hazard k) := by
  rw [runInstr, if_pos h, hh]

theorem runReserved_hazard {r : Reserved} {s : State} (h : s.params.strictHazards = true)
    (hh : reservedDependsOnWrite r s = true) : runReserved r s = .fault (.hazard .controlInSlot) := by
  rw [runReserved, h, hh]
  rfl

theorem runReserved_clear {r : Reserved} {s : State}
    (h : s.params.strictHazards = false ∨ reservedDependsOnWrite r s = false) :
    runReserved r s = reservedEncoding r s := by
  refine if_neg ?_
  rcases h with h | h <;> simp [h]

theorem mode_of_undisturbed {s : State} (h : Undisturbed s) : mode (sampled s) ≠ .reserved := by
  obtain ⟨-, -, -, -, -, hmode⟩ := h
  exact hmode

theorem step_earlyHazard {s : State} (h : Undisturbed s) {k : HazardKind} (hh : earlyHazard none (sampled s) = some k) :
    step s = .fault (.hazard k) := by
  rw [step_undisturbed s h, fetchAndRun, if_neg (mode_of_undisturbed h), hh]

theorem step_fetched {s : State} (h : Undisturbed s) (hh : earlyHazard none (sampled s) = none) {w : Word}
    {attr : BitVec 3} {t : State} (hf : fetch none (sampled s) = .ok (w, attr, t)) : step s = runWord s w attr t := by
  rw [step_undisturbed s h, fetchAndRun, if_neg (mode_of_undisturbed h), hh, hf]

theorem runWord_decoded {before s : State} {w : Word} {attr : BitVec 3} {i : Instr} (h : decode w = .ok i) :
    runWord before w attr s = tickOut before true (writtenCp0 i != some 6) (runInstr i attr s) := by
  rw [runWord, h]

theorem runWord_reserved {before s : State} {w : Word} {attr : BitVec 3} {r : Reserved} (h : decode w = .error r) :
    runWord before w attr s = tickOut before true true (runReserved r s) := by
  rw [runWord, h]

/-- Settles O4: the step is `fetchAndRun`, taken branch by branch. -/
theorem stepRunsTheDecodedInstruction : Obligations.StepRunsTheDecodedInstruction := by
  intro s h
  refine ⟨fun hlenient => ?_, fun k hk => step_earlyHazard h hk, fun hh => ⟨fun w attr s1 i hf hw => ?_,
    fun w attr s1 r hf hw => ?_, fun e he => step_fetchError h hh he⟩⟩
  · have hlenient' : (sampled s).params.strictHazards = false := hlenient
    rw [earlyHazard, hlenient']
    rfl
  · rw [step_fetched h hh hf, runWord_decoded hw]
    exact ⟨fun hs => by rw [runInstr_lenient hs], fun hs hn => by rw [runInstr_strict hs hn],
      fun hs k hk => by rw [runInstr_hazard hs hk]; rfl⟩
  · rw [step_fetched h hh hf, runWord_reserved hw]
    exact ⟨fun hc => by rw [runReserved_clear hc], fun hs hd => by rw [runReserved_hazard hs hd]; rfl⟩

/-! ## The Interrupt register (60_exceptions.md rule R853) -/

/-- A bit vector with one more bit above it. -/
theorem getLsbD_bv1_append {w : Nat} (b : Bool) (x : BitVec w) (i : Nat) :
    (bv1 b ++ x).getLsbD i = if i < w then x.getLsbD i else decide (i = w) && b := by
  rw [BitVec.getLsbD_append, bv1, BitVec.getLsbD_ofBool]
  split
  · rfl
  · have hiff : i - w = 0 ↔ i = w := by omega
    simp only [hiff]

/-- The enables stand in the upper half of the data and the values in the lower, ten bits and the NMI bit at the top of
each; what is not enabled keeps its value. -/
theorem getLsbD_writeIntReg (old : BitVec 11) (data : Word) :
    (∀ k, k < 10 → (writeIntReg old data).getLsbD k = if data.getLsbD (16 + k) then data.getLsbD k else old.getLsbD k) ∧
    (writeIntReg old data).getLsbD 10 = if data.getLsbD 31 then data.getLsbD 15 else old.getLsbD 10 := by
  constructor
  · intro k hk
    have hk11 : k < 11 := by omega
    simp only [writeIntReg, BitVec.getLsbD_or, BitVec.getLsbD_and, BitVec.getLsbD_not, getLsbD_bv1_append,
      BitVec.getLsbD_extractLsb', hk, hk11, if_true, decide_true, Bool.true_and, Nat.zero_add]
    cases data.getLsbD (16 + k) <;> simp
  · simp only [writeIntReg, BitVec.getLsbD_or, BitVec.getLsbD_and, BitVec.getLsbD_not, getLsbD_bv1_append,
      lt_irrefl, if_false, decide_true, Bool.true_and, Nat.reduceLT]
    cases data.getLsbD 31 <;> simp

/-- An external write changes the Interrupt register at most. -/
theorem applyEvent_externalWrite (addr : PAddr) (data : Word) (s : State) :
    { applyEvent (.externalWrite addr data) s with intReg := s.intReg } = s := by
  unfold applyEvent
  dsimp only
  split <;> rfl

/-! ## Sources, masks and the request (rules R850 to R855) -/

theorem intSource_pin (s : State) {k : Nat} (hk : k ≤ 9) (h5 : k ≠ 5) :
    intSource s (2 + k) = (s.intPin.getLsbD k || s.intReg.getLsbD k) := by
  obtain hlt | hgt := Nat.lt_or_gt_of_ne h5
  · interval_cases k <;> rfl
  · interval_cases k <;> rfl

theorem intSource_above (s : State) {n : Nat} (h : 14 ≤ n) : intSource s n = false := by
  unfold intSource
  split
  case h_6 => rw [decide_eq_false (by omega), Bool.false_and]
  all_goals omega

theorem intSource_software (s : State) : intSource s 0 = s.cp0.cause.ip0 ∧ intSource s 1 = s.cp0.cause.ip1 :=
  ⟨rfl, rfl⟩

/-- `Cause` shows the sources in its bits 21:8 (10_state.md rule R134). -/
theorem causeWord_source (s : State) {n : Nat} (hn : n < 14) : (causeWord s).getLsbD (8 + n) = intSource s n := by
  obtain ⟨h0, h1⟩ := intSource_software s
  simp only [causeWord, Cause.toWord, ipView, BitVec.getLsbD_append, bv1, BitVec.getLsbD_ofBool]
  interval_cases n <;> simp [h0, h1]

theorem readCp0_cause (s : State) : readCp0 s 13 = some (wide (causeWord s)) := rfl

theorem mem_pendingSources (s : State) (n : Nat) : n ∈ pendingSources s ↔ n < 14 ∧ intPending s n = true := by
  rw [pendingSources, List.mem_filter, List.mem_range]

theorem intMask_iff (s : State) (n : Nat) : intMask s n = true ↔
    if n < 8 then s.cp0.status.im.getLsbD n = true else s.cp0.intControl.im.getLsbD (n - 8) = true := by
  unfold intMask
  split <;> rfl

theorem intRequest_iff (s : State) : intRequest s = true ↔
    s.cp0.status.ie = true ∧ s.cp0.status.exl = false ∧ s.cp0.status.erl = false ∧
      ∃ n, n < 14 ∧ intPending s n = true := by
  rw [intRequest, Bool.and_eq_true, intEnabled, Bool.not_eq_true', List.isEmpty_eq_false_iff_exists_mem]
  simp only [mem_pendingSources, Bool.and_eq_true, Bool.not_eq_true', State.status, and_assoc]

/-- Settles O21: the bits of the write of the Interrupt register, the table of the sources, and the request as a pending
source. -/
theorem interruptRequestRule : Obligations.InterruptRequestRule := by
  intro s addr data u
  refine ⟨⟨fun h => ?_, fun h => if_neg h, applyEvent_externalWrite addr data s⟩, intSource_software s,
    fun k => intSource_pin s, rfl, rfl, rfl, fun n => intSource_above s, fun n hn w hw => ?_, ?_⟩
  · have hu : u.intReg = writeIntReg s.intReg data := congrArg State.intReg (if_pos h)
    rw [hu]
    exact getLsbD_writeIntReg s.intReg data
  · rw [readCp0_cause, Option.some.injEq] at hw
    subst hw
    rw [wide, BitVec.zeroExtend_eq_setWidth, BitVec.getLsbD_setWidth, causeWord_source s hn,
      decide_eq_true (by omega), Bool.true_and]
  · simp only [intRequest_iff, intPending, Bool.and_eq_true, intMask_iff]

/-! ## The entry of an interrupt (rules R855, R856) -/

/-- The winner of a request: a pending source of the smallest priority level. -/
theorem winner_of_request {s : State} (h : intRequest s = true) :
    ∃ n, n < 14 ∧ intPending s n = true ∧ (∀ k, k < 14 → intPending s k = true → intLevelOf s n ≤ intLevelOf s k) ∧
      intLevelOf s n = winningLevel s := by
  obtain ⟨-, -, -, p, hp, hpending⟩ := (intRequest_iff s).1 h
  have hle {k : Nat} (hk : k < 14) (hpk : intPending s k = true) : winningLevel s ≤ intLevelOf s k :=
    foldr_min_le_of_mem (intLevelOf s) 15 ((mem_pendingSources s k).2 ⟨hk, hpk⟩)
  obtain ⟨n, hn, hpn, heq⟩ : ∃ n, n < 14 ∧ intPending s n = true ∧ intLevelOf s n = winningLevel s := by
    rcases foldr_min_reached (intLevelOf s) 15 (pendingSources s) with hbase | ⟨n, hmem, heq⟩
    · exact ⟨p, hp, hpending, le_antisymm ((intLevelOf_le s p).trans hbase.ge) (hle hp hpending)⟩
    · obtain ⟨hn, hpn⟩ := (mem_pendingSources s n).1 hmem
      exact ⟨n, hn, hpn, heq⟩
  exact ⟨n, hn, hpn, fun k hk hpk => heq.le.trans (hle hk hpk), heq⟩

theorem takeInterrupt_vectored {s : State} {spacing : Nat} (hiv : s.cp0.cause.iv = true)
    (hvs : vectorSpacing s.cp0.intControl.vs = some spacing) :
    takeInterrupt s = .next (takeException (.int (BitVec.ofNat 64 (0x200 + winningLevel s * spacing))) s) := by
  rw [takeInterrupt, if_pos hiv, hvs]

theorem takeInterrupt_reservedSpacing {s : State} (hiv : s.cp0.cause.iv = true)
    (hvs : vectorSpacing s.cp0.intControl.vs = none) : takeInterrupt s = .fault .reservedVectorSpacing := by
  rw [takeInterrupt, if_pos hiv, hvs]

/-- Settles O22: the step is `takeInterrupt`, whose vector is that of the winner. -/
theorem interruptEntry : Obligations.InterruptEntry := by
  intro s hevents hnmi hstandby herrors hrequest
  have hstep : step s = tickOut s false true (takeInterrupt (sampled s)) := by
    rw [step_eq_interruptOrRun hevents hnmi hstandby herrors]
    exact interruptOrRun_requested hrequest
  rw [hstep]
  refine ⟨fun hiv => ?_, fun hiv spacing hvs => ?_, fun hiv hvs => ?_⟩
  · rw [takeInterrupt_common (s := sampled s) hiv]
    exact ⟨_, rfl, takesGeneral_takeException (.int 0x180) (sampled s),
      keepsFaultAddress_takeException (s := sampled s) ⟨rfl, rfl, rfl, rfl, rfl, rfl⟩⟩
  · obtain ⟨n, hn, hpending, hmin, hlevel⟩ := winner_of_request hrequest
    refine ⟨n, _, hn, hpending, hmin, ?_, takesGeneral_takeException (.int _) (sampled s)⟩
    rw [takeInterrupt_vectored (s := sampled s) hiv hvs, hlevel]
    rfl
  · rw [takeInterrupt_reservedSpacing (s := sampled s) hiv hvs]
    rfl

/-! ## Cache errors on a fetch (60_exceptions.md rules R810, R811) -/

section FetchParity

variable {s : State} {bits : ParityBits}

/-- A parity error that `DE` does not mask comes after the translation and before the read. -/
theorem fetch_parityError {pa : PAddr} {attr : BitVec 3} (ha : s.pc.toNat % 4 = 0)
    (htr : Machine.translate .fetch s.pc s = .ok (pa, attr)) (hde : s.cp0.status.de = false) :
    fetch (some bits) s = .error (.cacheError (fetchCacheErr bits pa attr s)) := by
  have hcheck : checkParity (some bits) pa attr s = .error (.cacheError (fetchCacheErr bits pa attr s)) := by
    rw [checkParity, State.status, hde]
    rfl
  rw [fetch, translateAligned, if_pos ((aligned_word_iff s.pc).2 ha), htr]
  simp only [hcheck]

/-- `DE` masks a parity error: the fetch is that without one. -/
theorem fetch_parityMasked (hde : s.cp0.status.de = true) : fetch (some bits) s = fetch none s := by
  have hcheck (pa : PAddr) (attr : BitVec 3) : checkParity (some bits) pa attr s = checkParity none pa attr s := by
    rw [checkParity, State.status, hde]
    rfl
  unfold fetch
  simp only [hcheck]

theorem fetchCacheErr_cached {pa : PAddr} {attr : BitVec 3} (h : uncached attr = false) :
    fetchCacheErr bits pa attr s = { s with cp0 := { s.cp0 with cacheErr :=
      { s.cp0.cacheErr with er := false, ec := false, ed := bits.ed, et := bits.et, ee := bits.ee, eb := bits.eb
                            ei := bits.ei, idx := pa.extractLsb' 3 19 } } } := by
  rw [fetchCacheErr, h]
  rfl

/-- On an uncached fetch `EC` and the index are free values. -/
theorem fetchCacheErr_uncached {pa : PAddr} {attr : BitVec 3} (h : uncached attr = true) :
    fetchCacheErr bits pa attr s = { s.drew 1 with cp0 := { s.cp0 with cacheErr :=
      { s.cp0.cacheErr with er := false, ec := (s.free 0).getLsbD 0, ed := bits.ed, et := bits.et, ee := bits.ee
                            eb := bits.eb, ei := bits.ei, idx := (s.free 0).extractLsb' 3 19 } } } := by
  rw [fetchCacheErr, h]
  rfl

end FetchParity

/-! ## Imprecise errors (rule R812) -/

theorem loseDest_cp0 (dest : LoadDest) (v : Dword) (s : State) : (loseDest dest v s).cp0 = s.cp0 := by
  cases dest with
  | none => rfl
  | gpr r => exact writeGpr_cp0 s r v
  | fpr r isWide => exact writeFpr_cp0 s (isWide || s.status.fr) r v

/-- Only the destination of the failing load loses its value. -/
theorem readGpr_loseDest {dest : LoadDest} {q : RegNum} (h : dest ≠ .gpr q) (v : Dword) (s : State) :
    readGpr (loseDest dest v s) q = readGpr s q := by
  cases dest with
  | none => rfl
  | gpr r => exact readGpr_writeGpr_other s r q v fun hq => h (congrArg LoadDest.gpr hq.symm)
  | fpr r isWide => exact readGpr_congr (writeFpr_gpr s (isWide || s.status.fr) r v) q

/-- What the record of an error leaves in CP0: the address in the register that `second` names, and `E0` or `E1`, `EC`,
`ER` and an index in `CacheErr`. -/
theorem recordError_cp0 (e : ImpreciseError) (s : State) :
    let u := recordError e s
    (e.second = false → u.cp0.dErrAddr0 = BitVec.ofNat 32 e.addr.toNat ∧
      u.cp0.ecc = { s.cp0.ecc with ea0 := e.addr.extractLsb' 32 4 } ∧ u.cp0.dErrAddr1 = s.cp0.dErrAddr1 ∧
      u.cp0.cacheErr = { s.cp0.cacheErr with e0 := true, ec := true, er := true, idx := u.cp0.cacheErr.idx }) ∧
    (e.second = true → u.cp0.dErrAddr1 = BitVec.ofNat 32 e.addr.toNat ∧
      u.cp0.ecc = { s.cp0.ecc with ea1 := e.addr.extractLsb' 32 4 } ∧ u.cp0.dErrAddr0 = s.cp0.dErrAddr0 ∧
      u.cp0.cacheErr = { s.cp0.cacheErr with e1 := true, ec := true, er := true, idx := u.cp0.cacheErr.idx }) := by
  intro u
  have hcp0 : u.cp0 = _ := loseDest_cp0 e.dest _ _
  rw [hcp0, BitVec.ofNat_toNat]
  constructor
  · intro h
    rw [h]
    exact ⟨rfl, rfl, rfl, rfl⟩
  · intro h
    rw [h]
    exact ⟨rfl, rfl, rfl, rfl⟩

theorem step_pendingError {s : State} {e : ImpreciseError} {es : List ImpreciseError} (hevents : s.events = [])
    (hnmi : nmiNow s = false ∨ s.nmiLevel = true) (hstandby : s.standby = false) (herrors : s.pendingErrors = e :: es) :
    step s = reportError s none e { sampled s with pendingErrors := es } := by
  have herrors' : (sampled s).pendingErrors = e :: es := herrors
  rw [step_eq_errorOrRun hevents hnmi hstandby, errorOrRun, herrors']

section Report

variable {before s : State} {parity : Option ParityBits} {e : ImpreciseError}

theorem reportError_bus (h : e.bus = true) :
    reportError before parity e s = tickOut before false true (raise .dbeImprecise (recordError e s)) :=
  if_pos h

theorem reportError_parity (h : e.bus = false) (hde : s.cp0.status.de = false) :
    reportError before parity e s =
      tickOut before false true (.next (enterCacheError (loadParityBits e.bits (recordError e s)))) := by
  rw [reportError, h, State.status, hde]
  rfl

theorem reportError_masked (h : e.bus = false) (hde : s.cp0.status.de = true) :
    reportError before parity e s = interruptOrRun before parity (recordError e s) := by
  rw [reportError, h, State.status, hde]
  rfl

end Report

/-- Settles O19: the fetch takes the board's parity error after the translation; a pending error is recorded, then taken
as what it is, or masked. -/
theorem cacheErrorEntry : Obligations.CacheErrorEntry := by
  intro s
  refine ⟨⟨rfl, rfl, rfl, fun _ => rfl, ⟨rfl, rfl⟩, rfl, rfl, ⟨rfl, rfl, rfl, rfl, rfl, rfl, rfl, rfl, rfl, rfl, rfl⟩,
    fun _ => rfl, rfl⟩, fun bits pa attr ha htr hde hc => ?_, fun bits pa attr ha htr hde hu => ?_,
    fun hde bits => fetch_parityMasked hde, fun e es herrors hevents hnmi hstandby => ?_⟩
  · rw [fetch_parityError ha htr hde, fetchCacheErr_cached hc]
    exact ⟨_, rfl, rfl, rfl⟩
  · rw [fetch_parityError ha htr hde, fetchCacheErr_uncached hu]
    exact ⟨_, rfl, rfl, rfl⟩
  · intro u
    have hstep := step_pendingError hevents hnmi hstandby herrors
    obtain ⟨hfirst, hsecond⟩ := recordError_cp0 e { sampled s with pendingErrors := es }
    refine ⟨⟨hfirst, hsecond, fun q hq => ?_, recordError_pendingErrors _ e⟩, fun hbus => ?_, fun hbus hde => ?_,
      fun hbus hde => ?_⟩
    · exact readGpr_loseDest hq _ _
    · refine ⟨_, hstep.trans (reportError_bus hbus), takesGeneral_takeException .dbeImprecise u,
        keepsFaultAddress_takeException ⟨rfl, rfl, rfl, rfl, rfl, rfl⟩⟩
    · exact ⟨_, hstep.trans (reportError_parity hbus hde), rfl⟩
    · exact hstep.trans (reportError_masked hbus hde)

/-! ## Unusable coprocessors (60_exceptions.md rule R825)

The instructions of coprocessor 1 are those the maps of its opcodes give, so the case split runs along the decoder
(`decode_encode`). -/

section Coprocessor0

variable {s : State} (h0 : cp0Usable s = false) {i : Instr}
include h0

/-- The moves of doublewords make the mode test first (40_cp0_instructions.md rules R354, R355). -/
theorem raises_cpU0_of_isCop0 (hi : isCop0 i = true)
    (h64 : (∃ rt rd, i = .dmfc0 rt rd ∨ i = .dmtc0 rt rd) → is64 s = true) : Raises i s (.cpU 0) := by
  cases i with
  | dmfc0 rt rd => exact (requireIs64_enabled (h64 ⟨rt, rd, .inl rfl⟩) _).trans (requireCp0_unusable h0 _)
  | dmtc0 rt rd => exact (requireIs64_enabled (h64 ⟨rt, rd, .inr rfl⟩) _).trans (requireCp0_unusable h0 _)
  | mfc0 | cfc0 | mtc0 | ctc0 | tlbr | tlbwi | tlbwr | tlbp | eret | wait => exact requireCp0_unusable h0 _
  | _ => exact absurd hi Bool.false_ne_true

end Coprocessor0

section Coprocessor1

variable {s : State} (hcu1 : s.status.cu1 = false)
include hcu1

theorem requireIs64_cu1Unusable (h64 : is64 s = true) (k : Out) :
    requireIs64 s (requireCu1 s k) = raise (.cpU 1) s :=
  (requireIs64_enabled h64 _).trans (requireCu1_unusable hcu1 k)

theorem requireMips4_cu1Unusable (h4 : isMips4 s = true) (k : Out) :
    requireMips4 s (requireCu1 s k) = raise (.cpU 1) s :=
  (requireMips4_enabled h4 _).trans (requireCu1_unusable hcu1 k)

variable {i : Instr} {w : Word}

theorem raises_cpU1_of_fpLongCase (h64 : is64 s = true) (hi : fpLongCase i s ≠ none) : Raises i s (.cpU 1) := by
  unfold fpLongCase at hi
  split at hi
  case h_13 => exact absurd rfl hi
  all_goals exact requireIs64_cu1Unusable hcu1 h64 _

theorem raises_cpU1_of_decodeBc1 (hi : decodeBc1 w = i) : Raises i s (.cpU 1) := by
  subst hi
  unfold decodeBc1
  split <;> exact requireCu1_unusable hcu1 _

/-- The function map of the format S, its conversions to L aside. -/
theorem raises_cpU1_of_decodeFmtS (hlong : fpLongCase i s = none) (hi : decodeFmtS w = .ok i) :
    Raises i s (.cpU 1) := by
  unfold decodeFmtS at hi
  split at hi
  case h_9 | h_10 | h_11 | h_12 | h_24 =>
    obtain rfl := Except.ok.inj hi
    cases hlong
  case h_17 =>
    split at hi
    case h_3 => cases hi
    all_goals
      obtain rfl := Except.ok.inj hi
      exact requireCu1_unusable hcu1 _
  case h_41 => cases hi
  all_goals
    obtain rfl := Except.ok.inj hi
    exact requireCu1_unusable hcu1 _

/-- The function map of the format D, its conversions to L aside. -/
theorem raises_cpU1_of_decodeFmtD (hlong : fpLongCase i s = none) (hi : decodeFmtD w = .ok i) :
    Raises i s (.cpU 1) := by
  unfold decodeFmtD at hi
  split at hi
  case h_9 | h_10 | h_11 | h_12 | h_24 =>
    obtain rfl := Except.ok.inj hi
    cases hlong
  case h_17 =>
    split at hi
    case h_3 => cases hi
    all_goals
      obtain rfl := Except.ok.inj hi
      exact requireCu1_unusable hcu1 _
  case h_41 => cases hi
  all_goals
    obtain rfl := Except.ok.inj hi
    exact requireCu1_unusable hcu1 _

theorem raises_cpU1_of_decodeFmtW (hi : decodeFmtW w = .ok i) : Raises i s (.cpU 1) := by
  unfold decodeFmtW at hi
  split at hi
  case h_3 => cases hi
  all_goals
    obtain rfl := Except.ok.inj hi
    exact requireCu1_unusable hcu1 _

omit hcu1 in
/-- The function map of the format L holds conversions from L only. -/
theorem fpLongCase_of_decodeFmtL (hi : decodeFmtL w = .ok i) : fpLongCase i s ≠ none := by
  unfold decodeFmtL at hi
  split at hi
  case h_3 => cases hi
  all_goals
    obtain rfl := Except.ok.inj hi
    exact Option.some_ne_none _

/-- The instructions of opcode 17; the moves of doublewords and the format L make the mode test first (48_fpu.md rule
R661). -/
theorem raises_cpU1_of_decodeCop1 (hi : decodeCop1 w = .ok i)
    (hmove : (∃ rt fs, i = .dmfc1 rt fs ∨ i = .dmtc1 rt fs) → is64 s = true) (hlong : fpLongCase i s = none) :
    Raises i s (.cpU 1) := by
  unfold decodeCop1 at hi
  split at hi
  case h_2 =>
    obtain rfl := Except.ok.inj hi
    exact requireIs64_cu1Unusable hcu1 (hmove ⟨_, _, .inl rfl⟩) _
  case h_5 =>
    obtain rfl := Except.ok.inj hi
    exact requireIs64_cu1Unusable hcu1 (hmove ⟨_, _, .inr rfl⟩) _
  case h_7 => exact raises_cpU1_of_decodeBc1 hcu1 (Except.ok.inj hi)
  case h_8 => exact raises_cpU1_of_decodeFmtS hcu1 hlong hi
  case h_9 => exact raises_cpU1_of_decodeFmtD hcu1 hlong hi
  case h_10 => exact raises_cpU1_of_decodeFmtW hcu1 hi
  case h_11 => exact absurd hlong (fpLongCase_of_decodeFmtL hi)
  case h_12 => cases hi
  all_goals
    obtain rfl := Except.ok.inj hi
    exact requireCu1_unusable hcu1 _

theorem raises_cpU1_of_decodeCop1x (h4 : isMips4 s = true) (hi : decodeCop1x w = .ok i) : Raises i s (.cpU 1) := by
  unfold decodeCop1x at hi
  split at hi
  case h_14 => cases hi
  all_goals
    obtain rfl := Except.ok.inj hi
    exact requireMips4_cu1Unusable hcu1 h4 _

/-- The loads and stores of the unit, by their major opcodes (30_encoding.md rule R304). -/
theorem raises_cpU1_of_access (hi : decode w = .ok i)
    (hop : (opF w).toNat = 49 ∨ (opF w).toNat = 53 ∨ (opF w).toNat = 57 ∨ (opF w).toNat = 61) : Raises i s (.cpU 1) := by
  unfold decode at hi
  rcases hop with hop | hop | hop | hop
  all_goals
    rw [hop] at hi
    obtain rfl := Except.ok.inj hi
    exact requireCu1_unusable hcu1 _

omit hcu1 in
theorem isCop1_cases (hi : isCop1 i = true) : (∃ rs cc rd, i = .movf rs cc rd ∨ i = .movt rs cc rd) ∨
    (opF (encode i)).toNat = 17 ∨ (opF (encode i)).toNat = 19 ∨ (opF (encode i)).toNat = 49 ∨
      (opF (encode i)).toNat = 53 ∨ (opF (encode i)).toNat = 57 ∨ (opF (encode i)).toNat = 61 := by
  unfold isCop1 at hi
  split at hi
  · exact .inl ⟨_, _, _, .inl rfl⟩
  · exact .inl ⟨_, _, _, .inr rfl⟩
  · exact .inr (by simpa using hi)

theorem raises_cpU1_of_isCop1 (hi : isCop1 i = true)
    (h64 : ((∃ rt fs, i = .dmfc1 rt fs ∨ i = .dmtc1 rt fs) ∨ fpLongCase i s ≠ none) → is64 s = true)
    (h4 : (opF (encode i) = 19 ∨ ∃ rs cc rd, i = .movf rs cc rd ∨ i = .movt rs cc rd) → isMips4 s = true) :
    Raises i s (.cpU 1) := by
  have hw := decode_encode i
  obtain ⟨rs, cc, rd, hmove⟩ | h17 | h19 | haccess := isCop1_cases hi
  · have hmips4 := h4 (.inr ⟨rs, cc, rd, hmove⟩)
    obtain rfl | rfl := hmove <;> exact requireMips4_cu1Unusable hcu1 hmips4 _
  · by_cases hlong : fpLongCase i s = none
    · rw [decode_at17 _ h17] at hw
      exact raises_cpU1_of_decodeCop1 hcu1 hw (fun hmove => h64 (.inl hmove)) hlong
    · exact raises_cpU1_of_fpLongCase hcu1 (h64 (.inr hlong)) hlong
  · rw [decode_at19 _ h19] at hw
    exact raises_cpU1_of_decodeCop1x hcu1 (h4 (.inl (BitVec.eq_of_toNat_eq h19))) hw
  · exact raises_cpU1_of_access hcu1 hw haccess

end Coprocessor1

/-- Settles O16: each instruction of a unit tests that the unit is usable, after its own mode test at most. -/
theorem unusableCoprocessorsTrap : Obligations.UnusableCoprocessorsTrap := by
  intro s i is0 is1 is4
  exact ⟨fun h0 hi h64 => raises_cpU0_of_isCop0 h0 hi h64, fun hcu1 hi h64 h4 => raises_cpU1_of_isCop1 hcu1 hi h64 h4⟩

end Sys2Proof.Proofs
